-- ==== Sys2Proof/Word.lean ====
section
/-! DEFINITION. The word types of the device (R9: multi-byte fields are little-endian; the byte is the
smallest addressable unit of every map of the spec). -/

namespace Sys2Proof

/-- One byte. -/
abbrev Byte := BitVec 8
/-- A 16-bit field. -/
abbrev W16 := BitVec 16
/-- A 32-bit field: one register of BAR0, one lane of a vector, one word of a list. -/
abbrev W32 := BitVec 32
/-- A 64-bit word: a tile register, an instruction word, a 64-bit BAR0 field. -/
abbrev W64 := BitVec 64

end Sys2Proof
end

