-- ==== Sys2Proof/Syntax.lean ====
section
/-! DEFINITION. The commands and events of the device: one constructor per row of spec/opcode_table.json, and the
operands they carry. What the device reads from outside itself (host memory, a drive, a regulator, a peer, a pin)
arrives as an operand of the step that reads it (log entry 2). -/

namespace Sys2Proof

/-- The four privilege classes of a mailbox (Table 6.1). -/
inductive Cls where
  | admin | tenant | mgmt | console
  deriving DecidableEq, Repr, Inhabited

/-- What the transfers of one command bring in: the indirect payload (R137), and the bytes of the data buffers, image,
devices or sensors that its payload names. `none` is a transfer that failed. -/
structure Reads where
  indirect : Option (List Byte) := some []
  data : Option (List Byte) := some []
  /-- MODEL_TAG and image CRC of the models that a Reef peer says it holds (R573). -/
  held : List (Nat × Nat) := []
  /-- ACLK cycles since the boot ROM started, for HOST_LOAD. -/
  aclk : Nat := 0
  /-- Telltale sources that occur in the cycle in which a TT_CLEAR clears their bits (R13). -/
  recur : List Nat := []
  /-- The PLB mailbox's command completes in the cycle of the write (R13). -/
  done : Bool := false
  deriving DecidableEq, Repr, Inhabited

/-- One command as it reaches Masthead (Table 6.2), with the mailbox that carries it. -/
structure Cmd where
  /-- Mailbox 0 - 19 of Table 6.1. -/
  mb : Nat := 0
  /-- OPCODE; a catalogue row of the table sets its own. -/
  op : Nat := 0
  flags : Nat := 0
  version : Nat := 3
  tag : Nat := 0
  plen : Nat := 0
  /-- Ring index of the entry; on mailbox 16 the source endpoint [7:0] and message tag [10:8] of the request. -/
  sqIdx : Nat := 0
  /-- The payload bytes: inline ones, or bytes 8 - 15 and the rest of the entry when INDIRECT is set. -/
  body : List Byte := []
  /-- The length of the message its transport delivered, when it is not a ring entry. -/
  msgLen : Option Nat := none
  /-- The SMBus segment (0 or 1) a command of mailbox 16 came on. -/
  bus : Nat := 0
  rd : Reads := {}
  deriving DecidableEq, Repr, Inhabited

/-- One ring entry that a fetch reads, with the transfers of its command. -/
structure Entry where
  bytes : List Byte
  rd : Reads := {}
  deriving DecidableEq, Repr, Inhabited

/-- What a boot stage's work found (Table 4.4): the ACLK cycles since the boot ROM started, the regulators' voltages
read in ROM_START, the links of FW_INIT, the stacks of MEM_INIT and the failed tiles of TILE_TEST. -/
structure StageReport where
  aclk : Nat := 0
  /-- Watched rows of Table 3.1 (counted from 0) out of range at the check of ROM_START (R54). -/
  railsOut : List Nat := []
  vrmMv0 : Nat := 750
  vrmMv1 : Nat := 750
  linksOk : Bool := true
  hbmOk : Bool := true
  /-- The image of the PLB boot flash, in FW_LOAD with BOOT_SRC 0b10. -/
  image : Option (List Byte) := none
  failedTiles : BitVec 128 := 0
  /-- FINAL: the fuses do not take the raise of SVN_MIN (Table 21.10). -/
  svnFails : Bool := false
  deriving DecidableEq, Repr, Inhabited

/-- Table 4.1, in its order: the offset of the domain's clock-loss source from 0x170. -/
inductive Domain where
  | yclk0 | yclk1 | mclk0 | mclk1 | fclk | lclk | eclk | hclk | nclk | cclk | vclk | pclk | aclk | tclk
  deriving DecidableEq, Repr, Inhabited

/-- The four references of the clock domains. -/
inductive Ref where
  | xtal | pcie | serdes | plb
  deriving DecidableEq, Repr, Inhabited

/-- What R83 and R84 speak of: a reference, or the PLL of one domain. -/
inductive ClockSrc where
  | ref (r : Ref)
  | pll (d : Domain)
  deriving DecidableEq, Repr, Inhabited

/-- The three causes of a PCIe reset (Table 4.2). -/
inductive PcieResetCause where
  | perst | hot | linkDown
  deriving DecidableEq, Repr, Inhabited

/-- The AVSBus reads of Table 3.4 and what the regulator answered: VDone, mA, or tenths of a degree. -/
inductive AvsRead where
  | status (vdone : Bool)
  | current (milliamp : Nat)
  | temperature (decidegree : Nat)
  deriving DecidableEq, Repr, Inhabited

/-- One FCLK cycle's reading of one source's pair E_P, E_N. -/
structure Pair where
  src : Nat
  p : Bool
  n : Bool
  deriving DecidableEq, Repr, Inhabited

/-- One MCTP packet on an SMBus block write or read at command 0x0F: the DSP0236 header fields and the body. -/
structure McPacket where
  dest : Nat := 0
  src : Nat := 0
  som : Bool := true
  eom : Bool := true
  seq : Nat := 0
  tag : Nat := 0
  owner : Bool := true
  body : List Byte := []
  deriving DecidableEq, Repr, Inhabited

/-- What a Read Word of SMB1 met: the word, a NAK, or a lost arbitration. -/
inductive Smb1Result where
  | word (w : Nat)
  | nak
  | lost
  deriving DecidableEq, Repr, Inhabited

/-- A PTP event or general message as the MAC hands it over (R644). Times are nanoseconds since second 0. -/
structure PtpMsg where
  gmId : Nat
  domain : Nat
  port : Nat
  seqId : Nat
  twoStep : Bool := false
  /-- originTimestamp or receiveTimestamp with correction. -/
  stamp : Int := 0
  deriving DecidableEq, Repr, Inhabited

/-- What Masthead chooses when it binds one STEPS entry (Binding and dispatch): the batch it goes on with, or the model, phase
and slots of a new one (context index and new positions); the tiles, Halyards and global Cleats; and the base of the area of
Mast SRAM. -/
structure Bind where
  batch : Option Nat := none
  model : Nat := 0
  decode : Bool := false
  slots : List (Option (Nat × Nat)) := []
  tiles : List Nat := []
  hals : List Nat := []
  gcleats : List Nat := []
  area : Nat := 0
  deriving DecidableEq, Repr, Inhabited

/-- An upset that has come to a word of protection and that its next read finds. -/
inductive Upset where
  | none | oneSymbol | more
  deriving DecidableEq, Repr, Inhabited

/-- A read that a command makes of `bytes` bytes, or a Sail's next instruction (of tile `tile`), with the upsets its words have met
(R307, R201). -/
structure HostRead where
  bytes : Nat
  ups : List (Nat × Upset)
  deriving DecidableEq, Repr, Inhabited

@[inherit_doc HostRead]
structure SailRun where
  tile : Nat
  ups : List (Nat × Upset)
  deriving DecidableEq, Repr, Inhabited

/-- What the training of a PCIe port finds of its lanes (R49): how many of them trained, those received inverted (a bit each), and
whether their order is reversed. -/
structure PortLanes where
  width : Nat
  inv : BitVec 16
  rev : Bool
  deriving DecidableEq, Repr, Inhabited

/-- A Stay link whose training phase is done, and its lanes received inverted (R49). -/
structure PhaseEnd where
  link : Nat
  inv : BitVec 4
  deriving DecidableEq, Repr, Inhabited

/-- A flit as a Stay link receives it: its 256 bytes after correction, and whether one of its codewords could not be corrected (R356). -/
structure RxFlit where
  bytes : List Byte
  bad : Bool
  deriving DecidableEq, Repr, Inhabited

/-- The peer of a Shroud packet: a device on Stay, or a port and a 16-byte address on UDP. -/
inductive ShrPeer where
  | stay (dev : Nat)
  | udp (port : Nat) (addr : List Byte)
  deriving DecidableEq, Repr, Inhabited

/-- What a client posts on a Shroud connection: a number of its own for the operation, the OPCODE of Table 16.3, the target
address and length, the local address (or the data of a FADD, a MSG or a WRITE that has it at hand), the Cleat of a WRITE_SIG,
a condition (global Cleat and threshold) and a completion Cleat. -/
structure ShrPost where
  id : Nat
  kind : Nat
  addr : Nat := 0
  len : Nat := 0
  lcl : Nat := 0
  data : List Byte := []
  cleat : Nat := 0
  cond : Option (Nat × Nat) := none
  done : Option Nat := none
  deriving DecidableEq, Repr, Inhabited

/-- How an addressed PLB target ends a cycle: its beats with their words, an error after some beats, or RETRY. -/
inductive PlbResp where
  | ready (words : List Nat)
  | err (words : List Nat)
  | retry
  deriving DecidableEq, Repr, Inhabited

/-- An access of Masthead's firmware through an outbound window: a read of n bytes, or a write of bytes, at an offset. -/
structure PlbFw where
  win : Nat
  off : Nat
  n : Nat
  data : Option (List Byte) := none
  deriving DecidableEq, Repr, Inhabited

/-- What the host's enumeration has written in one function's standard configuration and in its BAR4: Bus Master Enable, MSI-X Enable
and Function Mask, the vectors left masked, ATS Enable, and the MSI-X table's messages (entry, address, data). -/
structure FnCfg where
  fn : Nat
  busMaster : Bool := true
  msixEn : Bool := true
  fnMask : Bool := false
  vecMask : BitVec 64 := 0
  ats : Bool := false
  msgs : List (Nat × Nat × Nat) := []
  deriving DecidableEq, Repr, Inhabited

/-- What a drive reports on becoming ready (Table 18.6), the label it holds, and its CAP and transfer limits. -/
structure DriveInfo where
  /-- Version, namespace active, LBA format and requirements of Table 18.6 but its sizes. -/
  vs : Nat := 0x010400
  nsActive : Bool := true
  fmtOk : Bool := true
  nsze : Nat := 0
  mqes : Nat := 1023
  granted : Nat := 1
  /-- MDTS in bytes, 0 for no limit. -/
  mdts : Nat := 0
  label : List Byte := []
  deriving DecidableEq, Repr, Inhabited

/-- The completion of an NVM Express command: success with the data read, or an error with its Do Not Retry bit. -/
inductive NvResult where
  | ok (data : List Byte)
  | err (dnr : Bool)
  deriving DecidableEq, Repr, Inhabited

/-- One context image as it travels between devices (Table 22.3, Layout): record, keys (0 for a private block), token ids, and
the listed bytes of private KV by their place: block i of the sequence begins at i slots. -/
structure ReefImage where
  record : List Byte := []
  keys : List Nat := []
  ids : List Nat := []
  kv : List (Nat × Byte) := []
  deriving DecidableEq, Repr, Inhabited

/-- One section of a model replica: TYPE, flags, place in the region, MEM_LEN, and the template Masthead keeps. -/
structure ReefSect where
  typ : Nat
  flags : Nat
  base : Nat
  memLen : Nat
  file : List Byte
  deriving DecidableEq, Repr, Inhabited

/-- A model replica: the placed region and the templates (R573). -/
structure ReefReplica where
  tag : Nat
  crc : Nat
  layers : Nat := 1
  stepsSect : Nat := 0
  blockBytes : Nat := 0
  pages : Nat := 0
  sects : List ReefSect := []
  bytes : List (Nat × Byte) := []
  deriving DecidableEq, Repr, Inhabited

/-- What the Reef units of two devices tell each other. A context is named by its handle on the source. -/
inductive ReefMsg where
  /-- Source to holder: may a snapshot be parked; the snapshot itself; holder to source: the answer. -/
  | ask (snap : Nat)
  | park (snap : Nat) (images : List ReefImage) (replicas : List ReefReplica)
  | parked (snap : Nat) (accepted : Bool)
  /-- Destination to source: REEF_RESTORE asks for an evacuation; the source holds no such snapshot. -/
  | pull (snap : Nat)
  | noSnap (snap : Nat)
  /-- Source to destination: a frozen context with what has changed since its cut, over the parked image or, with none, whole. -/
  | catchUp (snap : Nat) (image : ReefImage) (replicas : List ReefReplica)
  /-- The destination's own lookups for a context have been answered. -/
  | looked (ctx : Nat)
  /-- Destination to source: confirmed, with its mapped blocks and those that become prefill work; refused. -/
  | confirm (handle mapped prefill : Nat)
  | refuse (handle : Nat)
  /-- Source to destination: the evacuation is over. -/
  | finished (snap : Nat)
  /-- Destination to source: an output token, the request's end with its result. -/
  | token (handle tok : Nat)
  | ended (handle status detail endc out hit built waited prefill timeNs : Nat)
  /-- Source to destination: a SUBMIT with its token ids, a SUBMIT_CANCEL, a CTX_FREE with ABORT or without. -/
  | submit (handle : Nat) (payload : List Byte) (ids : List Nat)
  | cancel (handle : Nat)
  | free (handle : Nat)
  deriving DecidableEq, Repr, Inhabited

/-- The commands and events, in the order of spec/opcode_table.json. -/
inductive Instr where
  /-- POWER_ON_RESET (R85). -/
  | powerOnReset
  /-- SYS_RST_N_LOW (R87). -/
  | sysRstNLow
  /-- STRAP_SAMPLE (R36). -/
  | strapSample (levels : BitVec 14)
  /-- COLD_RESET_RELEASE (R86). -/
  | coldResetRelease (locked : Bool)
  /-- PLL_LOCK_TIMEOUT (R86). -/
  | pllLockTimeout
  /-- BOOT_STAGE_DONE (R93). -/
  | bootStageDone (r : StageReport)
  /-- BOOT_STAGE_TIMEOUT (R93). -/
  | bootStageTimeout (aclk : Nat)
  /-- PCIE_RESET (R91). -/
  | pcieReset (cause : PcieResetCause)
  /-- PERST_N_RELEASE (R98). -/
  | perstNRelease
  /-- PWR_FAIL_N_FALL (R58). -/
  | pwrFailNFall (cycles : Nat)
  /-- PWR_FAIL_N_RECOVERY (R61). -/
  | pwrFailNRecovery
  /-- REFERENCE_LOSS (R83). -/
  | referenceLoss (c : ClockSrc)
  /-- REFERENCE_RETURN (R84). -/
  | referenceReturn (c : ClockSrc)
  /-- THERMAL_TRIP (R686). -/
  | thermalTrip (die : Nat)
  /-- RAIL_OUT_OF_RANGE (R685). -/
  | railOutOfRange (rail : Nat)
  /-- DESIRED_POINT_CHANGE (R68). -/
  | desiredPointChange (die : Nat)
  /-- YCLK_SWITCH_DONE (R64). -/
  | yclkSwitchDone (die : Nat)
  /-- AVS_STATUS_READ (R65). -/
  | avsStatusRead (die : Nat) (vdone : Bool)
  /-- AVS_POLL (R65). -/
  | avsPoll (die : Nat) (r : AvsRead)
  /-- AVS_SLEW_TIMEOUT (R63). -/
  | avsSlewTimeout (die : Nat)
  /-- SETTLE_TIMER (R65). -/
  | settleTimer (die : Nat)
  /-- AVS_FRAME_ERROR (R66). -/
  | avsFrameError (die : Nat)
  /-- ADAPTIVE_LOOP_PERIOD (R69). -/
  | adaptiveLoopPeriod (die : Nat) (steps : Int)
  /-- LIMITER_PERIOD (R71). -/
  | limiterPeriod
  /-- HEARTBEAT_TICK (R122). -/
  | heartbeatTick
  /-- BAR0_REGISTER_WRITE (R108). -/
  | bar0RegisterWrite (fn off bytes : Nat) (v : W64)
  /-- BAR0_UNMAPPED_ACCESS (R104). -/
  | bar0UnmappedAccess (fn off : Nat) (write : Bool)
  /-- W1C_WRITE (R13). -/
  | w1cWrite (fn off : Nat) (v recur : W32)
  /-- TT_STICKY_WRITE (R118). -/
  | ttStickyWrite (fn off : Nat) (v recur : W32)
  /-- TOD_NS_READ (R123). -/
  | todNsRead (fn : Nat)
  /-- TOD_SET_NS (R124). -/
  | todSetNs (fn : Nat) (v : W32)
  /-- TOD_STEP (R641). -/
  | todStep (fn : Nat) (v : W32)
  /-- TOD_ADJ_PPB (R125). -/
  | todAdjPpb (fn : Nat) (v : W32)
  /-- ENABLE (R127). -/
  | enable (fn m : Nat) (v : W32)
  /-- SQ_TAIL (R129). -/
  | sqTail (fn m : Nat) (v : W32)
  /-- CQ_HEAD (R143). -/
  | cqHead (fn m : Nat) (v : W32)
  /-- INLINE_GO (R130). -/
  | inlineGo (fn : Nat) (v : W32) (rd : Reads)
  /-- FUNC_VALIDATED (R115). -/
  | funcValidated (f : Nat)
  /-- FUNC_DRAINED (R114). -/
  | funcDrained (f : Nat)
  /-- MAILBOX_FETCH (R146). -/
  | mailboxFetch (m : Nat) (entries : Option (List Entry))
  /-- COMPLETION_POST (R144). -/
  | completionPost (m n : Nat) (ok : Bool)
  /-- COMMAND_TIMEOUT (R150). -/
  | commandTimeout (m seq : Nat)
  /-- LATE_RESULT (R150). -/
  | lateResult (m seq : Nat)
  /-- SMB0_BLOCK_WRITE (R620). -/
  | smb0BlockWrite (packet : McPacket) (pecOk : Bool) (rd : Reads)
  /-- SMB0_BLOCK_READ (R156). -/
  | smb0BlockRead
  /-- ALERT_RESPONSE_ADDRESS (R156). -/
  | alertResponseAddress
  /-- SMB0_TARGET_RESET (R622). -/
  | smb0TargetReset
  /-- SET_ENDPOINT_ID (R623). -/
  | setEndpointId (eid : Byte)
  /-- GET_ENDPOINT_ID (R157). -/
  | getEndpointId
  /-- GET_MCTP_VERSION_SUPPORT (R157). -/
  | getMctpVersionSupport (mtype : Byte)
  /-- GET_MESSAGE_TYPE_SUPPORT (R157). -/
  | getMessageTypeSupport
  /-- PMB_GO (R159). -/
  | pmbGo (v : W32) (rd : Reads)
  /-- CONSOLE_LINE (R160). -/
  | consoleLine (line : List Byte) (rd : Reads)
  /-- UART_CHARACTER_RX (R632). -/
  | uartCharacterRx (samples : List (BitVec 3)) (lowBits : Nat) (rd : Reads)
  /-- READINESS (R97). -/
  | readiness (c : Cmd)
  /-- IDENTITY (R120). -/
  | identity (c : Cmd)
  /-- SESSION_OPEN (R149). -/
  | sessionOpen (c : Cmd)
  /-- SESSION_CLOSE (R155). -/
  | sessionClose (c : Cmd)
  /-- VF_BIND (R154). -/
  | vfBind (c : Cmd)
  /-- DEVICE_RESET (R186). -/
  | deviceReset (c : Cmd)
  /-- FUNC_START (R187). -/
  | funcStart (c : Cmd)
  /-- FUNC_STOP (R187). -/
  | funcStop (c : Cmd)
  /-- STATS_READ (R172). -/
  | statsRead (c : Cmd)
  /-- POWER_POLICY (R188). -/
  | powerPolicy (c : Cmd)
  /-- POWER_STATUS (R76). -/
  | powerStatus (c : Cmd)
  /-- HOST_LOAD (R100). -/
  | hostLoad (c : Cmd)
  /-- CTX_ALLOC (R277). -/
  | ctxAlloc (c : Cmd)
  /-- CTX_FREE (R179). -/
  | ctxFree (c : Cmd)
  /-- CTX_QUERY (R164). -/
  | ctxQuery (c : Cmd)
  /-- MEM_ALLOC (R706). -/
  | memAlloc (c : Cmd)
  /-- MEM_FREE (R322). -/
  | memFree (c : Cmd)
  /-- MEM_COPY (R164). -/
  | memCopy (c : Cmd)
  /-- APERTURE_SET (R318). -/
  | apertureSet (c : Cmd)
  /-- NVME_CFG (R461). -/
  | nvmeCfg (c : Cmd)
  /-- MODEL_LOAD (R273). -/
  | modelLoad (c : Cmd)
  /-- MODEL_UNLOAD (R164). -/
  | modelUnload (c : Cmd)
  /-- WEIGHTS_LOAD (R279). -/
  | weightsLoad (c : Cmd)
  /-- SUBMIT (R181). -/
  | submit (c : Cmd)
  /-- SUBMIT_CANCEL (R178). -/
  | submitCancel (c : Cmd)
  /-- FURL_DOMAIN_CFG (R350). -/
  | furlDomainCfg (c : Cmd)
  /-- FURL_PIN (R348). -/
  | furlPin (c : Cmd)
  /-- FURL_UNPIN (R348). -/
  | furlUnpin (c : Cmd)
  /-- FURL_EVICT_CFG (R346). -/
  | furlEvictCfg (c : Cmd)
  /-- FURL_PURGE (R164). -/
  | furlPurge (c : Cmd)
  /-- FURL_PROBE (R164). -/
  | furlProbe (c : Cmd)
  /-- SHR_CONN_OPEN (R389). -/
  | shrConnOpen (c : Cmd)
  /-- SHR_CONN_CLOSE (R391). -/
  | shrConnClose (c : Cmd)
  /-- SHR_CONN_TIMEOUT (R194). -/
  | shrConnTimeout (c : Cmd)
  /-- SHR_MAP (R406). -/
  | shrMap (c : Cmd)
  /-- SHR_UNMAP (R407). -/
  | shrUnmap (c : Cmd)
  /-- SHR_CC_CFG (R394). -/
  | shrCcCfg (c : Cmd)
  /-- TRIM_MODE (R435). -/
  | trimMode (c : Cmd)
  /-- TRIM_SHAPER (R434). -/
  | trimShaper (c : Cmd)
  /-- TRIM_POLICER (R438). -/
  | trimPolicer (c : Cmd)
  /-- FRAME_CTX_CFG (R505). -/
  | frameCtxCfg (c : Cmd)
  /-- FRAME_CTX_FREE (R508). -/
  | frameCtxFree (c : Cmd)
  /-- FRAME_RC (R525). -/
  | frameRc (c : Cmd)
  /-- FRAME_ROI (R530). -/
  | frameRoi (c : Cmd)
  /-- FRAME_SUBMIT (R509). -/
  | frameSubmit (c : Cmd)
  /-- REEF_CFG (R565). -/
  | reefCfg (c : Cmd)
  /-- REEF_SNAPSHOT (R579). -/
  | reefSnapshot (c : Cmd)
  /-- REEF_EVACUATE (R580). -/
  | reefEvacuate (c : Cmd)
  /-- REEF_RESTORE (R588). -/
  | reefRestore (c : Cmd)
  /-- REEF_STATUS (R164). -/
  | reefStatus (c : Cmd)
  /-- TT_SEVERITY (R603). -/
  | ttSeverity (c : Cmd)
  /-- TT_READ (R601). -/
  | ttRead (c : Cmd)
  /-- TT_CLEAR (R600). -/
  | ttClear (c : Cmd)
  /-- TIME_SOURCE (R644). -/
  | timeSource (c : Cmd)
  /-- TIME_STATUS (R645). -/
  | timeStatus (c : Cmd)
  /-- SEC_KEY_SET (R541). -/
  | secKeySet (c : Cmd)
  /-- SEC_KEY_DESTROY (R544). -/
  | secKeyDestroy (c : Cmd)
  /-- FW_UPDATE (R551). -/
  | fwUpdate (c : Cmd)
  /-- MEASURE (R550). -/
  | measure (c : Cmd)
  /-- DEBUG_CHALLENGE (R560). -/
  | debugChallenge (c : Cmd)
  /-- DEBUG_UNLOCK (R562). -/
  | debugUnlock (c : Cmd)
  /-- DEBUG_LOCK (R557). -/
  | debugLock (c : Cmd)
  /-- PLB_WINDOW (R481). -/
  | plbWindow (c : Cmd)
  /-- PLB_ACCESS (R485). -/
  | plbAccess (c : Cmd)
  /-- PLB_IRQ_ROUTE (R504). -/
  | plbIrqRoute (c : Cmd)
  /-- PLB_ARB_CFG (R479). -/
  | plbArbCfg (c : Cmd)
  /-- SENSOR_READ (R164). -/
  | sensorRead (c : Cmd)
  /-- RATLINE_SWEEP (R650). -/
  | ratlineSweep (c : Cmd)
  /-- GPIO_CFG (R33). -/
  | gpioCfg (c : Cmd)
  /-- CONSOLE_CFG (R631). -/
  | consoleCfg (c : Cmd)
  /-- PSTORE_READ (R654). -/
  | pstoreRead (c : Cmd)
  /-- PSTORE_WRITE (R652). -/
  | pstoreWrite (c : Cmd)
  /-- RACK_EPOCH (R667). -/
  | rackEpoch (c : Cmd)
  /-- RACK_STATUS (R164). -/
  | rackStatus (c : Cmd)
  /-- SUBMIT_DEADLINE (R175). -/
  | submitDeadline (c : Nat)
  /-- STEP_BOUNDARY (R175). -/
  | stepBoundary (b : Nat)
  /-- DECODE_START (R26). -/
  | decodeStart (c : Nat)
  /-- DISPATCH_BIND (R282). -/
  | dispatchBind (b : Bind)
  /-- DISPATCH_END (R286). -/
  | dispatchEnd (d : Nat)
  /-- DISPATCH_HALT (R221). -/
  | dispatchHalt (d : Nat)
  /-- HALYARD_DRAIN_LIMIT (R272). -/
  | halyardDrainLimit (d : Nat)
  /-- TILE_PROGRAM_END (R211). -/
  | tileProgramEnd (t : Nat)
  /-- STALL_WATCHDOG (R231). -/
  | stallWatchdog (t : Nat)
  /-- TILE_RESERVED_OPCODE (R224). -/
  | tileReservedOpcode (t : Nat)
  /-- NOP (R223). -/
  | tNop (t : Nat)
  /-- END (R211). -/
  | tEnd (t : Nat)
  /-- BR (R223). -/
  | tBr (t : Nat)
  /-- BEQ (R223). -/
  | tBeq (t : Nat)
  /-- BNE (R223). -/
  | tBne (t : Nat)
  /-- BLT (R223). -/
  | tBlt (t : Nat)
  /-- BGE (R223). -/
  | tBge (t : Nat)
  /-- BLTU (R223). -/
  | tBltu (t : Nat)
  /-- BGEU (R223). -/
  | tBgeu (t : Nat)
  /-- JAL (R223). -/
  | tJal (t : Nat)
  /-- JR (R223). -/
  | tJr (t : Nat)
  /-- BPANY (R223). -/
  | tBpany (t : Nat)
  /-- BPNONE (R223). -/
  | tBpnone (t : Nat)
  /-- ADD (R236). -/
  | tAdd (t : Nat)
  /-- SUB (R236). -/
  | tSub (t : Nat)
  /-- MUL (R236). -/
  | tMul (t : Nat)
  /-- MULHU (R236). -/
  | tMulhu (t : Nat)
  /-- MULH (R236). -/
  | tMulh (t : Nat)
  /-- DIV (R236). -/
  | tDiv (t : Nat)
  /-- DIVU (R236). -/
  | tDivu (t : Nat)
  /-- REM (R236). -/
  | tRem (t : Nat)
  /-- REMU (R236). -/
  | tRemu (t : Nat)
  /-- AND (R236). -/
  | tAnd (t : Nat)
  /-- OR (R236). -/
  | tOr (t : Nat)
  /-- XOR (R236). -/
  | tXor (t : Nat)
  /-- SLL (R236). -/
  | tSll (t : Nat)
  /-- SRL (R236). -/
  | tSrl (t : Nat)
  /-- SRA (R236). -/
  | tSra (t : Nat)
  /-- SLT (R236). -/
  | tSlt (t : Nat)
  /-- SLTU (R236). -/
  | tSltu (t : Nat)
  /-- MIN (R236). -/
  | tMin (t : Nat)
  /-- MAX (R236). -/
  | tMax (t : Nat)
  /-- MINU (R236). -/
  | tMinu (t : Nat)
  /-- MAXU (R236). -/
  | tMaxu (t : Nat)
  /-- LI (R236). -/
  | tLi (t : Nat)
  /-- LIH (R236). -/
  | tLih (t : Nat)
  /-- ADDI (R236). -/
  | tAddi (t : Nat)
  /-- SLTI (R236). -/
  | tSlti (t : Nat)
  /-- ANDI (R236). -/
  | tAndi (t : Nat)
  /-- ORI (R236). -/
  | tOri (t : Nat)
  /-- XORI (R236). -/
  | tXori (t : Nat)
  /-- SLLI (R236). -/
  | tSlli (t : Nat)
  /-- SRLI (R236). -/
  | tSrli (t : Nat)
  /-- SRAI (R236). -/
  | tSrai (t : Nat)
  /-- LB (R197). -/
  | tLb (t : Nat)
  /-- LBU (R197). -/
  | tLbu (t : Nat)
  /-- LH (R197). -/
  | tLh (t : Nat)
  /-- LHU (R197). -/
  | tLhu (t : Nat)
  /-- LW (R197). -/
  | tLw (t : Nat)
  /-- LWU (R197). -/
  | tLwu (t : Nat)
  /-- LD (R197). -/
  | tLd (t : Nat)
  /-- SB (R209). -/
  | tSb (t : Nat)
  /-- SH (R209). -/
  | tSh (t : Nat)
  /-- SW (R209). -/
  | tSw (t : Nat)
  /-- SD (R209). -/
  | tSd (t : Nat)
  /-- VFADD (R233). -/
  | tVfadd (t : Nat)
  /-- VFSUB (R233). -/
  | tVfsub (t : Nat)
  /-- VFMUL (R233). -/
  | tVfmul (t : Nat)
  /-- VFMA (R233). -/
  | tVfma (t : Nat)
  /-- VFMIN (R233). -/
  | tVfmin (t : Nat)
  /-- VFMAX (R233). -/
  | tVfmax (t : Nat)
  /-- VFABS (R233). -/
  | tVfabs (t : Nat)
  /-- VFNEG (R233). -/
  | tVfneg (t : Nat)
  /-- VRCP (R233). -/
  | tVrcp (t : Nat)
  /-- VRSQ (R233). -/
  | tVrsq (t : Nat)
  /-- VEXP2 (R233). -/
  | tVexp2 (t : Nat)
  /-- VLOG2 (R233). -/
  | tVlog2 (t : Nat)
  /-- VFCEQ (R233). -/
  | tVfceq (t : Nat)
  /-- VFCLT (R233). -/
  | tVfclt (t : Nat)
  /-- VFCLE (R233). -/
  | tVfcle (t : Nat)
  /-- VADD (R226). -/
  | tVadd (t : Nat)
  /-- VSUB (R226). -/
  | tVsub (t : Nat)
  /-- VMUL (R226). -/
  | tVmul (t : Nat)
  /-- VAND (R226). -/
  | tVand (t : Nat)
  /-- VOR (R226). -/
  | tVor (t : Nat)
  /-- VXOR (R226). -/
  | tVxor (t : Nat)
  /-- VSLL (R226). -/
  | tVsll (t : Nat)
  /-- VSRL (R226). -/
  | tVsrl (t : Nat)
  /-- VSRA (R226). -/
  | tVsra (t : Nat)
  /-- VMIN (R226). -/
  | tVmin (t : Nat)
  /-- VMAX (R226). -/
  | tVmax (t : Nat)
  /-- VCMP (R226). -/
  | tVcmp (t : Nat)
  /-- VBADD (R233). -/
  | tVbadd (t : Nat)
  /-- VBMUL (R233). -/
  | tVbmul (t : Nat)
  /-- VBFMA (R233). -/
  | tVbfma (t : Nat)
  /-- VSEL (R226). -/
  | tVsel (t : Nat)
  /-- VLD (R212). -/
  | tVld (t : Nat)
  /-- VST (R212). -/
  | tVst (t : Nat)
  /-- VBCST (R226). -/
  | tVbcst (t : Nat)
  /-- VMOV (R226). -/
  | tVmov (t : Nat)
  /-- VEXT (R226). -/
  | tVext (t : Nat)
  /-- VINS (R226). -/
  | tVins (t : Nat)
  /-- VIOTA (R226). -/
  | tViota (t : Nat)
  /-- VPERM (R226). -/
  | tVperm (t : Nat)
  /-- VRSUM (R235). -/
  | tVrsum (t : Nat)
  /-- VRMAX (R235). -/
  | tVrmax (t : Nat)
  /-- VRMIN (R235). -/
  | tVrmin (t : Nat)
  /-- PLOG (R226). -/
  | tPlog (t : Nat)
  /-- PNOT (R226). -/
  | tPnot (t : Nat)
  /-- PMOVG (R226). -/
  | tPmovg (t : Nat)
  /-- PMOVP (R226). -/
  | tPmovp (t : Nat)
  /-- PSET (R226). -/
  | tPset (t : Nat)
  /-- VCVTFB (R234). -/
  | tVcvtfb (t : Nat)
  /-- VCVTBF (R234). -/
  | tVcvtbf (t : Nat)
  /-- VCVTFI (R234). -/
  | tVcvtfi (t : Nat)
  /-- VCVTIF (R234). -/
  | tVcvtif (t : Nat)
  /-- VQ8 (R294). -/
  | tVq8 (t : Nat)
  /-- VQ4 (R294). -/
  | tVq4 (t : Nat)
  /-- VDQ8 (R296). -/
  | tVdq8 (t : Nat)
  /-- VDQ4 (R296). -/
  | tVdq4 (t : Nat)
  /-- SMMA (R204). -/
  | tSmma (t : Nat)
  /-- SSCL (R204). -/
  | tSscl (t : Nat)
  /-- SZERO (R204). -/
  | tSzero (t : Nat)
  /-- SDRAIN (R204). -/
  | tSdrain (t : Nat)
  /-- SAIL_EXECUTE (R205). -/
  | sailExecute (r : SailRun)
  /-- SAIL_DRAIN_DONE (R204). -/
  | sailDrainDone (t : Nat)
  /-- SHPOP (R237). -/
  | tShpop (t : Nat)
  /-- SHPOPNW (R237). -/
  | tShpopnw (t : Nat)
  /-- SHPUSH (R237). -/
  | tShpush (t : Nat)
  /-- SHPUSHNW (R237). -/
  | tShpushnw (t : Nat)
  /-- SHMARK (R237). -/
  | tShmark (t : Nat)
  /-- SHRWD (R237). -/
  | tShrwd (t : Nat)
  /-- SHREL (R237). -/
  | tShrel (t : Nat)
  /-- SHRELR (R237). -/
  | tShrelr (t : Nat)
  /-- SHLVL (R237). -/
  | tShlvl (t : Nat)
  /-- SHCRD (R237). -/
  | tShcrd (t : Nat)
  /-- SHFILL (R254). -/
  | tShfill (t : Nat)
  /-- SHCE (R256). -/
  | tShce (t : Nat)
  /-- CLSIG (R258). -/
  | tClsig (t : Nat)
  /-- CLWAIT (R259). -/
  | tClwait (t : Nat)
  /-- CLRD (R258). -/
  | tClrd (t : Nat)
  /-- CLSET (R239). -/
  | tClset (t : Nat)
  /-- CSRR (R240). -/
  | tCsrr (t : Nat)
  /-- CSRW (R240). -/
  | tCsrw (t : Nat)
  /-- CLEAT_SIGNAL (R260). -/
  | cleatSignal (n : Nat)
  /-- CLEAT_WAIT_RELEASE (R265). -/
  | cleatWaitRelease (halyard : Bool) (n : Nat)
  /-- HALYARD_END (R216). -/
  | hHalyardEnd (h : Nat)
  /-- STREAM_IN (R217). -/
  | hStreamIn (h : Nat)
  /-- STREAM_OUT (R217). -/
  | hStreamOut (h : Nat)
  /-- TILE_IN (R214). -/
  | hTileIn (h : Nat)
  /-- TILE_OUT (R214). -/
  | hTileOut (h : Nat)
  /-- COPY (R214). -/
  | hCopy (h : Nat)
  /-- SIGNAL (R216). -/
  | hSignal (h : Nat)
  /-- WAIT (R216). -/
  | hWait (h : Nat)
  /-- LOOP (R704). -/
  | hLoop (h : Nat)
  /-- HALYARD_READ_DATA (R217). -/
  | halyardReadData (h k : Nat) (ups : List (Nat × Upset))
  /-- DESCRIPTOR_COMPLETE (R218). -/
  | descriptorComplete (h k : Nat)
  /-- HBM_WRITE_BACK (R308). -/
  | hbmWriteBack (w : Nat)
  /-- HBM_REFRESH (R312). -/
  | hbmRefresh (stack : Nat)
  /-- HBM_SCRUB (R313). -/
  | hbmScrub (w : Nat) (upset : Upset)
  /-- BAR2_READ (R319). -/
  | bar2Read (fn off : Nat) (rd : HostRead)
  /-- BAR2_WRITE (R319). -/
  | bar2Write (fn off : Nat) (bytes : List Byte)
  /-- POISONED_WRITE_RX (R453). -/
  | poisonedWriteRx (fn bar : Nat)
  /-- LOOKUP (R326). -/
  | furlLookup (src key parent tag pdom : Nat) (toks : List Nat) (ctx offer mode : Nat)
  /-- ANSWER (R330). -/
  | furlAnswer (src key code locDev : Nat) (nvme : Bool) (locAddr child n : Nat) (ups : List (Nat × Upset))
  /-- UNHOLD (R328). -/
  | furlUnhold (src key : Nat)
  /-- ABANDON (R338). -/
  | furlAbandon (src key ctx : Nat)
  /-- RENEW (R334). -/
  | furlRenew (src : Nat) (keys : List Nat)
  /-- FURL_RENEW_TIMER (R334). -/
  | furlRenewTimer
  /-- PUBLISH (R337). -/
  | furlPublish (src key : Nat)
  /-- CHILD (R327). -/
  | furlChild (parent key : Nat)
  /-- NOTIFY (R336). -/
  | furlNotify (src key ev locDev locAddr ctx : Nat)
  /-- FURL_LEASE_EXPIRY (R334). -/
  | furlLeaseExpiry (e : Nat)
  /-- EVICT (R343). -/
  | furlEvict (src key op : Nat)
  /-- EVICT_ACK (R343). -/
  | furlEvictAck (src key op : Nat) (granted : Bool)
  /-- RESTORE (R345). -/
  | furlRestore (src key : Nat) (own : Bool)
  /-- MOVED (R344). -/
  | furlMoved (src key : Nat) (nvme : Bool) (locAddr : Nat)
  /-- ORPHAN_HOLD (R352). -/
  | furlOrphanHold (src key : Nat) (hold : Bool)
  /-- FURL_EVICTION_START (R346). -/
  | furlEvictionStart
  /-- STAY_FLIT_RX (R360). -/
  | stayFlitRx (k : Nat) (flit : RxFlit) (corr badCw uncorr : Nat)
  /-- STAY_REPLAY_TIMEOUT (R362). -/
  | stayReplayTimeout (k : Nat)
  /-- STAY_RETRY_BUDGET_EXPIRY (R363). -/
  | stayRetryBudgetExpiry (k : Nat)
  /-- STAY_PACKET_SEND (R371). -/
  | stayPacketSend (dest vc proto flow : Nat) (data : List Byte) (sys : Bool)
  /-- INIT (R376). -/
  | stayInit (k role node port : Nat)
  /-- RESYNC (R367). -/
  | stayResync (k : Nat)
  /-- RESYNC_ACK (R367). -/
  | stayResyncAck (k : Nat)
  /-- STAY_RESYNC_TIMEOUT (R375). -/
  | stayResyncTimeout (k : Nat)
  /-- STAY_TRAINING_PHASE_DONE (R375). -/
  | stayTrainingPhaseDone (p : PhaseEnd)
  /-- STAY_TRAINING_TIMEOUT (R375). -/
  | stayTrainingTimeout (k : Nat)
  /-- STAY_RETRY_INTERVAL (R375). -/
  | stayRetryInterval (k : Nat)
  /-- STAY_CREDIT_GRANT (R367). -/
  | stayCreditGrant (k : Nat)
  /-- LINK_MAP (R373). -/
  | linkMap (src : Nat) (data : List Byte)
  /-- LINK_MAP_TIMER (R372). -/
  | linkMapTimer
  /-- LINK_MAP_SILENCE (R372). -/
  | linkMapSilenceEv (src : Nat)
  /-- CONNECT (R391). -/
  | shrConnect (src : ShrPeer) (packet : List Byte)
  /-- ACCEPT (R391). -/
  | shrAccept (src : ShrPeer) (packet : List Byte)
  /-- REQ (R400). -/
  | shrReq (src : ShrPeer) (packet : List Byte)
  /-- RESP (R411). -/
  | shrResp (src : ShrPeer) (packet : List Byte)
  /-- ACK (R398). -/
  | shrAck (src : ShrPeer) (packet : List Byte)
  /-- CLOSE (R391). -/
  | shrClose (src : ShrPeer) (packet : List Byte)
  /-- CLOSE_ACK (R391). -/
  | shrCloseAck (src : ShrPeer) (packet : List Byte)
  /-- READ (R404). -/
  | shrRead (c : Nat)
  /-- WRITE (R401). -/
  | shrWrite (c : Nat)
  /-- WRITE_SIG (R402). -/
  | shrWriteSig (c : Nat)
  /-- FADD (R405). -/
  | shrFadd (c : Nat)
  /-- MSG (R400). -/
  | shrMsg (c : Nat)
  /-- SHR_OPERATION_POST (R411). -/
  | shrOperationPost (c : Nat) (p : ShrPost)
  /-- SHR_GATE_RELEASE (R419). -/
  | shrGateRelease (c : Nat)
  /-- SHR_PAGE_PRESENT (R408). -/
  | shrPagePresent (page : Nat)
  /-- SHR_RESEND_DELAY (R410). -/
  | shrResendDelay (c : Nat)
  /-- SHR_RETRANSMIT_TIMER (R398). -/
  | shrRetransmitTimer (c psn : Nat)
  /-- SHR_ACK_TIMER (R397). -/
  | shrAckTimer (c : Nat)
  /-- SHR_BROKEN_TIMEOUT (R399). -/
  | shrBrokenTimeout (c : Nat)
  /-- SHR_OP_TIMEOUT (R413). -/
  | shrOpTimeout (c op : Nat)
  /-- SHR_CONNECT_RETRY (R391). -/
  | shrConnectRetry (c : Nat)
  /-- SHR_CLOSE_RETRY (R391). -/
  | shrCloseRetry (c : Nat)
  /-- SHR_CC_PERIOD (R417). -/
  | shrCcPeriod (c : Nat)
  /-- TRIM_SELECT (R427). -/
  | trimSelectEv (p : Nat)
  /-- TRIM_BUCKET_GAIN (R432). -/
  | trimBucketGain
  /-- PFC_FRAME_RX (R443). -/
  | pfcFrameRx (p : Nat) (times : List (Nat × Nat))
  /-- ETH_FRAME_RX (R444). -/
  | ethFrameRxEv (p prio n : Nat) (full uncorr : Bool)
  /-- PFC_REPEAT (R444). -/
  | pfcRepeatEv (p prio : Nat)
  /-- FLR (R457). -/
  | flr (fn : Nat) (cfg : List FnCfg)
  /-- VF_ENABLE_CLEAR (R456). -/
  | vfEnableClear
  /-- VF_ENABLE_SET (R456). -/
  | vfEnableSet (n : Nat) (cfg : List FnCfg)
  /-- D3HOT_ENTRY (R459). -/
  | d3hotEntry (fn : Nat)
  /-- D0_RETURN (R459). -/
  | d0Return (fn : Nat)
  /-- ATS_INVALIDATE (R452). -/
  | atsInvalidate (fn : Nat) (pages : List Nat)
  /-- MSIX_UNMASK (R454). -/
  | msixUnmask (fn vec : Nat)
  /-- HOST_TRANSFER_FAILURE (R451). -/
  | hostTransferFailure (m : Nat) (seq : Option Nat)
  /-- NVME_LINK_UP (R462). -/
  | nvmeLinkUp (d : Nat) (lanes : PortLanes) (rate : Nat)
  /-- NVME_CSTS_RDY (R462). -/
  | nvmeCstsRdy (d : Nat) (set : Bool) (i : DriveInfo)
  /-- NVME_CAP_TO_EXPIRY (R462). -/
  | nvmeCapToExpiry (d : Nat)
  /-- NVME_COMMAND_COMPLETION (R469). -/
  | nvmeCommandCompletion (d cid : Nat) (r : NvResult)
  /-- NVME_RETRY_DELAY (R469). -/
  | nvmeRetryDelay (d cid : Nat)
  /-- NVME_COMMAND_TIMEOUT (R468). -/
  | nvmeCommandTimeout (d cid : Nat)
  /-- NVME_CONTROLLER_FATAL (R462). -/
  | nvmeControllerFatal (d : Nat)
  /-- NVME_LINK_DOWN (R470). -/
  | nvmeLinkDown (d : Nat)
  /-- NVME_DMA_REQUEST (R464). -/
  | nvmeDmaRequest (d addr n : Nat)
  /-- NVME_ASYNC_EVENT (R455). -/
  | nvmeAsyncEvent (d smart : Nat)
  /-- PLB_INBOUND_READ (R490). -/
  | plbInboundRead (addr be : Nat) (burst : Bool) (beats : Nat) (owner : Option Nat)
  /-- PLB_INBOUND_WRITE (R492). -/
  | plbInboundWrite (addr be : Nat) (burst : Bool) (words : List Nat) (rd : Reads)
  /-- PLB_DELAYED_FETCH_DONE (R491). -/
  | plbDelayedFetchDone (i : Nat) (ok : Bool)
  /-- PLB_DELAYED_READ_DISCARD (R494). -/
  | plbDelayedReadDiscard (i : Nat)
  /-- PLB_ARBITRATE (R478). -/
  | plbArbitrate (req : Nat) (idle : Bool) (addressBy : Option Nat) (twoResponses : Bool) (cycles : Nat)
  /-- PLB_OUTBOUND_ACCESS (R493). -/
  | plbOutboundAccess (fw : Option PlbFw) (idle : Bool)
  /-- PLB_TARGET_RESPONSE (R495). -/
  | plbTargetResponse (r : PlbResp)
  /-- PLB_RETRY_WAIT (R496). -/
  | plbRetryWait
  /-- PLB_NO_RESPONSE (R496). -/
  | plbNoResponse
  /-- PLB_GRANT_TIMEOUT (R496). -/
  | plbGrantTimeout
  /-- PLB_IRQ_ASSERT (R502). -/
  | plbIrqAssert (n : Nat)
  /-- PLB_IRQ_LEVEL_REPEAT (R502). -/
  | plbIrqLevelRepeat (n : Nat)
  /-- FRAME_UNIT_TAKE (R506). -/
  | frameUnitTake
  /-- FRAME_END (R507). -/
  | frameEnd (f n : Nat) (chunk : Option (List Byte))
  /-- FRAME_ENCODE_RECORD (R527). -/
  | frameEncodeRecord (f : Nat) (pic : List Byte)
  /-- DEBUG_NONCE_EXPIRY (R560). -/
  | debugNonceExpiry
  /-- REEF_TRIGGER_EVAL (R566). -/
  | reefTriggerEval (held : List (Nat × Nat))
  /-- REEF_PROTECTED_WRITE (R570). -/
  | reefProtectedWrite (addr : Nat) (data : List Byte)
  /-- REEF_COPY_DONE (R571). -/
  | reefCopyDone
  /-- REEF_PARK (R575). -/
  | reefPark (src : Nat) (m : ReefMsg)
  /-- REEF_TARGET_FAIL (R575). -/
  | reefTargetFail
  /-- REEF_CONFIRM (R583). -/
  | reefConfirm (src : Nat) (m : ReefMsg)
  /-- REEF_REFUSE (R582). -/
  | reefRefuse (src handle : Nat)
  /-- REEF_OUTPUT_TOKEN (R584). -/
  | reefOutputToken (src : Nat) (m : ReefMsg)
  /-- REEF_PEER_LOSS (R586). -/
  | reefPeerLoss (dev : Nat)
  /-- REEF_HOSTED_EXPIRY (R587). -/
  | reefHostedExpiry (src : Nat)
  /-- TT_OCCURRENCE (R600). -/
  | ttOccurrence (pairs : List Pair)
  /-- TT_ACKNOWLEDGE (R608). -/
  | ttAcknowledge
  /-- TT_WATCHDOG (R609). -/
  | ttWatchdog
  /-- DIRECT_PATH_ASSERT (R613). -/
  | directPathAssert (src : Nat)
  /-- TT_PARITY_SCAN (R614). -/
  | ttParityScan (mismatch : Bool)
  /-- SMB1_POLL (R625). -/
  | smb1Poll (addr : Nat) (r : Smb1Result)
  /-- SMB1_ARB_RETRY (R628). -/
  | smb1ArbRetry (addr : Nat) (r : Smb1Result)
  /-- SMB1_BLOCK_WRITE (R630). -/
  | smb1BlockWrite (packet : McPacket) (pecOk : Bool) (rd : Reads)
  /-- JTAG_TAP_RESET (R637). -/
  | jtagTapReset
  /-- IDCODE (R636). -/
  | jtagIdcode
  /-- SAMPLE_PRELOAD (R636). -/
  | jtagSamplePreload
  /-- EXTEST (R638). -/
  | jtagExtest
  /-- EXTEST_PULSE (R638). -/
  | jtagExtestPulse
  /-- EXTEST_TRAIN (R638). -/
  | jtagExtestTrain
  /-- CLAMP (R638). -/
  | jtagClamp
  /-- HIGHZ (R638). -/
  | jtagHighz
  /-- DBG_STATUS (R636). -/
  | jtagDbgStatus
  /-- PRIVATE_DEBUG_ACCESS (R557). -/
  | jtagPrivateDebugAccess (ir : Nat)
  /-- BYPASS (R636). -/
  | jtagBypass (ir : Nat)
  /-- SYNC (R644). -/
  | ptpSync (m : PtpMsg)
  /-- FOLLOW_UP (R644). -/
  | ptpFollowUp (m : PtpMsg)
  /-- DELAY_RESP (R642). -/
  | ptpDelayResp (m : PtpMsg)
  /-- DELAY_REQ_TIMER (R644). -/
  | delayReqTimer
  /-- PPS_IN_EDGE (R646). -/
  | ppsInEdge (lowNs : Nat)
  /-- PPS_OUT_PULSE (R647). -/
  | ppsOutPulse
  /-- PPS_OUT_END (R647). -/
  | ppsOutEnd
  /-- SYNCED_STALE (R645). -/
  | syncedStale
  /-- RATLINE_PERIODIC_ENTRY (R649). -/
  | ratlinePeriodicEntry (temp : Int)
  /-- ENTRY (R649). -/
  | ratlineEntry (frame : List Byte)
  /-- SWEEP (R649). -/
  | ratlineSweepFrame (frame : List Byte) (temp : Int)
  /-- RATLINE_SWEEP_TIMEOUT (R650). -/
  | ratlineSweepTimeout
  /-- RATLINE_ORPHAN_TIMEOUT (R651). -/
  | ratlineOrphanTimeout
  /-- PSTORE_FLASH_OP_DONE (R653). -/
  | pstoreFlashOpDone (ok : Bool)
  /-- ANNOUNCE (R667). -/
  | announce (src : Nat) (msg : List Byte)
  /-- LEAVE (R674). -/
  | leave (src : Nat) (msg : List Byte)
  /-- ANNOUNCE_TIMER (R671). -/
  | announceTimerEv
  /-- GRACE_EXPIRY (R668). -/
  | graceExpiryEv
  /-- ACTIVE_MEMBER_EXPIRY (R674). -/
  | activeMemberExpiry (e : Nat)
  /-- SYSTEM_CONN_EXPIRY (R676). -/
  | systemConnExpiry (e : Nat)
  /-- RMU_LOST_TIMEOUT (R677). -/
  | rmuLostTimeout
  /-- SYS_RST_N_RISE (R86). -/
  | sysRstNRise
  /-- POWER_ON_RESET_RELEASE (R85). -/
  | powerOnResetRelease
  /-- PWR_FAIL_N_RISE (R61). -/
  | pwrFailNRise
  /-- STAY_LOCK_LOST (R375). -/
  | stayLockLost (k : Nat)
  /-- STAY_CTL_REPEAT (R375). -/
  | stayCtlRepeat (k : Nat)
  /-- ETHERNET_LINK_CHANGE (R428). -/
  | ethernetLinkChange (p : Nat) (up : Bool)
  /-- PCIE_LINK_UP (R447). -/
  | pcieLinkUp (rate : Nat) (lanes : PortLanes) (flit : Bool) (cfg : List FnCfg)
  /-- SAIL_INSTRUCTION_DONE (R209). -/
  | sailInstructionDone (t : Nat)
  /-- SHR_PACED_SEND (R416). -/
  | shrPacedSend (c : Nat)
  /-- PLB_GRANT_RECEIVED (R480). -/
  | plbGrantReceived (idle : Bool)
  /-- PLB_IRQ_DEASSERT (R610). -/
  | plbIrqDeassert (n : Nat)
  /-- PFC_PAUSE_EXPIRY (R443). -/
  | pfcPauseExpiry (p prio : Nat)
  /-- SMB1_BLOCK_READ (R630). -/
  | smb1BlockRead
  /-- OLD_EPOCH_WINDOW_EXPIRY (R674). -/
  | oldEpochWindowExpiry
  deriving DecidableEq, Repr, Inhabited

end Sys2Proof
end

