-- ==== Sys2Proof/Machine/Tab.lean ====
section
/-! DEFINITION. Sparse tables in one canonical form. A table lists (index, value) pairs with strictly rising
indices and no pair whose value is the one an unlisted index reads as (the type's default), so that equal
tables are equal data. Memory, register files and every numbered collection of the device are such tables. -/

namespace Sys2Proof.Machine

/-- A sparse table. `Host.Cell` is the pair of a table of bytes. -/
abbrev Tab (α : Type) := List (Nat × α)

/-- The value at an index: the listed one, or the default of the type. -/
def Tab.get {α : Type} [Inhabited α] : Tab α → Nat → α
  | [], _ => default
  | (k, v) :: t, i => if k = i then v else Tab.get t i

/-- Set the value at an index, keeping the canonical form. -/
def Tab.put {α : Type} [Inhabited α] [DecidableEq α] : Tab α → Nat → α → Tab α
  | [], i, v => if v = default then [] else [(i, v)]
  | (k, w) :: t, i, v =>
    if i < k then (if v = default then (k, w) :: t else (i, v) :: (k, w) :: t)
    else if i = k then (if v = default then t else (i, v) :: t)
    else (k, w) :: Tab.put t i v

/-- Change the value at an index. -/
def Tab.mod {α : Type} [Inhabited α] [DecidableEq α] (t : Tab α) (i : Nat) (f : α → α) : Tab α :=
  Tab.put t i (f (Tab.get t i))

/-- Every listed index is at least `lo`, indices rise strictly and no listed value is the default. -/
def Tab.wfFrom {α : Type} [Inhabited α] [DecidableEq α] : Nat → Tab α → Bool
  | _, [] => true
  | lo, (k, v) :: t => decide (lo ≤ k) && decide (v ≠ default) && Tab.wfFrom (k + 1) t

/-- The canonical form. -/
def Tab.wf {α : Type} [Inhabited α] [DecidableEq α] (t : Tab α) : Bool := Tab.wfFrom 0 t

/-- Put the values of a list at consecutive indices. -/
def Tab.putList {α : Type} [Inhabited α] [DecidableEq α] : Tab α → Nat → List α → Tab α
  | t, _, [] => t
  | t, i, v :: vs => Tab.putList (Tab.put t i v) (i + 1) vs

/-- The values at `n` consecutive indices. -/
def Tab.getList {α : Type} [Inhabited α] (t : Tab α) (i : Nat) : Nat → List α
  | 0 => []
  | n + 1 => Tab.get t i :: Tab.getList t (i + 1) n

/-- Drop every listed index that a test picks: those indices read as the default again. -/
def Tab.dropIf {α : Type} (t : Tab α) (p : Nat → α → Bool) : Tab α :=
  t.filter (fun c => !p c.1 c.2)

/-- Rewrite every listed value; values that become the default are no longer listed. -/
def Tab.mapAll {α : Type} [Inhabited α] [DecidableEq α] (t : Tab α) (f : Nat → α → α) : Tab α :=
  (t.map (fun c => (c.1, f c.1 c.2))).filter (fun c => decide (c.2 ≠ default))

/-- The pairs of `n` consecutive indices whose value is not the default. -/
def Tab.gen {α : Type} [Inhabited α] [DecidableEq α] (f : Nat → α) (i : Nat) : Nat → Tab α
  | 0 => []
  | n + 1 => if f i = default then Tab.gen f (i + 1) n else (i, f i) :: Tab.gen f (i + 1) n

/-- Replace the values at `n` consecutive indices from `i` on. -/
def Tab.putRange {α : Type} [Inhabited α] [DecidableEq α] (t : Tab α) (i n : Nat) (f : Nat → α) : Tab α :=
  t.filter (fun c => decide (c.1 < i)) ++ Tab.gen f i n ++ t.filter (fun c => decide (i + n ≤ c.1))

/-- The lowest index below `n`, from `i` on, that a test picks. -/
def firstIdx (p : Nat → Bool) : Nat → Nat → Option Nat
  | _, 0 => none
  | i, n + 1 => if p i then some i else firstIdx p (i + 1) n

end Sys2Proof.Machine
end

