-- ==== Sys2Proof/Machine/Bits.lean ====
section
/-! DEFINITION. Bit fields, byte order and sign extension (R9: little-endian unless a table says otherwise). -/

namespace Sys2Proof.Machine

/-- The little-endian number of a list of bytes. -/
def leNat : List Byte → Nat
  | [] => 0
  | b :: bs => b.toNat + 256 * leNat bs

/-- The big-endian number of a list of bytes. -/
def beNat (bs : List Byte) : Nat := leNat bs.reverse

/-- `n` bytes of a number, little-endian. -/
def leBytes : Nat → Nat → List Byte
  | 0, _ => []
  | n + 1, v => BitVec.ofNat 8 v :: leBytes n (v / 256)

/-- `n` bytes of a number, big-endian. -/
def beBytes (n v : Nat) : List Byte := (leBytes n v).reverse

/-- `n` bytes of a signed number, little-endian, two's complement. -/
def leBytesInt (n : Nat) (v : Int) : List Byte := leBytes n (v % (256 ^ n : Int)).toNat

/-- The bytes at `off`, `n` of them; a byte past the end reads as zero. -/
def slice (bs : List Byte) (off n : Nat) : List Byte :=
  let t := (bs.drop off).take n
  t ++ List.replicate (n - t.length) 0

/-- The little-endian field of `n` bytes at `off`. -/
def fieldN (bs : List Byte) (off n : Nat) : Nat := leNat (slice bs off n)

/-- The big-endian field of `n` bytes at `off`. -/
def fieldBE (bs : List Byte) (off n : Nat) : Nat := beNat (slice bs off n)

/-- The signed reading of the low `8n` bits of a number. -/
def signedN (n v : Nat) : Int :=
  let m := 256 ^ n
  let w := v % m
  if w < m / 2 then (w : Int) else (w : Int) - (m : Int)

/-- The signed little-endian field of `n` bytes at `off`. -/
def fieldS (bs : List Byte) (off n : Nat) : Int := signedN n (fieldN bs off n)

/-- Bits [lo + n - 1 : lo] of a number. -/
def bitsN (v lo n : Nat) : Nat := v / 2 ^ lo % 2 ^ n

/-- Bit `i` of a number. -/
def bitN (v i : Nat) : Bool := v / 2 ^ i % 2 = 1

/-- 1 for true, 0 for false. -/
def b2n (b : Bool) : Nat := if b then 1 else 0

/-- Set or clear bit `i` of a bit vector. -/
def setBit {w : Nat} (v : BitVec w) (i : Nat) (b : Bool) : BitVec w :=
  if b then v ||| BitVec.ofNat w (2 ^ i) else v &&& ~~~(BitVec.ofNat w (2 ^ i))

/-- How many of the bits 0 .. n-1 are set. -/
def popcount {w : Nat} (v : BitVec w) : Nat → Nat
  | 0 => 0
  | n + 1 => popcount v n + b2n (v.getLsbD n)

/-- Replace the bytes of a list at `off`; positions past the end are ignored. -/
def patch (bs : List Byte) (off : Nat) (new : List Byte) : List Byte :=
  bs.take off ++ (new.take (bs.length - off)) ++ bs.drop (off + (new.take (bs.length - off)).length)

/-- Pad with zero bytes up to `n`. -/
def padTo (n : Nat) (bs : List Byte) : List Byte := bs ++ List.replicate (n - bs.length) 0

/-- Round up to a multiple of `k`. -/
def roundUp (k v : Nat) : Nat := (v + (k - 1)) / k * k

/-- All the bits a payload reserves at `off`, `n` bytes, are zero. -/
def zeroAt (bs : List Byte) (off n : Nat) : Bool := fieldN bs off n = 0

/-- An increment that stops at the top of a counter of `w` bits. -/
def satInc (w v : Nat) : Nat := if v + 1 < 2 ^ w then v + 1 else 2 ^ w - 1

/-- a / b, rounded up. -/
def ceilDiv (a b : Nat) : Nat := (a + (b - 1)) / b

/-- An increment that wraps at `2 ^ w`. -/
def wrapInc (w v : Nat) : Nat := (v + 1) % 2 ^ w

end Sys2Proof.Machine
end

