-- ==== Sys2Proof/Machine/BoardState.lean ====
section
/-! DEFINITION. The state of the board-facing blocks: fuses, pins and straps, supplies and rail controllers, clocks, reset
and boot, and the Telltale. Field defaults are the reset values; a value the spec does not give is marked in the log. -/

namespace Sys2Proof.Machine

/-! ### Fuses -/

/-- One die's fused identity (Table 5.6) and fused voltage curve (R50 ff., Table 3.3), index i for 800 + 200 i MHz. -/
structure DieFuse where
  lot : List Byte := [0x41, 0x41, 0x41, 0x41, 0x41, 0x41]
  wafer : Nat := 0
  x : Nat := 0
  y : Nat := 0
  vnom : List Nat := [600, 630, 670, 710, 750, 800, 850]
  deriving DecidableEq, Repr, Inhabited

/-- What the package is fused with (R2, R120, R121). -/
structure Fuses where
  is9612 : Bool := false
  serial : Nat := 1
  m0 : DieFuse := {}
  m1 : DieFuse := {}
  rg : DieFuse := {}
  deriving DecidableEq, Repr, Inhabited

/-! ### Pins -/

/-- Pins and straps (Tables 2.6 - 2.9). Levels are true for high. -/
structure Pins where
  /-- Power-on reset holds (R85). -/
  por : Bool := false
  sysRstN : Bool := true
  perstN : Bool := false
  pwrFailN : Bool := true
  /-- PWR_FAIL_N has been taken as fallen and R61 has not ended it. -/
  pwrFallen : Bool := false
  /-- Strap samples since the last reset event, oldest first; bit layout of STRAPS [13:0] (Table 5.7). -/
  samples : List (BitVec 14) := []
  straps : BitVec 14 := 0
  /-- Straps whose samples disagreed, bit i = strap i of Table 2.8. -/
  disagree : BitVec 6 := 0
  /-- Every output and bidirectional pin is high impedance: R30, and until cold reset releases (Table 4.6). From then on each output is
  driven once its function drives it (R33, `pinDriven`). -/
  hiZ : Bool := false
  gpioDir : Byte := 0
  gpioOut : Byte := 0
  /-- THERM_TRIP_N driven low (R35). -/
  thermTrip : Bool := false
  nvmeRefclk : Bool := true
  /-- NVME_PERST_N[1:0], bit n high when released. -/
  nvmePerstN : BitVec 2 := 0
  /-- The divider of the PCLK the device generates on PLB_CLKO: 2,400 MHz / n; 0 while stopped or not driven. -/
  plbClkoDiv : Nat := 48
  deriving DecidableEq, Repr, Inhabited

/-! ### Supplies -/

/-- RAIL_STATE of Table 3.6. -/
inductive RailState where
  | steady | lowerF | slew | settle | raiseF | held
  deriving DecidableEq, Repr, Inhabited

/-- One AVSBus frame sent, by bus (Table 3.4). -/
inductive AvsFrame where
  | readVoltage
  | writeRate
  | writeVoltage (mv : Nat)
  | readStatus
  | readCurrent
  | readTemperature
  deriving DecidableEq, Repr, Inhabited

/-- One core rail with its controller, loop and counters (Tables 3.6, 3.7). Frequencies in MHz, voltages in mV. -/
structure Rail where
  f : Nat := 800
  v : Nat := 750
  ofs : Int := 0
  st : RailState := .steady
  /-- The transition in progress: fd and Vt. -/
  fd : Nat := 800
  vt : Nat := 750
  /-- The Voltage write of the slew has been repeated. -/
  repeated : Bool := false
  /-- The pending request. -/
  pend : Option (Nat × Nat) := none
  /-- The desired point last formed. -/
  want : Nat × Nat := (800, 750)
  /-- The frequency YCLK switches to, from the switch's start to its end. -/
  switching : Option Nat := none
  /-- The frequency the power limiter allows this die. -/
  limF : Nat := 2000
  /-- `limF` comes from a power failure and the climb that follows it (R60, R61), not from the cap. -/
  fallLim : Bool := false
  /-- Part of a transition fell into the current loop period (R69). -/
  touched : Bool := false
  /-- R62: the regulator's voltage has been read and its transition rate written since the reset. -/
  rateSet : Bool := false
  /-- The frame last sent on this bus, and its repeats so far (R66). -/
  lastFrame : Option AvsFrame := none
  repeats : Nat := 0
  /-- The last VRM current, mA, and temperature, 0.1 degree. -/
  milliamp : Nat := 0
  temp : Nat := 0
  vminPin : Nat := 0
  vmaxPin : Nat := 0
  deriving DecidableEq, Repr, Inhabited

/-- The power policy record (Table 3.5). -/
structure Policy where
  vmin : Nat := 600
  vmax : Nat := 900
  pcap : Nat := 1200
  noncore : Nat := 300
  freq0 : Nat := 2000
  freq1 : Nat := 2000
  avsEn : Bool := true
  deriving DecidableEq, Repr, Inhabited

/-- The supplies. -/
structure Power where
  r0 : Rail := {}
  r1 : Rail := {}
  policy : Policy := {}
  pwrW : Nat := 0
  capPin : Nat := 0
  floorPin : Nat := 0
  deriving DecidableEq, Repr, Inhabited

/-! ### Device state, reset and boot -/

/-- The device state (Tables 4.7 and 5.7). COLD is never reported. -/
inductive DevMode where
  | cold | boot | ready | degraded | quarantine | safe
  deriving DecidableEq, Repr, Inhabited

/-- Clocks, reset and boot. -/
structure Dev where
  mode : DevMode := .boot
  /-- BOOT_STAGE [6:0] of Table 4.4; 0x0A is DONE. -/
  stage : Nat := 1
  fail : Bool := false
  fault : Nat := 0
  /-- FAULT_ITEM of READINESS. -/
  item : Nat := 0xFF
  /-- RESET_CAUSE: 0 power-on, 1 SYS_RST_N, 2 warm. -/
  cause : Nat := 0
  /-- Power-on reset has been asserted since the last cold reset release. -/
  porSince : Bool := false
  /-- R90: a warm reset has begun and READY has not been reached. -/
  warm : Bool := false
  /-- R86: cold reset has not released because a PLL has not locked. -/
  pllWait : Bool := false
  /-- R120: fused identity readable, running firmware identity readable. -/
  fuseRead : Bool := false
  fwShown : Bool := false
  /-- Running firmware: slot (0 A, 1 B) and version major, minor, patch. -/
  slot : Nat := 0
  fwMajor : Nat := 3
  fwMinor : Nat := 2
  fwPatch : Nat := 0
  fenced : BitVec 128 := 0
  heartbeat : W32 := 0
  /-- References lost, in the order XTAL, PCIe, SERDES, PLB; domains whose clock is lost, in the order of Table 4.1. -/
  lostRefs : BitVec 4 := 0
  lostPlls : BitVec 14 := 0
  /-- R33, Table 23.4: clocks gated by SAFE raise no clock loss. -/
  gated : Bool := false
  deriving DecidableEq, Repr, Inhabited

/-! ### Telltale -/

/-- Severities (Table 23.2). -/
inductive Sev where
  | info | corrected | degraded | fatal
  deriving DecidableEq, Repr, Inhabited

/-- The reaction in progress. -/
inductive Reaction where
  | none | degraded | fatal
  deriving DecidableEq, Repr, Inhabited

/-- The fault collector. -/
structure Telltale where
  sticky : BitVec 448 := 0
  wiring : BitVec 448 := 0
  /-- Severities that TT_SEVERITY set away from Table 23.1; an unlisted source has its default. -/
  sevs : Tab (Option Sev) := []
  /-- Sources whose pair read equal in the last FCLK cycle, and those that read asserted in it. -/
  equalPrev : BitVec 448 := 0
  held : BitVec 448 := 0
  reaction : Reaction := .none
  /-- The reaction request handed to Masthead and not yet acknowledged. -/
  request : Bool := false
  /-- The sticky map that the last acknowledgement returned. -/
  ackMap : BitVec 448 := 0
  /-- Direct-path sources the always-on domain has latched (R709). -/
  latched : BitVec 448 := 0
  /-- BAR0 0x200C: IRQ_SEV, IRQ_EN, VEC. -/
  irqSev : Nat := 2
  irqEn : Bool := false
  irqVec : Nat := 0
  deriving DecidableEq, Repr, Inhabited

/-! ### What the device sends that no other state holds -/

/-- A line the device prints by itself on the UART (R97, R617). -/
inductive Line where
  | boot (stage fault tenths : Nat) (item : Option Nat)
  | safe (info corr deg fat : Nat) (sticky : BitVec 448)
  | reply (cpl : List Byte)
  | error (code : Nat)
  deriving DecidableEq, Repr, Inhabited

end Sys2Proof.Machine
end

