-- ==== Sys2Proof/Machine/LineText.lean ====
section
/-! DEFINITION. The characters of the lines that the device prints on the UART (spec/04_clocks_reset_bringup.md "Boot stages", R97;
spec/06_mailbox_transport.md "UART console"; spec/23_telltale.md, R617). -/

namespace Sys2Proof.Machine

/-- The bytes of ASCII characters. -/
def ascii (cs : List Char) : List Byte := cs.map (fun c => BitVec.ofNat 8 c.toNat)

/-- One hexadecimal digit, upper case. -/
def hexChar (n : Nat) : Byte := BitVec.ofNat 8 (if n % 16 < 10 then 0x30 + n % 16 else 0x37 + n % 16)

/-- n hexadecimal digits of a number, upper case, the most significant first. -/
def hexText : Nat → Nat → List Byte
  | 0, _ => []
  | n + 1, v => hexText n (v / 16) ++ [hexChar v]

/-- The two digits of each byte, in byte order (the case of the digits of an `R ` line is the model's; log entry 76). -/
def hexPairs (bs : List Byte) : List Byte := bs.flatMap (fun b => hexText 2 b.toNat)

/-- The decimal digits of a number, with `fuel` for at least as many digits as it has. -/
def decText : Nat → Nat → List Byte
  | 0, _ => []
  | fuel + 1, v => (if v < 10 then [] else decText fuel (v / 10)) ++ [BitVec.ofNat 8 (0x30 + v % 10)]

/-- A number in decimal. -/
def decimal (v : Nat) : List Byte := decText (v + 1) v

/-- `0x` and two digits. -/
def hexField (v : Nat) : List Byte := ascii ['0', 'x'] ++ hexText 2 v

/-- The text of a line, without its end-of-line characters (CR, LF or CR LF; log entry 76). -/
def lineText : Line → List Byte
  | .boot stage fault tenths item =>
    ascii ['N', ' ', 'K', 'V', '9', ' ', 'B', 'O', 'O', 'T', ' ', 's', 't', '='] ++ hexField stage ++
    ascii [' ', 'f', 'l', 't', '='] ++ hexField fault ++ ascii [' ', 't', '='] ++ decimal (tenths / 10) ++ ascii ['.'] ++
    decimal (tenths % 10) ++ ascii ['m', 's'] ++
    (match item with
      | some k => ascii [' ', 'i', 't', 'e', 'm', '='] ++ hexField k
      | none => [])
  | .safe info corr deg fat sticky =>
    ascii ['N', ' ', 'K', 'V', '9', ' ', 'S', 'A', 'F', 'E', ' ', 'c', 'n', 't', '='] ++ decimal info ++ ascii ['/'] ++ decimal corr ++
    ascii ['/'] ++ decimal deg ++ ascii ['/'] ++ decimal fat ++ ascii [' ', 's', 't', '='] ++
    (((List.range 14).map (fun k => hexText 8 (bitsN sticky.toNat (32 * k) 32))).intersperse (ascii [' '])).flatten
  | .reply cpl => ascii ['R', ' '] ++ hexPairs cpl
  | .error code => ascii ['E', ' '] ++ hexText 2 code

end Sys2Proof.Machine
end

