-- ==== Sys2Proof/Config.lean ====
section
/-! DEFINITION. What the spec leaves to an implementation or leaves open: free values and functions with no body. Nothing
in Lean can evaluate them, so a statement holds whatever they are. -/

namespace Sys2Proof.Config

/-- The 30 parity symbols of an RS(544,514) codeword by its message: the spec gives neither field nor generator (log entry 79). -/
opaque rsParity : List (BitVec 10) → Nat → BitVec 10

/-- The n-th free value of a run, for a value the spec leaves open after a step that goes on (log entry 3). -/
opaque freeValue : Nat → BitVec 64

/-- ECDSA P-384 verification of a signature over a digest under a public key (FIPS 186-5; log entry 4). -/
opaque ecdsaVerify (pub digest sig : List Byte) : Bool

/-- Ed25519 verification (RFC 8032; log entry 4). -/
opaque ed25519Verify (pub msg sig : List Byte) : Bool

/-- AES-256-GCM opening: the plaintext when the tag verifies (log entry 4). -/
opaque gcmOpen (key iv aad ciphertext tag : List Byte) : Option (List Byte)

/-- AES-256-GCM sealing: ciphertext and tag (log entry 4). -/
opaque gcmSeal (key iv aad plaintext : List Byte) : List Byte

/-- AES-XTS-256 of a data unit, a 64-byte HBM word or a 4,096-byte logical block, under a key and a tweak (IEEE 1619; log entries 4, 56). -/
opaque xtsEnc (key tweak word : List Byte) : List Byte
opaque xtsDec (key tweak word : List Byte) : List Byte

/-- The media key of a drive: HKDF-SHA-384 of DEVICE_SECRET with its index and label GEN (Table 21.2; log entry 4). -/
opaque mediaKey (secret : List Byte) (drive gen : Nat) : List Byte

/-- A range of staging SRAM that lies in the queues and PRP lists the port keeps for a drive (R464; log entry 66). -/
opaque nvmeQueue (drive addr bytes : Nat) : Bool

/-- The random AES-XTS keys that the security block draws in a boot: 0 the device domain's, 1 the directory's, 2 + d the pool key of
prefix domain d (R545; log entry 4). -/
opaque bootKey (boot n : Nat) : List Byte

/-- What an Ethernet frame of Shroud carries that the spec does not give: the addresses of a port, the MAC address of a peer,
and the remaining fields of its IP header (log entry 31). -/
opaque portMac (port : Nat) : BitVec 48
opaque portAddr (port : Nat) : BitVec 128
opaque peerMac (port : Nat) (addr : List Byte) : BitVec 48
opaque ipIdent (n : Nat) : BitVec 16
opaque ipFlow (n : Nat) : BitVec 20

/-- The 802.1Q-tagged frame of a PTP Delay_Req on a port, by its sequence number (log entry 31). -/
opaque delayReqFrame (port seq : Nat) : List Byte

/-- The attestation key's public part and its signature over a digest, from DEVICE_SECRET (Table 21.2; log entry 4). -/
opaque attestPub (secret : List Byte) : List Byte
opaque attestSign (secret digest : List Byte) : List Byte

/-- The P-384 public key a boot draws, and the key of the system connection between devices a and b: HKDF-SHA-384 of the ECDH
secret of the two (Peer messages; log entry 4). -/
opaque ecdhPub (boot : Nat) : List Byte
opaque sysKey (boot : Nat) (peerPub : List Byte) (a b : Nat) : List Byte

/-- SHA-384 of the boot ROM (MR0), and the bytes that stand for the latched straps in MR1 (log entry 4). -/
opaque bootRomHash : List Byte
opaque strapBytes : Nat → List Byte

/-- The firmware image that the package is shipped with in slot A (log entry 16). -/
opaque factoryImage : List Byte

/-- The servo's correction of the trim in ppb for an offset and an integral (kp and ki are not given; log entry 6). -/
opaque servoCorrection : Int → Int → Int

/-- What a chunk of a bitstream (SOURCE 1 H.264, 2 H.265, 3 AV1) holds: the cropped picture size of a sequence header, whether
it is an IDR access unit or a key frame with a sequence header, and the picture that a history of chunks decodes to, in NV12
(the standards of Table 20.6; log entry 13). -/
opaque streamDims (source : Nat) (chunk : List Byte) : Option (Nat × Nat)
opaque streamIdr (source : Nat) (chunk : List Byte) : Bool
opaque decodePicture (source : Nat) (history : List (List Byte)) : Option (List Byte)

end Sys2Proof.Config
end

