-- ==== Sys2Proof/Machine/BowState.lean ====
section
/-! DEFINITION. The state of the Bowsprit, the bridge to the Pellen Local Bus (spec/19_bowsprit.md). -/

namespace Sys2Proof.Machine

/-- A window as PLB_WINDOW wrote it (Table 19.5). WIDTH is 0 for 8, 1 for 16 and 2 for 32 bits. -/
structure PlbWin where
  enable : Bool := false
  burstOk : Bool := false
  base : Nat := 0
  size : Nat := 4096
  width : Nat := 2
  lcl : Nat := 0
  deriving DecidableEq, Repr, Inhabited

/-- The route of an interrupt line: TARGET 0 Masthead, 1 host, 2 INT_N. -/
structure PlbRoute where
  target : Nat := 0
  vec : Nat := 0
  level : Bool := true
  deriving DecidableEq, Repr, Inhabited

/-- The arbiter (Table 19.4). Requester 4 is the Bowsprit itself. -/
inductive ArbSt where
  | idle
  | granted (n : Nat)
  | ending (n : Nat)
  deriving DecidableEq, Repr, Inhabited

/-- States of a delayed-read entry (Table 19.7). -/
inductive DelaySt where
  | free | pending | complete | failed
  deriving DecidableEq, Repr, Inhabited

/-- A delayed-read entry: what it latched, the writes posted before it, and the words fetched. -/
structure DelayedRead where
  st : DelaySt := .free
  addr : Nat := 0
  be : Nat := 0
  burst : Bool := false
  owner : Option Nat := none
  win : Nat := 0
  after : Nat := 0
  words : List Nat := []
  deriving DecidableEq, Repr, Inhabited

/-- A posted write: local addresses and bytes. -/
structure Posted where
  serial : Nat
  bytes : List (Nat × Byte)
  deriving DecidableEq, Repr, Inhabited

/-- One outbound bus cycle: its address, BE_N, and per beat the byte addresses it carries by lane and the word driven. -/
structure PlbCycle where
  addr : Nat
  be : Nat
  burst : Bool := false
  /-- Per beat: (lane, offset of the byte in the access). -/
  beats : List (List (Nat × Nat))
  words : List Nat := []
  deriving DecidableEq, Repr, Inhabited

/-- A queued outbound access. -/
structure PlbAcc where
  ref : Option (Nat × Nat) := none
  read : Bool := true
  n : Nat
  cycles : List PlbCycle
  /-- Bytes read so far, by offset. -/
  got : Tab Byte := []
  deriving DecidableEq, Repr, Inhabited

/-- The Bowsprit as master. -/
inductive MasterSt where
  | idle | requesting | active | waiting
  deriving DecidableEq, Repr, Inhabited

/-- The outbound window 0 and the Masthead window of Table 19.5. -/
def plbOut0 : PlbWin := { enable := true, burstOk := true, size := 0x10000000 }
def plbIn0 (devInTray : Bool) : PlbWin :=
  { enable := true, burstOk := true, base := 0xFFF00000 + (if devInTray then 0x10000 else 0) }

/-- The Bowsprit. -/
structure Bow where
  outw : Tab PlbWin := [(0, plbOut0)]
  inw : Tab PlbWin := [(0, plbIn0 false)]
  routes : Tab PlbRoute := []
  fixedPrio : Bool := false
  pclkDiv : Nat := 48
  maxTenure : Nat := 256
  arb : ArbSt := .idle
  tenure : Nat := 0
  /-- The requester granted last. -/
  lastGrant : Nat := 3
  /-- Interrupt lines taken as low. -/
  low : BitVec 8 := 0
  dreads : Tab DelayedRead := []
  wbuf : List Posted := []
  nextPost : Nat := 0
  accs : List PlbAcc := []
  mst : MasterSt := .idle
  /-- RETRY answers to the current cycle. -/
  retries : Nat := 0
  /-- PLB_REQ_N[0] is driven low. -/
  reqLow : Bool := false
  deriving DecidableEq, Repr, Inhabited

end Sys2Proof.Machine
end

