-- ==== Sys2Proof/Machine/CompState.lean ====
section
/-! DEFINITION. The state of the compute dies: tiles, Sails, Sheets, Cleats and Halyards (spec/08_tiles_sails.md,
spec/09_instruction_set.md, spec/10_sheets_cleats.md), and of the memories with their error state (spec/13_memory.md). -/

namespace Sys2Proof.Machine

/-! ### Memory -/

/-- What the check bits of a word hold: a clean code, an error the code corrects, an error it does not, or the poison pattern. -/
inductive Ecc where
  | clean | correctable | uncorrectable | poisoned
  deriving DecidableEq, Repr, Inhabited

/-- Page use (page attributes of the HBM controllers). -/
inductive PageUse where
  | free
  /-- In a region, by its index. -/
  | region (r : Nat)
  /-- A Furl pool page of a prefix domain. -/
  | pool (pdom : Nat)
  /-- The private KV area of a context, by its index. -/
  | priv (ctx : Nat)
  /-- Snapshot data Reef holds or parks. -/
  | reef
  | retired
  deriving DecidableEq, Repr, Inhabited

/-- A key of the HBM controllers (R305, R540): none, a tenant domain's, or one that the security block drew in a boot. -/
inductive PageKey where
  | none
  | tenant (key : List Byte)
  | drawn (boot n : Nat)
  deriving DecidableEq, Repr, Inhabited

/-- The bytes of a key. -/
def PageKey.bytes : PageKey → List Byte
  | .none => []
  | .tenant k => k
  | .drawn b n => Config.bootKey b n

/-- One 2 MiB HBM page: its use and the tenant domain it last served. -/
structure PageAttr where
  use : PageUse := .free
  tenant : Option Nat := none
  /-- The AES-XTS key under which its words stand (R305, R540). -/
  key : PageKey := .none
  /-- Retired until the next cold reset only (R311). -/
  unrecorded : Bool := false
  deriving DecidableEq, Repr, Inhabited

/-- The memories of Table 13.1. -/
structure Memory where
  /-- Every byte of the local map: HBM, Mast SRAM, tile memory, staging SRAM. An unlisted byte reads 0 (log entry 9). -/
  bytes : Tab Byte := []
  /-- Check-bit state: of an HBM word of 64 bytes, or of an SRAM codeword of 8 bytes, by its first address. -/
  ecc : Tab Ecc := []
  /-- Words whose corrected or poisoned write-back is queued (R307 - R309), by address. -/
  writeBack : List Nat := []
  pages : Tab PageAttr := []
  /-- The retired pages as last handed to the persistent store. -/
  listed : List Nat := []
  deriving DecidableEq, Repr, Inhabited

/-! ### Sheets and Cleats -/

/-- Sheet states (Table 10.5). -/
inductive SheetSt where
  | unconfigured | opened | held
  deriving DecidableEq, Repr, Inhabited

/-- One Sheet: its entry (Table 10.2), the four positions and the Halyard's reservation, and its counter. -/
structure Sheet where
  st : SheetSt := .unconfigured
  base : Nat := 0
  depth : Nat := 0
  fill : Nat := 0
  dir : Nat := 0
  fillAct : Nat := 0
  fillCleat : Nat := 0
  fillGlobal : Bool := false
  write : Nat := 0
  read : Nat := 0
  mark : Nat := 0
  release : Nat := 0
  resv : Nat := 0
  ce : Nat := 0
  /-- The Halyard the Sheet is bound to for the dispatch (R219). -/
  bound : Option Nat := none
  deriving DecidableEq, Repr, Inhabited

/-- Who waits on a Cleat. -/
inductive Waiter where
  | tile (t : Nat)
  | halyard (h : Nat)
  deriving DecidableEq, Repr, Inhabited

/-- A registered wait; once its threshold is reached it stays released (R259). -/
structure CleatWait where
  who : Waiter
  thr : Nat
  released : Bool := false
  deriving DecidableEq, Repr, Inhabited

/-- Who owns a global Cleat. -/
inductive CleatOwner where
  | none
  | dispatch (n : Nat)
  | furl (entry : Nat)
  | conn (c : Nat)
  | frame (c : Nat)
  | reef
  deriving DecidableEq, Repr, Inhabited

/-- One Cleat. FREE is `active = false`; OVERFLOWED is `ovf`. -/
structure Cleat where
  active : Bool := false
  ovf : Bool := false
  count : Nat := 0
  /-- ACCESS of a tile-local Cleat: full. Access to a global Cleat is kept by the tile. -/
  full : Bool := false
  owner : CleatOwner := .none
  waits : List CleatWait := []
  deriving DecidableEq, Repr, Inhabited

/-- A signal or CLSET on its way to a Cleat: `idx` is 32 t + i for a tile-local one. `src` is the tile, PC and dispatch of a CLSIG. -/
structure CleatMsg where
  glob : Bool
  idx : Nat
  set : Bool := false
  v : Nat
  src : Option (Nat × Nat × Option Nat) := none
  deriving DecidableEq, Repr, Inhabited

/-! ### Tiles -/

/-- Tile states (Table 8.9). -/
inductive TileSt where
  | idle | loaded | running | faulted | fenced
  deriving DecidableEq, Repr, Inhabited

/-- An operand of a Sail instruction, or the target of a drain: a tile-memory offset or a Sheet. -/
inductive SailSrc where
  | mem (off : Nat)
  | sheet (n : Nat)
  deriving DecidableEq, Repr, Inhabited

/-- Sail instructions (Table 9.11). -/
inductive SailKind where
  /-- fmt 1 VF8, 2 BF16, 3 VF4. -/
  | smma (acc fmt : Nat) (a b : SailSrc)
  | sscl (src : SailSrc)
  | szero (acc : Nat)
  | sdrain (acc : Nat) (bf zero : Bool) (tgt : SailSrc)
  deriving DecidableEq, Repr, Inhabited

/-- One queued or executing Sail instruction: the words popped so far for each Sheet operand, and how far it has come. -/
structure SailOp where
  kind : SailKind
  pc : Nat
  gotA : List Byte := []
  gotB : List Byte := []
  /-- It has started: it takes operand words or has executed. -/
  begun : Bool := false
  /-- Its effect is in the accumulators; the slot is not yet free. -/
  executed : Bool := false
  deriving DecidableEq, Repr, Inhabited

/-- The drain path: the SDRAIN on it and the words pushed so far. -/
structure Drain where
  acc : Nat
  bf : Bool
  zero : Bool
  tgt : SailSrc
  pushed : Nat := 0
  deriving DecidableEq, Repr, Inhabited

/-- One tile. -/
structure Tile where
  st : TileSt := .idle
  fault : Nat := 0
  faultPc : Nat := 0
  pc : Nat := 0
  g : Tab W64 := []
  p : Tab W64 := []
  /-- Lane i of vr is at 64 r + i. -/
  v : Tab W32 := []
  /-- Element (i, j) of aq is at 8192 q + 128 i + j. -/
  acc : Tab W32 := []
  sa : Tab W32 := []
  sb : Tab W32 := []
  imem : Tab W64 := []
  args : Tab W64 := []
  satf : Bool := false
  tmemCe : Nat := 0
  wdog : Nat := 24
  queue : List SailOp := []
  drain : Option Drain := none
  /-- The scalar unit's last attempt could not issue. -/
  stalled : Bool := false
  /-- END has been reached; the tile waits for its Sail. -/
  atEnd : Bool := false
  /-- Access to global Cleats for the dispatch: full or wait-only. -/
  gcl : Tab (Option Bool) := []
  /-- The dispatch it serves, and the tenant domain it last served (R202). -/
  disp : Option Nat := none
  lastTenant : Option Nat := none
  deriving DecidableEq, Repr, Inhabited

/-! ### Halyards -/

/-- Halyard states (Table 8.7). -/
inductive HalSt where
  | idle | running | waiting | draining | fault
  deriving DecidableEq, Repr, Inhabited

/-- A descriptor in flight: the address offset its loops give it, and how far it has come. -/
structure Flight where
  /-- Its number among the Halyard's descriptors, by which Shroud's answers find it. -/
  seq : Nat := 0
  /-- Its address in Mast SRAM. -/
  at_ : Nat := 0
  desc : List Byte
  off : Int := 0
  total : Nat := 0
  /-- Words whose read has been issued, whose data has moved on, and whose write is visible. -/
  asked : Nat := 0
  moved : Nat := 0
  acked : Nat := 0
  /-- What other devices have answered: word, bytes, fault code of Table 16.7 (0 for OK). -/
  got : List (Nat × List Byte × Nat) := []
  /-- Its writes are all visible; or it ended without effect at a held Sheet. -/
  done : Bool := false
  void : Bool := false
  deriving DecidableEq, Repr, Inhabited

/-- One entry of a dispatch's region table: rack global base, length, read-only. -/
structure Region where
  lo : Nat
  len : Nat
  ro : Bool
  deriving DecidableEq, Repr, Inhabited

/-- One Halyard. -/
structure Halyard where
  st : HalSt := .idle
  code : Nat := 0
  faultAddr : Nat := 0
  prog : Nat := 0
  len : Nat := 0
  idx : Nat := 0
  /-- LOOPs in progress: descriptor index and iteration m, innermost first. -/
  loops : List (Nat × Nat) := []
  flights : List Flight := []
  /-- The next descriptor's number. -/
  nextSeq : Nat := 1
  /-- A descriptor ended without effect: no later one signals (R218). -/
  mute : Bool := false
  disp : Option Nat := none
  regions : List Region := []
  /-- Bound connections: device and connection. -/
  conns : List (Nat × Nat) := []
  deriving DecidableEq, Repr, Inhabited

/-- The compute dies. Sheet n of tile t and tile-local Cleat n of tile t are at 32 t + n. -/
structure Comp where
  tiles : Tab Tile := []
  hals : Tab Halyard := []
  sheets : Tab Sheet := []
  lcl : Tab Cleat := []
  gcl : Tab Cleat := []
  /-- Signals and CLSETs on their way, oldest first. -/
  sigs : List CleatMsg := []
  deriving DecidableEq, Repr, Inhabited

end Sys2Proof.Machine
end

