-- ==== Sys2Proof/Machine/FrameState.lean ====
section
/-! DEFINITION. The state of the Frame engine (spec/20_frame_engine.md). -/

namespace Sys2Proof.Machine

/-- Slot states (Table 20.7). -/
inductive SlotSt where
  | free | queued | begun | ended
  deriving DecidableEq, Repr, Inhabited

/-- One frame slot of a context: its record (Table 20.5) and what the frame still needs. -/
structure FrameSlot where
  st : SlotSt := .free
  gen : Nat := 0
  seq : Nat := 0
  /-- FSTAT: [0] TRUNCATED, [1] OVERLONG, [2] ERROR, [3] CANCELLED. -/
  fstat : Nat := 0
  width : Nat := 0
  height : Nat := 0
  captureNs : Nat := 0
  encBytes : Nat := 0
  encQp : Nat := 0
  encType : Nat := 0
  srcLocal : Bool := false
  srcAddr : Nat := 0
  len : Nat := 0
  /-- The FRAME_SUBMIT with WAIT that completes at the frame's end. -/
  wait : Option (Nat × Nat) := none
  /-- The encoder has not yet taken the ended frame. -/
  encPend : Bool := false
  /-- TARGET_KBPS in force as the frame ended: a change takes effect at the next frame. -/
  encKbps : Nat := 0
  deriving DecidableEq, Repr, Inhabited

/-- A region of interest. -/
structure Roi where
  x : Nat := 0
  y : Nat := 0
  w : Nat := 0
  h : Nat := 0
  quality : Int := 0
  deriving DecidableEq, Repr, Inhabited

/-- A frame context (Tables 20.2, 20.3, 20.8). -/
structure FrameCtx where
  gen : Nat := 0
  live : Bool := false
  fn : Nat := 0
  tenant : Nat := 0
  source : Nat := 0
  pixfmt : Nat := 0
  follow : Bool := false
  fillRepeat : Bool := false
  width : Nat := 0
  height : Nat := 0
  frameBytes : Nat := 0
  fillRgb : Nat := 0
  region : Nat := 0
  patch : Nat := 4
  /-- Current dimensions of a decoder stream. -/
  curW : Nat := 0
  curH : Nat := 0
  seq : Nat := 0
  cleat : Nat := 0
  slots : Tab FrameSlot := []
  /-- Pixel bytes of the previous completed frame (raw), chunks since the last random-access picture (decoder). -/
  prev : Option (List Byte) := none
  /-- The whole lines of `prev` that captures gave; FILL_RGB completed the later ones. -/
  prevLines : Nat := 0
  history : List (List Byte) := []
  decodeFailed : Bool := false
  kbps : Nat := 0
  rois : Tab Roi := []
  qp : Nat := 30
  /-- In millionths of a bit, so that budgets are exact (R529). -/
  fullness : Nat := 0
  ringWrite : Nat := 0
  /-- CAPTURE_NS of the frame encoded last; frames since the last IDR; the next picture is an IDR. -/
  lastCapture : Option Nat := none
  sinceIdr : Nat := 0
  forceIdr : Bool := true
  frames : Nat := 0
  truncated : Nat := 0
  overlong : Nat := 0
  errors : Nat := 0
  cancelled : Nat := 0
  encFrames : Nat := 0
  encDrop : Nat := 0
  rcPinned : Nat := 0
  stray : Nat := 0
  encTotal : Nat := 0
  deriving DecidableEq, Repr, Inhabited

/-- The Frame engine: 256 contexts, slot n of a context at n, and the context taken last in rotation. -/
structure FrameEng where
  ctxs : Tab FrameCtx := []
  rot : Nat := 255
  deriving DecidableEq, Repr, Inhabited

end Sys2Proof.Machine
end

