-- ==== Sys2Proof/Machine/HostState.lean ====
section
/-! DEFINITION. The state of the host control page (Tables 5.6 - 5.11), of the functions (Table 5.5) and of the Masthead
mailboxes (Tables 6.1 - 6.6). -/

namespace Sys2Proof.Machine

/-- Function state (Table 5.5), in the order of its encoding. -/
inductive FnState where
  | stopped | starting | running | stopping
  deriving DecidableEq, Repr, Inhabited

/-- What one PCIe function has of its own in BAR0: ACC_STATUS, DEV_EVT, DEV_INT, the seconds shadow, BAR2's base. -/
structure FnView where
  accUnmapped : Bool := false
  accSize : Bool := false
  liveWr : Bool := false
  stateChg : Bool := false
  funcChg : Bool := false
  intEn : Bool := false
  intVec : Nat := 0
  secShadow : Nat := 0
  deriving DecidableEq, Repr, Inhabited

/-- A doorbell page (Table 5.11). MB_CTL and SIZES are held as written, so that START can check their reserved bits (R128). -/
structure Page where
  ctl : W32 := 0
  sizes : W32 := 0
  sqBase : W64 := 0
  cqBase : W64 := 0
  st : FnState := .stopped
  startInval : Bool := false
  sqErr : Bool := false
  cqFull : Bool := false
  ringFault : Bool := false
  sqTail : Nat := 0
  sqHead : Nat := 0
  cqTail : Nat := 0
  cqHead : Nat := 0
  /-- A write of ENABLE held during STARTING or STOPPING (R127). -/
  heldEnable : Option Bool := none
  phase : Bool := true
  deriving DecidableEq, Repr, Inhabited

/-- One client's use of a mailbox (Sessions). -/
structure Session where
  id : Nat
  cls : Cls
  tenant : Option Nat
  timeoutMs : Nat
  deriving DecidableEq, Repr, Inhabited

/-- A completion entry (Table 6.3); `result` is the whole result. -/
structure Cpl where
  tag : Nat
  op : Nat
  status : Nat
  phase : Bool
  sqIdx : Nat
  seq : Nat
  rlen : Nat
  detail : Nat
  result : List Byte
  deriving DecidableEq, Repr, Inhabited

/-- How far an outstanding command has come. -/
inductive Progress where
  /-- Fetched and not started. -/
  | queued
  /-- Started; a block still works on it. -/
  | running
  /-- The result is known; the completion waits to be posted. -/
  | known (c : Cpl)
  deriving DecidableEq, Repr, Inhabited

/-- An outstanding command. The list that holds them is in fetch order over all mailboxes (R147). -/
structure Outst where
  cmd : Cmd
  seq : Nat
  /-- The model's own number of the command, which no other command has. -/
  id : Nat := 0
  prog : Progress
  /-- Its TAG was in use at its fetch (R136). -/
  dup : Bool := false
  /-- A SUBMIT that has been accepted: it holds its context and frame no longer (R147). -/
  accepted : Bool := false
  /-- When it was fetched, and whether Furl was RUNNING then (R174, R177). -/
  at_ : Nat := 0
  furlUp : Bool := false
  deriving DecidableEq, Repr, Inhabited

/-- The known completion of an outstanding command. -/
def Outst.known? (o : Outst) : Option Cpl :=
  match o.prog with
  | .known c => some c
  | _ => none

/-- One mailbox's session, sequence and statistics (STATS_READ block 0). -/
structure Mbx where
  session : Option Session := none
  nextSeq : Nat := 0
  fetched : Nat := 0
  completed : Nat := 0
  lateCpl : Nat := 0
  cplDiscard : Nat := 0
  timedOut : Nat := 0
  cqFullEv : Nat := 0
  deriving DecidableEq, Repr, Inhabited

/-- A register-buffer mailbox: the inline one (Table 5.10) or the PLB one (Table 6.6). -/
structure RegMbx where
  cmd : Tab Byte := []
  cpl : Tab Byte := []
  busy : Bool := false
  done : Bool := false
  status : Nat := 0
  clen : Nat := 0
  deriving DecidableEq, Repr, Inhabited

/-- Everything of BAR0 and of the mailboxes. -/
structure HostIf where
  views : Tab FnView := []
  pages : Tab Page := []
  /-- Functions 0x00 - 0x0A. -/
  fns : Tab FnState := []
  mbx : Tab Mbx := []
  cmds : List Outst := []
  /-- Work that goes on under a retired SEQ (R150): the command's mailbox and number, and its SEQ. -/
  retired : List ((Nat × Nat) × Nat) := []
  nextId : Nat := 0
  nextSession : Nat := 1
  inl : RegMbx := {}
  plb : RegMbx := {}
  /-- Tenant domain bound to VF m (R154). -/
  bound : Tab (Option Nat) := []
  deriving DecidableEq, Repr, Inhabited

end Sys2Proof.Machine
end

