-- ==== Sys2Proof/Machine/MgmtState.lean ====
section
/-! DEFINITION. The state of the management buses, the console, the test port, the time unit, the Ratline and the persistent
store (spec/24_management.md). -/

namespace Sys2Proof.Machine

/-- SMB0: the target toward the tray controller, with the MCTP endpoint SMB0 and SMB1 share. -/
structure Smb0 where
  eid : Option Nat := none
  /-- The message being assembled. -/
  partialMsg : List Byte := []
  /-- A message is being assembled, its packet sequence number and message tag. -/
  assembling : Option (Nat × Nat) := none
  /-- Response packets waiting for a block read on SMB0, and on SMB1. -/
  waiting : List McPacket := []
  waiting1 : List McPacket := []
  /-- Packets discarded for PEC or length (R620, R705). -/
  discarded : Nat := 0
  resets : Nat := 0
  /-- The Alert Response Address has been answered with the target's address. -/
  answered : Nat := 0
  deriving DecidableEq, Repr, Inhabited

/-- One polled address of SMB1. -/
structure Smb1Dev where
  listed : Bool := false
  pec : Bool := false
  word : Nat := 0
  /-- 0 OK, 1 NAK, 2 BUSLOST, 3 not in the poll list (Table 24.2). -/
  status : Nat := 3
  readAt : Nat := 0
  naks : Nat := 0
  absent : Bool := false
  deriving DecidableEq, Repr, Inhabited

/-- SMB1: the controller toward tray devices. -/
structure Smb1 where
  devs : Tab Smb1Dev := []
  arbLost : Nat := 0
  /-- The transfer that lost arbitration: its address and the tries so far. -/
  retry : Option (Nat × Nat) := none
  deriving DecidableEq, Repr, Inhabited

/-- The UART console. -/
structure Uart where
  baud : Nat := 115200
  /-- A rate that applies after the next R line (CONSOLE_CFG). -/
  nextBaud : Option Nat := none
  buf : List Byte := []
  /-- The last accepted character was a CR that ended a line. -/
  lastCr : Bool := false
  framing : Nat := 0
  breaks : Nat := 0
  /-- Input characters discarded (BOOT, SAFE). -/
  discarded : Nat := 0
  deriving DecidableEq, Repr, Inhabited

/-- The register the TAP's instruction selects (Table 24.3). -/
inductive JtagReg where
  | idcode | boundary | bypass | dbgStatus | privateDebug
  deriving DecidableEq, Repr, Inhabited

/-- The test access port. -/
structure Jtag where
  ir : Nat := 1
  reg : JtagReg := .idcode
  deriving DecidableEq, Repr, Inhabited

/-- The time unit and its discipline. `frac` counts 10^-9 ns. -/
structure TimeUnit where
  sec : Nat := 0
  ns : Nat := 0
  frac : Nat := 0
  mono : Nat := 0
  monoFrac : Nat := 0
  setSecLo : Nat := 0
  setSecHi : Nat := 0
  /-- A committed pair and a step that apply at the next TCLK edge. -/
  setPend : Option (Nat × Nat) := none
  stepPend : Int := 0
  adjPpb : Int := 0
  setInval : Bool := false
  wrIgn : Bool := false
  /-- TIME_SOURCE. -/
  source : Nat := 0
  ppsOutEn : Bool := false
  ptpDomain : Nat := 0
  ppsDelay : Int := 0
  /-- The servo. -/
  trim : Int := 0
  integral : Int := 0
  offset : Int := 0
  steps : Nat := 0
  pinned : Nat := 0
  synced : Bool := false
  measuredAt : Nat := 0
  /-- The last Sync: sequence, receive time, and origin time once known. -/
  syncSeq : Nat := 0
  syncRx : Option Int := none
  syncTx : Option Int := none
  /-- The Delay_Req outstanding: sequence and send time. -/
  delaySeq : Nat := 0
  delayTx : Option Int := none
  ppsOut : Bool := false
  /-- TOD second of the last PPS_OUT boundary reached by counting. -/
  ppsInLast : Option Nat := none
  ppsIgnored : Nat := 0
  deriving DecidableEq, Repr, Inhabited

/-- One position of a Ratline view: the 8-byte entry and the MONO_NS at which it came. -/
structure RlView where
  bytes : List Byte
  at_ : Nat
  deriving DecidableEq, Repr, Inhabited

/-- A sweep in progress: its number, the entries of its number by position, the returned HOP of its own frame, and the
command that waits for it. -/
structure RlSweep where
  seq : Nat
  fresh : List Nat := []
  ring : Option Nat := none
  cmd : Nat × Nat
  deriving DecidableEq, Repr, Inhabited

/-- The Ratline. -/
structure Ratline where
  seq : Nat := 0
  view : Tab (Option RlView) := []
  ringSize : Option Nat := none
  orphaned : Bool := false
  sweep : Option RlSweep := none
  /-- The device's own latest reading: hottest die in 0.1 degree. -/
  temp : Int := 0
  deriving DecidableEq, Repr, Inhabited

/-- One slot of a persistent-store record (Table 24.6). -/
structure PsSlot where
  commit : Nat := 0xFFFFFFFF
  magic : Nat := 0xFFFFFFFF
  record : Nat := 0xFFFF
  len : Nat := 0xFFFF
  seq : Nat := 0xFFFFFFFF
  crc : Nat := 0xFFFFFFFF
  data : List Byte := []
  deriving DecidableEq, Repr, Inhabited

/-- The steps of a record write, each one or more flash operations (R653). -/
inductive PsStep where
  | erase1 | erase0 | page (k : Nat) | header | commit
  deriving DecidableEq, Repr, Inhabited

/-- A record write in progress. `cmd` is the PSTORE_WRITE that waits for it; a firmware record has none. -/
structure PsWrite where
  record : Nat
  slotB : Bool
  seq : Nat
  data : List Byte
  step : PsStep := .erase1
  cmd : Option (Nat × Nat) := none
  deriving DecidableEq, Repr, Inhabited

/-- The persistent store: slot A of record r at index 2 r, slot B at 2 r + 1. -/
structure PStore where
  slots : Tab PsSlot := []
  writing : Option PsWrite := none
  /-- Firmware record writes waiting for the flash: record and data. -/
  waiting : List (Nat × List Byte) := []
  deriving DecidableEq, Repr, Inhabited

end Sys2Proof.Machine
end

