-- ==== Sys2Proof/Machine/PortState.lean ====
section
/-! DEFINITION. The state of the PCIe host endpoint and of the NVMe root port (spec/18_host_storage.md). -/

namespace Sys2Proof.Machine

/-- One PCIe function's standard configuration and MSI-X state (Tables 18.1 - 18.3). Bus Master Enable and MSI-X Enable
reset clear and every vector masked, as PCI Express gives (log entry 5). -/
structure PcieFn where
  busMaster : Bool := false
  d3hot : Bool := false
  msixEn : Bool := false
  msixFnMask : Bool := false
  vecMask : BitVec 64 := BitVec.allOnes 64
  pend : BitVec 64 := 0
  /-- Address and data of each entry of the MSI-X table in BAR4. -/
  msgs : Tab (Nat × Nat) := []
  ats : Bool := false
  /-- Host pages whose translation the cache holds. -/
  atc : List Nat := []
  /-- BAR2's LOCAL_BASE (APERTURE_SET). -/
  localBase : Nat := 0
  /-- AER: Poisoned TLP Received logged. -/
  poisonLogged : Bool := false
  /-- R457: an FLR has begun and its objects are not yet destroyed. -/
  flr : Bool := false
  deriving DecidableEq, Repr, Inhabited

/-- The host endpoint. -/
structure Pcie where
  linkUp : Bool := false
  /-- Rate in tenths of GT/s, width in lanes, and Flit mode of the trained link (R447). -/
  rate : Nat := 0
  width : Nat := 0
  flit : Bool := false
  /-- Receive lanes whose P/N inversion the training corrected, and lanes in reversed order (R49). -/
  rxInv : BitVec 16 := 0
  reversed : Bool := false
  /-- What the host's enumeration writes as soon as its configuration requests complete: it repeats them while they receive
  Configuration Retry Status (R98, R99; log entry 15). -/
  retried : List FnCfg := []
  vfEnable : Bool := false
  numVfs : Nat := 0
  fns : Tab PcieFn := []
  deriving DecidableEq, Repr, Inhabited

/-- Drive states (Table 18.4), in the order of STATE in Table 18.9. -/
inductive DriveState where
  | absent | init | ready | resetting | rejected | failed
  deriving DecidableEq, Repr, Inhabited

/-- I/O commands the port issues (Table 18.5). -/
inductive NvKind where
  | read | write | flush | dealloc
  deriving DecidableEq, Repr, Inhabited

/-- Admin commands the port issues (Table 18.5). -/
inductive NvAdmin where
  /-- Identify, with its CNS. -/
  | identify (cns : Nat)
  /-- Set Features, Number of Queues. -/
  | setQueues (n : Nat)
  | createCq (id entries : Nat)
  | createSq (id entries : Nat)
  | asyncEvent
  | abort (cid : Nat)
  /-- Get Log Page, with its log identifier. -/
  | getLog (lid : Nat)
  deriving DecidableEq, Repr, Inhabited

/-- Whose transfer it is. -/
inductive NvClient where
  /-- A Furl block spilled or restored, by its entry. -/
  | spill (key : Nat)
  | restore (key : Nat)
  /-- A Reef snapshot's data. -/
  | reef (snap : Nat)
  | none
  deriving DecidableEq, Repr, Inhabited

/-- An I/O command outstanding at a drive. -/
structure NvCmd where
  cid : Nat
  kind : NvKind
  lba : Nat
  nlb : Nat
  loc : Nat := 0
  client : NvClient := .none
  /-- Submitted a second time after an error (R469). -/
  retried : Bool := false
  /-- An error was answered and the 1 ms before the second submission runs. -/
  waiting : Bool := false
  /-- Failed to its client at 250 ms; its Abort is outstanding (R468). -/
  aborted : Bool := false
  deriving DecidableEq, Repr, Inhabited

/-- One contiguous run of a spilled block. -/
structure SpillRun where
  key : Nat
  first : Nat
  lbas : Nat
  deriving DecidableEq, Repr, Inhabited

/-- A drive's label (Table 18.7). -/
structure Label where
  serial : Nat := 0
  roles : Nat := 0
  gen : Nat := 0
  spillFirst : Nat := 0
  spillLbas : Nat := 0
  reefFirst : Nat := 0
  reefLbas : Nat := 0
  deriving DecidableEq, Repr, Inhabited

/-- One drive and its record (Table 18.9). -/
structure Drive where
  st : DriveState := .absent
  width : Nat := 0
  rate : Nat := 0
  /-- Receive lanes whose P/N inversion the training corrected, and lanes in reversed order (R49). -/
  rxInv : BitVec 8 := 0
  reversed : Bool := false
  nsze : Nat := 0
  maxBytes : Nat := 262144
  pairs : Nat := 0
  entries : Nat := 0
  label : Label := {}
  cmds : List NvCmd := []
  nextCid : Nat := 0
  runs : List SpillRun := []
  /-- MONO_NS of the resets of the last 10 minutes. -/
  resetAt : List Nat := []
  /-- The spill area has been deallocated since the reset (R467). -/
  cleaned : Bool := false
  smart : Nat := 0
  readBytes : Nat := 0
  writeBytes : Nat := 0
  readCmds : Nat := 0
  writeCmds : Nat := 0
  deallocCmds : Nat := 0
  errors : Nat := 0
  timeouts : Nat := 0
  lateCpl : Nat := 0
  resets : Nat := 0
  dmaReject : Nat := 0
  deriving DecidableEq, Repr, Inhabited

/-- The NVMe root port: NVME_CFG, the configuration of the last START, and two drives. -/
structure Nvme where
  mode : Nat := 0
  flags : Nat := 0
  ioq : Nat := 16
  nsid0 : Nat := 0
  nsid1 : Nat := 0
  /-- The MODE the links run in. -/
  wiredMode : Nat := 0
  d0 : Drive := {}
  d1 : Drive := {}
  deriving DecidableEq, Repr, Inhabited

end Sys2Proof.Machine
end

