-- ==== Sys2Proof/Machine/ServeState.lean ====
section
/-! DEFINITION. The state of the serving path: regions, models, contexts and their requests, batches and dispatches
(spec/07_command_catalogue.md, spec/11_compiler_contract.md), and of Furl (spec/14_furl.md). -/

namespace Sys2Proof.Machine

/-! ### Objects. `gen` is 0 before the index is first allocated; `live` while it is allocated (R167). -/

/-- A memory region (MEM_ALLOC). -/
structure MemRegion where
  gen : Nat := 0
  live : Bool := false
  fn : Nat := 0
  tenant : Nat := 0
  page : Nat := 0
  pages : Nat := 0
  deriving DecidableEq, Repr, Inhabited

/-- One section of a loaded image (Table 11.5): where it was placed, and the template Masthead keeps. -/
structure Sect where
  typ : Nat := 0
  flags : Nat := 0
  base : Nat := 0
  memLen : Nat := 0
  file : List Byte := []
  written : Bool := false
  deriving DecidableEq, Repr, Inhabited

/-- A loaded model. -/
structure Model where
  gen : Nat := 0
  live : Bool := false
  fn : Nat := 0
  tenant : Nat := 0
  shared : Bool := false
  tag : Nat := 0
  region : Nat := 0
  layers : Nat := 1
  stepsSect : Nat := 0
  sects : List Sect := []
  /-- BLOCK_BYTES as the model's lowest-indexed DATA section declares it, 0 when Furl does not use it (R325). -/
  blockBytes : Nat := 0
  /-- CRC of the image; a replica that Reef has placed, which no session sees. -/
  crc : Nat := 0
  replica : Bool := false
  deriving DecidableEq, Repr, Inhabited

/-- How a context holds one block of its token sequence. -/
inductive BlkKind where
  /-- Private KV. -/
  | priv
  /-- A lookup is unanswered. -/
  | asked
  | mapped
  | waiting
  | building
  deriving DecidableEq, Repr, Inhabited

/-- One block of a context's KV block map. -/
structure Blk where
  kind : BlkKind := .priv
  key : Nat := 0
  dev : Nat := 0
  addr : Nat := 0
  nvme : Bool := false
  child : Nat := 0
  /-- This context built and published it. -/
  built : Bool := false
  /-- Positions whose KV is complete, of a private or building block. -/
  done : Nat := 0
  deriving DecidableEq, Repr, Inhabited

/-- A request in progress (SUBMIT). -/
structure Req where
  ref : Nat × Nat
  fetched : Nat := 0
  deadline : Nat := 0
  maxNew : Nat := 1
  stop : Nat := 0xFFFFFFFF
  pubDecode : Bool := false
  /-- Furl was RUNNING at its fetch (R177). -/
  furl : Bool := true
  outAddr : Nat := 0
  /-- Positions of the sequence when the request began. -/
  base : Nat := 0
  out : Nat := 0
  hit : Nat := 0
  built : Nat := 0
  waited : Nat := 0
  prefill : Nat := 0
  decoding : Bool := false
  inStep : Bool := false
  due : Bool := false
  cancelled : Bool := false
  /-- SUBMIT_CANCEL commands that complete after it, and the CTX_FREE with ABORT that frees the context then. -/
  cancels : List (Nat × Nat) := []
  free : Option (Nat × Nat) := none
  /-- The context ends with its session: no completion (Table 6.5). -/
  killed : Bool := false
  /-- Frame of a FRAME submission: frame context, slot and sequence number, and its first token position. -/
  frame : Option (Nat × Nat) := none
  framePos : Nat := 0
  deriving DecidableEq, Repr, Inhabited

/-- A context. -/
structure Ctx where
  gen : Nat := 0
  live : Bool := false
  fn : Nat := 0
  tenant : Nat := 0
  model : Nat := 0
  pdom : Nat := 0
  prio : Nat := 0
  noFurl : Bool := false
  toks : List Nat := []
  blocks : List Blk := []
  /-- The last output token, which has no KV yet. -/
  pendTok : Option Nat := none
  tokensOut : Nat := 0
  /-- A part-block was copied (R332, R340): the context publishes nothing more. -/
  copied : Bool := false
  /-- The private KV area: first page and pages. -/
  privPage : Nat := 0
  privPages : Nat := 0
  req : Option Req := none
  /-- Reef: a snapshot covers it; it has been evacuated. -/
  snapped : Bool := false
  evacuated : Bool := false
  /-- Frozen for an evacuation; the device it has been evacuated to, lost since (R586); its source and handle there, for a
  context that this device hosts. -/
  frozen : Bool := false
  dest : Nat := 0
  destLost : Bool := false
  hosted : Option (Nat × Nat) := none
  deriving DecidableEq, Repr, Inhabited

/-- One slot of a batch: the context, the positions before the step and those the step adds. -/
structure Slot where
  ctx : Nat
  before : Nat
  new : Nat
  deriving DecidableEq, Repr, Inhabited

/-- A batch in its step: the STEPS entries run in order, one dispatch each. -/
structure Batch where
  live : Bool := false
  model : Nat := 0
  decode : Bool := false
  slots : List (Option Slot) := []
  /-- Entries of the step already dispatched, and the dispatch that runs. -/
  pos : Nat := 0
  cur : Option Nat := none
  /-- OUT_TOKEN of each slot, as the last dispatch that ended left it. -/
  outs : List Nat := []
  deriving DecidableEq, Repr, Inhabited

/-- A dispatch. -/
structure Dispatch where
  live : Bool := false
  batch : Nat := 0
  die : Nat := 0
  tiles : List Nat := []
  hals : List Nat := []
  gcl : List Nat := []
  wdog : Nat := 24
  /-- Halted: it ends once its Halyards have drained. -/
  ending : Bool := false
  info : Nat := 0
  /-- Its area of Mast SRAM: base and length. -/
  area : Nat × Nat := (0, 0)
  deriving DecidableEq, Repr, Inhabited

/-- The serving path. -/
structure Serve where
  regions : Tab MemRegion := []
  models : Tab Model := []
  ctxs : Tab Ctx := []
  batches : Tab Batch := []
  dispatches : Tab Dispatch := []
  /-- Steps begun since reset (ARG_KIND 4). -/
  steps : Nat := 0
  deriving DecidableEq, Repr, Inhabited

/-! ### Furl -/

/-- Directory entry states (Table 14.2). -/
inductive DirSt where
  | free | building | ready | moving | evicting
  deriving DecidableEq, Repr, Inhabited

/-- One directory entry (Table 14.2). -/
structure DirEntry where
  st : DirSt := .free
  key : Nat := 0
  parent : Nat := 0
  tag : Nat := 0
  pdom : Nat := 0
  /-- TIER [0] and, in MOVING, [1]. -/
  nvme : Bool := false
  restoring : Bool := false
  locDev : Nat := 0
  locAddr : Nat := 0
  builderDev : Nat := 0xFFFF
  builderCtx : Nat := 0
  lease : Nat := 0
  holders : BitVec 72 := 0
  child : Nat := 0
  toks : List Nat := []
  /-- Devices that asked for a restore. -/
  askers : List Nat := []
  /-- The owner has reported the block lost. -/
  lost : Bool := false
  deriving DecidableEq, Repr, Inhabited

/-- A waiter record: device, context handle, entry. -/
structure FurlWaiter where
  dev : Nat
  ctx : Nat
  entry : Nat
  deriving DecidableEq, Repr, Inhabited

/-- A slot of this device's pool, by its first page: reserved as an OFFER (key 0), or holding a block. -/
structure PoolSlot where
  live : Bool := false
  key : Nat := 0
  pages : Nat := 0
  /-- BLOCK_BYTES rounded up to 4 KiB. -/
  bytes : Nat := 0
  pdom : Nat := 0
  tag : Nat := 0
  lastUse : Nat := 0
  /-- An eviction has been asked for; a spill or restore runs. -/
  evictAsked : Bool := false
  moving : Bool := false
  orphans : BitVec 72 := 0
  /-- The home of its key has been lost. -/
  orphaned : Bool := false
  /-- A poisoned word was found in it, and its home told. -/
  lost : Bool := false
  deriving DecidableEq, Repr, Inhabited

/-- A block this device has spilled: its drive and first logical block. -/
structure Spilled where
  live : Bool := false
  drive : Nat := 0
  lba : Nat := 0
  bytes : Nat := 0
  pdom : Nat := 0
  tag : Nat := 0
  at_ : Nat := 0
  orphans : BitVec 72 := 0
  /-- The page of the slot a restore fills. -/
  restoreTo : Option Nat := none
  /-- A drop has been asked for (quota). -/
  evictAsked : Bool := false
  orphaned : Bool := false
  deriving DecidableEq, Repr, Inhabited

/-- A lookup that this device has sent and that is unanswered. -/
structure Asked where
  key : Nat
  ctx : Nat
  blk : Nat
  offer : Nat
  /-- 0 an ordinary lookup, 1 in compare mode, 2 for a block completed during decode (R339), 3 of FURL_PROBE. -/
  mode : Nat := 0
  /-- The request has ended: the answer is discarded. -/
  dead : Bool := false
  deriving DecidableEq, Repr, Inhabited

/-- A FURL_PROBE that waits for its answers. -/
structure Probe where
  ref : Nat × Nat
  left : Nat
  blocks : Nat
  /-- Answers so far by block index: 0 none, 1 local, 2 peer, 3 NVMe. -/
  got : List Nat
  deriving DecidableEq, Repr, Inhabited

/-- A pin (FURL_PIN). -/
structure Pin where
  gen : Nat := 0
  live : Bool := false
  fn : Nat := 0
  /-- The keys, each with its LOC_DEV. -/
  keys : List (Nat × Nat) := []
  deriving DecidableEq, Repr, Inhabited

/-- A prefix domain: open, with its tenants (FURL_DOMAIN_CFG). -/
structure PDom where
  everOpen : Bool := false
  opened : Bool := false
  mask : BitVec 256 := 0
  deriving DecidableEq, Repr, Inhabited

/-- A message between Furl engines (Table 14.4). -/
inductive FurlMsg where
  | lookup (key parent tag pdom : Nat) (toks : List Nat) (ctx offer mode : Nat)
  | answer (key code locDev : Nat) (nvme : Bool) (locAddr child n : Nat)
  | unhold (key : Nat)
  | abandon (key ctx : Nat)
  | renew (keys : List Nat)
  | publish (key : Nat)
  | child (parent key : Nat)
  /-- ev 0 READY, 1 CLAIM, 2 RELOCATE, 3 the restore failed. -/
  | notify (key ev locDev locAddr ctx : Nat)
  /-- op 0 drop, 1 spill, 2 the block is lost. -/
  | evict (key op : Nat)
  /-- op 0 drop, 1 spill, 3 the spill has ended (granted: the HBM slot goes, refused: the NVMe copy), 4 the slot is released. -/
  | evictAck (key op : Nat) (granted : Bool)
  | restore (key : Nat)
  | restoreOwn (key : Nat)
  | moved (key : Nat) (nvme : Bool) (locAddr : Nat)
  | orphanHold (key : Nat) (hold : Bool)
  deriving DecidableEq, Repr, Inhabited

/-- The n-th byte of a message of Furl, and its length: the spec names a message's fields and gives no layout (log entry 84). -/
opaque Config.furlByte : FurlMsg → Nat → Byte
opaque Config.furlLen : FurlMsg → BitVec 12

/-- The position of a block to which a byte of it belongs, in the layout that a model's kernels write: by MODEL_TAG and offset. What no
position owns alone counts with position 0 (log entry 85). -/
opaque Config.kvPos : Nat → Nat → Nat

/-- A copy-on-write in progress: its number, the child that is held and the device that holds its bytes, where its first `n` positions
go, whether it is still on NVMe, the READs still out, and whether one failed. -/
structure CowCopy where
  id : Nat
  dev : Nat
  ctx : Nat
  blk : Nat
  key : Nat
  n : Nat
  nvme : Bool := false
  left : Nat := 0
  bad : Bool := false
  deriving DecidableEq, Repr, Inhabited

/-- Furl on this device: home, requester and pool owner. -/
structure Furl where
  /-- Way w of set s is at 8 s + w. -/
  dir : Tab DirEntry := []
  waiters : List FurlWaiter := []
  /-- References this device's contexts and pins hold, by key. -/
  refs : Tab Nat := []
  /-- The block-ready Cleat of a block, by key: index + 1. -/
  cleats : Tab Nat := []
  /-- Held blocks whose home has been lost, with their LOC_DEV (R352). -/
  orphans : List (Nat × Nat) := []
  asked : List Asked := []
  /-- Keys whose UNHOLD waits behind an open lookup. -/
  owed : List Nat := []
  /-- Keys of lookups whose message could not be delivered. -/
  failed : List Nat := []
  copies : List CowCopy := []
  nextCopy : Nat := 0
  probes : List Probe := []
  pins : Tab Pin := []
  doms : Tab PDom := []
  /-- Pool slots by first page, spilled blocks by key. -/
  pool : Tab PoolSlot := []
  spilled : Tab Spilled := []
  lowPct : Nat := 80
  highPct : Nat := 90
  quotaGib : Nat := 0
  /-- Eviction goes on until use falls to LOW_PCT. -/
  evicting : Bool := false
  /-- Prefix domains being purged (FURL_PURGE), with ALL_TIERS. -/
  purging : List (Nat × Bool) := []
  /-- Messages of the device to itself, oldest first. -/
  selfq : List FurlMsg := []
  /-- Counters of Table 14.6 in its order. -/
  stats : Tab Nat := []
  deriving DecidableEq, Repr, Inhabited

end Sys2Proof.Machine
end

