-- ==== Sys2Proof/Machine/ShroudState.lean ====
section
/-! DEFINITION. The state of Shroud (spec/16_shroud.md). -/

namespace Sys2Proof.Machine

/-- Connection states (Table 16.6). -/
inductive ConnSt where
  | free | opening | opened | closing | peerClosed | broken
  deriving DecidableEq, Repr, Inhabited

/-- STATE of Table 16.11. -/
def ConnSt.code : ConnSt → Nat
  | .free => 0 | .opening => 1 | .opened => 2 | .closing => 3 | .peerClosed => 4 | .broken => 5

/-- How an operation ends at its client (Completions and timeouts): an OSTAT code, or one of the initiator's own. -/
inductive ShrEnd where
  | ostat (n : Nat)
  | timedOut | noRoute | unavail | broken | aborted | inval
  deriving DecidableEq, Repr, Inhabited

/-- A sequenced packet: a segment of a request or of a response. -/
structure ShrSeg where
  resp : Bool := false
  psn : Nat := 0
  opc : Nat := 0
  first : Bool := false
  last : Bool := false
  resend : Bool := false
  opsn : Nat := 0
  len : Nat := 0
  addr : Nat := 0
  off : Nat := 0
  aux : Nat := 0
  data : List Byte := []
  /-- Retransmissions so far; SACK marks it. -/
  tries : Nat := 0
  sacked : Bool := false
  deriving DecidableEq, Repr, Inhabited

/-- An incoming operation, being assembled or waiting to execute. -/
structure InOp where
  opc : Nat
  opsn : Nat
  len : Nat
  addr : Nat
  aux : Nat
  data : List Byte := []
  whole : Bool := false
  deriving DecidableEq, Repr, Inhabited

/-- Who posted an operation: a block outside the model's own; word w of the descriptor numbered q of Halyard h, read or written; a
WEIGHTS_LOAD; Furl, for the copy-on-write numbered k; or a message of Masthead's own, with the key of a LOOKUP. -/
inductive ShrClient where
  | outside
  | halyard (h q w : Nat) (wr : Bool)
  | load (ref : Nat × Nat)
  | copy (k : Nat)
  | message (lookup : Option Nat)
  deriving DecidableEq, Repr, Inhabited

/-- A posted operation. -/
structure ShrOp where
  post : ShrPost
  client : ShrClient := .outside
  /-- The data that a READ of a Halyard has brought so far. -/
  got : List Byte := []
  /-- It has left with this OPSN. -/
  opsn : Option Nat := none
  /-- TIMEOUT_US as read when its timer started. -/
  tmo : Nat := 0
  faults : Nat := 0
  /-- It waits to be resent (R410). -/
  resend : Bool := false
  deriving DecidableEq, Repr, Inhabited

/-- A window (SHR_MAP). -/
structure ShrMap where
  gen : Nat := 0
  live : Bool := false
  fn : Nat := 0
  conn : Nat := 0
  region : Nat := 0
  remote : Nat := 0
  len : Nat := 0
  rd : Bool := false
  wr : Bool := false
  /-- FAULT_MODE 1. -/
  resend : Bool := false
  /-- SHR_UNMAP waits for the operation that executes through it (R407). -/
  unmap : Option (Nat × Nat) := none
  deriving DecidableEq, Repr, Inhabited

/-- One connection. -/
structure ShrConn where
  gen : Nat := 0
  fn : Nat := 0
  st : ConnSt := .free
  peer : ShrPeer := .stay 0
  tenant : Nat := 0
  /-- A system connection of Masthead's own. -/
  sys : Bool := false
  keySlot : Nat := 0
  key : List Byte := []
  chain : Nat := 0
  timeout : Nat := 200
  /-- The peer's index. -/
  peerIdx : Nat := 0xFFFF
  openRef : Option (Nat × Nat) := none
  closeRef : Option (Nat × Nat) := none
  /-- CLOSE packets sent. -/
  closes : Nat := 0
  txc : Nat := 0
  psn : Nat := 0
  unacked : List ShrSeg := []
  outq : List ShrSeg := []
  /-- The next PSN expected, packets stored out of order, packets received since the last acknowledgement sent. -/
  ackPsn : Nat := 0
  ooo : List ShrSeg := []
  ackDue : Nat := 0
  tEcho : Nat := 0
  opsn : Nat := 0
  ops : List ShrOp := []
  inq : List InOp := []
  /-- The faulted OPSN whose resend is awaited (R409). -/
  faultAt : Option Nat := none
  /-- r_cc in Mb/s, as a fraction. -/
  rcc : Nat × Nat := (1200000, 1)
  /-- Least RTT sample of the period; least of the current and of the previous 100 ms, and the current one's number. -/
  sample : Option Nat := none
  baseCur : Option Nat := none
  basePrev : Option Nat := none
  baseAt : Nat := 0
  /-- Counters of Table 16.11 in its order, OPS_POSTED to PINNED. -/
  cnt : Tab Nat := []
  deriving DecidableEq, Repr, Inhabited

/-- A WEIGHTS_LOAD that reads through a connection: its command, its model and section, its length, the READs still out, and the worst
DETAIL of those that failed. -/
structure WeightLoad where
  ref : Nat × Nat
  model : Nat
  sect : Nat
  len : Nat
  left : Nat
  bad : Option Nat := none
  deriving DecidableEq, Repr, Inhabited

/-- Shroud. -/
structure Shroud where
  conns : Tab ShrConn := []
  maps : Tab ShrMap := []
  /-- HBM pages that are absent for windows: a Reef restore writes into them. -/
  absent : Tab Bool := []
  /-- SHR_CC_CFG (Table 16.9). -/
  target : Nat := 3000
  ai : Nat := 2000
  md : Nat := 16384
  minRate : Nat := 1000
  /-- Packets discarded as malformed that name no connection. -/
  malformed : Nat := 0
  /-- The number that the next operation of a client of the device's own takes. -/
  nextId : Nat := 2 ^ 32
  loads : List WeightLoad := []
  deriving DecidableEq, Repr, Inhabited

end Sys2Proof.Machine
end

