-- ==== Sys2Proof/Machine/OutState.lean ====
section
/-! DEFINITION. What the device sends out of itself. A step appends what it sends to `State.out`, oldest first; nothing in
the machine reads it back (log entry 2). -/

namespace Sys2Proof.Machine

/-- One thing the device sends. -/
inductive Out where
  /-- An MSI-X message of a function: the address and the data of its table entry (R119, R144, R454). -/
  | msix (fn vec addr data : Nat)
  /-- A write to host memory for a function. -/
  | hostWrite (fn addr : Nat) (bytes : List Byte)
  /-- The Invalidate Completion of a function (R452). -/
  | atsDone (fn : Nat)
  /-- An I/O command and an admin command to a drive (Table 18.5). -/
  | nvIo (d cid : Nat) (kind : NvKind) (lba nlb : Nat)
  | nvAdmin (d : Nat) (a : NvAdmin)
  /-- What a drive reads of a write command's buffer (R465), and the Unsupported Request that answers any other address (R464). -/
  | nvData (d addr : Nat) (bytes : List Byte)
  | nvReject (d addr : Nat)
  /-- NVME_PERST_N held low for 1 ms, bit d for drive d (Table 18.4, R461). -/
  | nvPerst (lines : BitVec 2)
  /-- The QP of each 16 x 16 block that the encoder is given for a frame context's frame SEQ, row by row. -/
  | encodeQps (fctx seq : Nat) (qps : List Nat)
  /-- The characters of a line on the UART (`lineText`). -/
  | uart (text : List Byte)
  /-- An AVSBus frame to the core regulator of a die. -/
  | avs (die : Nat) (f : AvsFrame)
  /-- A block read's packet, on SMB0 or SMB1, and the byte that answers the Alert Response Address. -/
  | smb (bus : Nat) (p : McPacket)
  | smbByte (b : Byte)
  /-- The target NAKs the byte after the opcode (R157). -/
  | smbNak
  /-- A Read Word of SMB1. -/
  | smb1Read (addr : Nat)
  /-- A Ratline frame. -/
  | ratline (frame : List Byte)
  /-- What a Furl message to another device says (Table 14.4); its bytes go as a MSG on the system connection. -/
  | furl (dev : Nat) (m : FurlMsg)
  /-- A BAR2 read's completion: data, or poisoned with data 0xFF (Table 13.2). -/
  | bar2 (data : List Byte) (poisoned : Bool)
  /-- A Stay flit handed to a link's framer, and a codeword that its flits have filled: the symbols of each active lane (R356). -/
  | flit (k : Nat) (bytes : List Byte)
  | codeword (k : Nat) (lanes : List (Nat × List (BitVec 10)))
  /-- A packet that Stay gives back to the block that sent it, as NOROUTE (R371). -/
  | noroute (vc : Nat) (packet : List Byte)
  /-- A frame on an Ethernet port, and a PFC frame: priority and quanta. -/
  | eth (p : Nat) (frame : List Byte)
  | pfc (p prio quanta : Nat)
  /-- A PLB cycle the device starts: address, BE_N, read, burst, write words. -/
  | plbCycle (addr be : Nat) (read burst : Bool) (words : List Nat)
  /-- The device's answer as PLB target. -/
  | plbReply (r : PlbResp)
  /-- The data a firmware read through an outbound window returns. -/
  | plbRead (data : List Byte)
  /-- The end of a posted Shroud operation at its client: connection, operation, status and the data of a READ or FADD. -/
  | shrDone (conn op : Nat) (e : ShrEnd) (old : Nat)
  /-- A message delivered to Masthead on a connection. -/
  | shrMsg (conn : Nat) (data : List Byte)
  /-- A Reef message to another device, on the connection REEF_CFG names or the system connection. -/
  | reef (dev : Nat) (m : ReefMsg)
  deriving DecidableEq, Repr, Inhabited

end Sys2Proof.Machine
end

