-- ==== Sys2Proof/Machine/RackState.lean ====
section
/-! DEFINITION. The state of rack membership (spec/25_rack.md). -/

namespace Sys2Proof.Machine

/-- The held epoch view (Table 25.3). -/
structure RackView where
  epoch : Nat := 0
  digest : Nat := 0
  fwMin : Nat := 0
  fwMax : Nat := 0
  gmId : Nat := 0
  members : BitVec 72 := 0
  deriving DecidableEq, Repr, Inhabited

/-- MSTATE (Table 25.5), in the order of its code. -/
inductive MState where
  | unset | member | grace | quarantine
  deriving DecidableEq, Repr, Inhabited

/-- What the last valid ANNOUNCE of a peer carried. -/
structure PeerAnn where
  state : Nat := 0
  mstate : Nat := 0
  epoch : Nat := 0
  serial : Nat := 0
  ecdh : List Byte := []
  /-- Less than 3 s old. -/
  fresh : Bool := true
  deriving DecidableEq, Repr, Inhabited

/-- One peer as membership sees it. -/
structure RackPeer where
  ann : Option PeerAnn := none
  /-- A LEAVE has ended the membership; an ANNOUNCE after it begins it again. -/
  left : Bool := false
  /-- The system connection to it, and the ECDH_PUB that keys it. -/
  sysConn : Option Nat := none
  sysKey : List Byte := []
  deriving DecidableEq, Repr, Inhabited

/-- Rack membership. -/
structure Rack where
  view : RackView := {}
  mstate : MState := .unset
  /-- REASONS: [0] NOT_LISTED, [1] DIGEST, [2] FIRMWARE, [3] DUPLICATE. -/
  reasons : BitVec 4 := 0
  /-- MONO_NS at which the grace began, at the last accepted RACK_EPOCH and at the last duplicate ANNOUNCE. -/
  graceAt : Nat := 0
  epochAt : Nat := 0
  dupAt : Option Nat := none
  rmuLost : Bool := false
  /-- The 5 s window in which an older EPOCH of a peer counts. -/
  oldWindow : Bool := false
  peers : Tab RackPeer := []
  discarded : Nat := 0
  /-- LOCAL_DIGEST, as last computed; bytes 5 - 23 of the last ANNOUNCE sent; the active members as last acted on. -/
  digest : Nat := 0
  said : List Byte := []
  active : BitVec 72 := 0
  deriving DecidableEq, Repr, Inhabited

end Sys2Proof.Machine
end

