-- ==== Sys2Proof/Machine/ReefState.lean ====
section
/-! DEFINITION. The state of Reef (spec/22_reef.md). -/

namespace Sys2Proof.Machine

/-- The n-th byte of a message between Reef units, and its length; where on the other device an image of a context handle is placed: the
spec gives neither layout nor address (log entry 87). -/
opaque Config.reefByte : ReefMsg → Nat → Byte
opaque Config.reefLen : ReefMsg → BitVec 12
opaque Config.reefAddr : Nat → Nat

/-- The unit's states (Table 22.4), in the order of STATE. -/
inductive ReefSt where
  | idle | snapping | ready | evacuating
  deriving DecidableEq, Repr, Inhabited

/-- Where a snapshot goes: a peer's HBM, or a slot number of the Reef areas. -/
inductive SnapTo where
  | peer (dev : Nat)
  | nvme (slot : Nat)
  deriving DecidableEq, Repr, Inhabited

/-- One context of a snapshot. -/
structure SnapCtx where
  ctx : Nat := 0
  handle : Nat := 0
  cut : Bool := false
  /-- Dropped from the snapshot (R591, R592). -/
  lost : Bool := false
  image : ReefImage := {}
  /-- Where its private KV stood at the cut: local address, length and place in the image. -/
  parts : List (Nat × Nat × Nat) := []
  /-- The chunks as read, one after another in the order of `chunks`. -/
  raw : List (Nat × Byte) := []
  /-- The 64 KiB chunks it covers, and those of its area written since the cut. -/
  chunks : List Nat := []
  area : Nat × Nat := (0, 0)
  dirty : List Nat := []
  /-- The context has been frozen and its catch-up sent; confirmed or refused. -/
  frozen : Bool := false
  settled : Bool := false
  deriving DecidableEq, Repr, Inhabited

/-- A snapshot of this device's own. -/
structure Snap where
  gen : Nat := 0
  live : Bool := false
  /-- READY; otherwise it is being taken. -/
  ready : Bool := false
  target : SnapTo := .nvme 0
  /-- The REEF_SNAPSHOT that waits, the trigger that started it, and whether an evacuation follows. -/
  ref : Option (Nat × Nat) := none
  follow : Bool := false
  ctxs : List SnapCtx := []
  /-- Bytes so far, the first cut, one reference per listed block. -/
  total : Nat := 64
  cutNs : Option Nat := none
  keys : List Nat := []
  /-- LOC_DEV of each listed block, as it was mapped at the cut. -/
  locs : List (Nat × Nat) := []
  poisoned : Bool := false
  /-- Its header has been submitted to the drives. -/
  header : Bool := false
  /-- Its images have gone to the peer, whose answer makes it READY or refuses the park. -/
  sent : Bool := false
  /-- Models that the peer says it holds. -/
  held : List (Nat × Nat) := []
  at_ : Nat := 0
  deriving DecidableEq, Repr, Inhabited

/-- What a slot of a drive's Reef area holds: a snapshot's header and images. -/
structure NvSnap where
  whole : Bool := false
  header : List Byte := []
  images : List ReefImage := []
  deriving DecidableEq, Repr, Inhabited

/-- A snapshot parked for another device: its pages and images. -/
structure Parked where
  src : Nat
  snap : Nat
  page : Nat
  pages : Nat
  images : List ReefImage := []
  replicas : List Nat := []
  deriving DecidableEq, Repr, Inhabited

/-- An evacuation in progress: its snapshot, destination, the command that waits, and the counts of R590. -/
structure Evac where
  snap : Nat
  dest : Nat
  ref : Option (Nat × Nat)
  restored : Nat := 0
  skipped : Nat := 0
  mapped : Nat := 0
  prefill : Nat := 0
  deriving DecidableEq, Repr, Inhabited

/-- A REEF_RESTORE in progress: from another device, or of contexts whose lookups are unanswered. -/
structure Restore where
  ref : Nat × Nat
  src : Nat
  snap : Nat
  restored : Nat := 0
  skipped : Nat := 0
  mapped : Nat := 0
  prefill : Nat := 0
  ctxs : List Nat := []
  deriving DecidableEq, Repr, Inhabited

/-- Reef. -/
structure Reef where
  /-- REEF_CFG. -/
  target : Nat := 1
  triggers : Nat := 0
  peerDev : Nat := 0
  conn : Nat := 0
  cePerMin : Nat := 600
  thermDc : Nat := 50
  st : ReefSt := .idle
  lastTrigger : Nat := 0
  merged : Nat := 0
  snaps : Tab Snap := []
  /-- Chunks whose protect bit is set, in the order of the copy. -/
  queue : List Nat := []
  evac : Option Evac := none
  restores : List Restore := []
  parked : List Parked := []
  /-- What slot n of drive d holds, at 4 d + n. -/
  media : Tab NvSnap := []
  /-- Replicas already written, by target device, tag and CRC. -/
  replicas : List (Nat × Nat × Nat) := []
  /-- Corrected events by second, newest first; the last raise of each Stay link; the hottest die by second, newest first. -/
  ce : List Nat := []
  links : List (Nat × Nat) := []
  temps : List Int := []
  deriving DecidableEq, Repr, Inhabited

end Sys2Proof.Machine
end

