-- ==== Sys2Proof/Machine/SecState.lean ====
section
/-! DEFINITION. The state of the security block (spec/21_security.md): fuses, keys, measurement registers, firmware slots and
the debug lock. -/

namespace Sys2Proof.Machine

/-- What the security block is fused with (Table 21.3). The values are the package's own (log entry 11). -/
structure SecFuses where
  rootHash : List Byte := []
  /-- How many bits of the thermometer SVN_MIN are set. -/
  svnMin : Nat := 0
  /-- KIK, none when zero (R542). -/
  kik : Option (List Byte) := some []
  /-- OWNER_PUB, none when zero (R561). -/
  ownerPub : Option (List Byte) := none
  pwHash : List Byte := []
  secret : List Byte := []
  deriving DecidableEq, Repr, Inhabited

/-- One flash slot of firmware. `sigOk` says that its image passes every step of verify but the last, which compares SVNs. -/
structure FwSlot where
  written : List Byte := []
  /-- The commit word is programmed. -/
  committed : Bool := false
  version : Nat := 0
  svn : Nat := 0
  sigOk : Bool := false
  deriving DecidableEq, Repr, Inhabited

/-- The debug lock (Table 21.8). -/
inductive LockSt where
  | closed | opened | lockedOut
  deriving DecidableEq, Repr, Inhabited

/-- A Shroud key slot: the tenant it is bound to, and the key. -/
structure ShrKey where
  tenant : Nat
  key : List Byte
  /-- A connection has used it since it was set (R389). -/
  used : Bool := false
  deriving DecidableEq, Repr, Inhabited

/-- The security block. -/
structure Sec where
  fuse : SecFuses := {}
  slotA : FwSlot := { written := Config.factoryImage, committed := true, version := 0x030200, svn := 0, sigOk := true }
  slotB : FwSlot := {}
  /-- Tenant HBM keys by domain, Shroud keys by slot. -/
  hbm : Tab (Option (List Byte)) := []
  shr : Tab (Option ShrKey) := []
  /-- The highest SEQ accepted since the last reset. -/
  seqHigh : Option Nat := none
  /-- The first free value of this boot's random keys: device domain, pools, directory, system connections (R545). -/
  drbg : Nat := 0
  nonce : List Byte := []
  mr0 : List Byte := []
  mr1 : List Byte := []
  mr2 : List Byte := []
  mr3 : List Byte := []
  mr4 : List Byte := []
  events : Nat := 0
  lock : LockSt := .closed
  fails : Nat := 0
  /-- The challenge nonce in force. -/
  chal : Option (List Byte) := none
  /-- Media keys held by the NVMe port, drives 0 and 1: the GEN each was derived for. -/
  media0 : Option Nat := none
  media1 : Option Nat := none
  /-- SVN of the running image. -/
  runSvn : Nat := 0
  deriving DecidableEq, Repr, Inhabited

end Sys2Proof.Machine
end

