-- ==== Sys2Proof/Machine/Sha.lean ====
section
/-! DEFINITION. The hash functions of FIPS 180-4 that the spec uses: what SHA-256 and SHA-384 share, and SHA-256 (R323, and the digests
of spec/21_security.md and spec/25_rack.md). -/

namespace Sys2Proof.Machine

/-! ### The shared engine -/

/-- What distinguishes one of the hash functions over words of n bits: the rotations of its functions of one word, the shift that joins
those of the schedule, the round constants and the first hash value. -/
structure ShaKind (n : Nat) where
  /-- Rotations applied to the first and to the fifth working word. -/
  top : List Nat
  mid : List Nat
  /-- Rotations and the shift applied to the schedule word 15 back, and to the one 2 back. -/
  old : List Nat × Nat
  new : List Nat × Nat
  rounds : List (BitVec n)
  first : List (BitVec n)
  deriving DecidableEq, Repr

/-- The exclusive or of a word's rotations to the right, over a first value. -/
def rotSum {n : Nat} (x : BitVec n) (rs : List Nat) (z : BitVec n) : BitVec n := rs.foldl (fun a r => a ^^^ x.rotateRight r) z

/-- A function of the schedule: rotations and a shift. -/
def schedMix {n : Nat} (m : List Nat × Nat) (x : BitVec n) : BitVec n := rotSum x m.1 (x >>> m.2)

/-- Each bit of `y` where the bit of `x` is set, else of `z`. -/
def shaChoose {n : Nat} (x y z : BitVec n) : BitVec n := z ^^^ (x &&& (y ^^^ z))

/-- Each bit as two of the three have it. -/
def shaMajor {n : Nat} (x y z : BitVec n) : BitVec n := (x &&& y) ||| (z &&& (x ||| y))

/-- One round over the eight working words, oldest value last, with the sum of its constant and its schedule word: the first four words
and the last four each move by one, and a new word enters each half. -/
def shaRound {n : Nat} (h : ShaKind n) (v : List (BitVec n)) (kw : BitVec n) : List (BitVec n) :=
  match v with
  | [a, b, c, d, e, f, g, o] =>
    let t := kw + o + shaChoose e f g + rotSum e h.mid 0
    [t + shaMajor a b c + rotSum a h.top 0, a, b, c, t + d, e, f, g]
  | _ => v

/-- The rounds of one block over the constants that are left, with the window of the next 16 schedule words. -/
def shaRounds {n : Nat} (h : ShaKind n) : List (BitVec n) → List (BitVec n) → List (BitVec n) → List (BitVec n)
  | [], _, v => v
  | k :: ks, w, v =>
    let x := schedMix h.new (w.getD 14 0) + schedMix h.old (w.getD 1 0) + w.getD 9 0 + w.getD 0 0
    shaRounds h ks (w.tail ++ [x]) (shaRound h v (w.getD 0 0 + k))

/-- A block of 16 words of n / 8 bytes, added into the hash value. -/
def shaBlock {n : Nat} (h : ShaKind n) (v : List (BitVec n)) (b : List Byte) : List (BitVec n) :=
  let w := (List.range 16).map (fun i => BitVec.ofNat n (fieldBE b (n / 8 * i) (n / 8)))
  List.zipWith (· + ·) v (shaRounds h h.rounds w v)

/-- `k` blocks, one after another. -/
def shaBlocks {n : Nat} (h : ShaKind n) : Nat → List Byte → List (BitVec n) → List (BitVec n)
  | 0, _, v => v
  | k + 1, bs, v => shaBlocks h k (bs.drop (2 * n)) (shaBlock h v (bs.take (2 * n)))

/-- The message padded to whole blocks of 2 n bytes: a one bit, zeros, and its length in bits in n / 4 bytes. -/
def shaPad (n : Nat) (m : List Byte) : List Byte :=
  let used := (m.length + 1 + n / 4) % (2 * n)
  m ++ (0x80 :: List.replicate ((2 * n - used) % (2 * n)) 0) ++ beBytes (n / 4) (8 * m.length)

/-- The hash value of a message, as bytes. -/
def shaBytes {n : Nat} (h : ShaKind n) (m : List Byte) : List Byte :=
  let p := shaPad n m
  (shaBlocks h (p.length / (2 * n)) p h.first).flatMap (fun w => beBytes (n / 8) w.toNat)

/-! ### SHA-256 -/

/-- The 64 round constants. -/
def shaK : List W32 :=
  [0x428a2f98, 0x71374491, 0xb5c0fbcf, 0xe9b5dba5, 0x3956c25b, 0x59f111f1, 0x923f82a4, 0xab1c5ed5,
   0xd807aa98, 0x12835b01, 0x243185be, 0x550c7dc3, 0x72be5d74, 0x80deb1fe, 0x9bdc06a7, 0xc19bf174] ++
  [0xe49b69c1, 0xefbe4786, 0x0fc19dc6, 0x240ca1cc, 0x2de92c6f, 0x4a7484aa, 0x5cb0a9dc, 0x76f988da,
   0x983e5152, 0xa831c66d, 0xb00327c8, 0xbf597fc7, 0xc6e00bf3, 0xd5a79147, 0x06ca6351, 0x14292967] ++
  [0x27b70a85, 0x2e1b2138, 0x4d2c6dfc, 0x53380d13, 0x650a7354, 0x766a0abb, 0x81c2c92e, 0x92722c85,
   0xa2bfe8a1, 0xa81a664b, 0xc24b8b70, 0xc76c51a3, 0xd192e819, 0xd6990624, 0xf40e3585, 0x106aa070] ++
  [0x19a4c116, 0x1e376c08, 0x2748774c, 0x34b0bcb5, 0x391c0cb3, 0x4ed8aa4a, 0x5b9cca4f, 0x682e6ff3,
   0x748f82ee, 0x78a5636f, 0x84c87814, 0x8cc70208, 0x90befffa, 0xa4506ceb, 0xbef9a3f7, 0xc67178f2]

/-- SHA-256. -/
def sha256Kind : ShaKind 32 :=
  { top := [2, 13, 22], mid := [6, 11, 25], old := ([7, 18], 3), new := ([17, 19], 10), rounds := shaK
    first := [0x6a09e667, 0xbb67ae85, 0x3c6ef372, 0xa54ff53a, 0x510e527f, 0x9b05688c, 0x1f83d9ab, 0x5be0cd19] }

/-- The digest of a message, 32 bytes. -/
def sha256 (m : List Byte) : List Byte := shaBytes sha256Kind m

end Sys2Proof.Machine
end

