-- ==== Sys2Proof/Machine/StayState.lean ====
section
/-! DEFINITION. The state of the Stay links (spec/15_stay.md), of Trim (spec/17_trim.md) and of the two Ethernet ports. -/

namespace Sys2Proof.Machine

/-! ### Stay -/

/-- What a peer's last LINK_MAP said: links on which the peer is reached, and the readiness of its VCs (R372, R373). -/
structure PeerMap where
  mask : BitVec 12 := 0
  dataReady : Bool := false
  vc3Ready : Bool := false
  deriving DecidableEq, Repr, Inhabited

/-- Link states (Table 15.9). -/
inductive LinkSt where
  | down | training | up | resync | miscabled | disabled
  deriving DecidableEq, Repr, Inhabited

/-- The code of a link state (Table 15.10). -/
def LinkSt.code : LinkSt → Nat
  | .down => 0 | .training => 1 | .up => 2 | .resync => 3 | .miscabled => 4 | .disabled => 5

/-- Training phases (Table 15.7). -/
inductive TrainPhase where
  | detect | eq | lock | init
  deriving DecidableEq, Repr, Inhabited

/-- The lanes in use: all four, or two of them (Table 15.9). -/
inductive Lanes where
  | x4 | low2 | high2
  deriving DecidableEq, Repr, Inhabited

/-- WIDTH of a choice of lanes. -/
def Lanes.width : Lanes → Nat
  | .x4 => 4 | .low2 => 2 | .high2 => 2

/-- A DATA flit in the replay buffer. -/
structure TxFlit where
  seq : Nat
  vc : Nat
  sop : Bool
  eop : Bool
  body : List Byte
  /-- Replays of this flit so far, and MONO_NS of the first: each flit has its own budget (R363). -/
  replays : Nat := 0
  firstAt : Option Nat := none
  deriving DecidableEq, Repr, Inhabited

/-- The counters of Table 15.10 in its order, FLITS_TX to NOROUTE. -/
inductive LinkCnt where
  | flitsTx | flitsRx | fecCorr | fecUncorr | crcErr | replays | resyncs | retrains | flitsLost | protoErr | pktDiscard | noroute
  deriving DecidableEq, Repr, Inhabited

/-- The place of a counter in Table 15.10. -/
def LinkCnt.idx : LinkCnt → Nat
  | .flitsTx => 0 | .flitsRx => 1 | .fecCorr => 2 | .fecUncorr => 3 | .crcErr => 4 | .replays => 5
  | .resyncs => 6 | .retrains => 7 | .flitsLost => 8 | .protoErr => 9 | .pktDiscard => 10 | .noroute => 11

/-- One Stay link. -/
structure Link where
  st : LinkSt := .training
  phase : TrainPhase := .detect
  lanes : Lanes := .x4
  /-- SEQ of the next DATA flit, and the flits sent and not acknowledged, oldest first. -/
  txSeq : Nat := 0
  replay : List TxFlit := []
  /-- The receive lanes found inverted, P for N, in this training; the receiver inverts them back (R49). -/
  rxInv : BitVec 4 := 0
  /-- Flit bytes given to the framer and in no codeword yet, and the codeword count modulo 2^19 (R356). -/
  txBuf : List Byte := []
  txCw : Nat := 0
  /-- SEQ expected next; at least one DATA flit has been accepted (ACK_VALID). -/
  rxSeq : Nat := 0
  ackValid : Bool := false
  /-- MONO_NS of the NACK that the expected flit has not answered. -/
  nackAt : Option Nat := none
  /-- Credits held for sending, and credits to be returned, by VC. -/
  credits : Tab Nat := []
  owed : Tab Nat := []
  /-- Initial credits have been granted since the link-up or resync. -/
  granted : Bool := false
  /-- Bodies received of the packet not yet complete, by VC, in order. -/
  part : Tab (Option (List (List Byte))) := []
  /-- NODE and PORT of the partner's last INIT, and whether it passes the check of R376. -/
  partnerOk : Bool := false
  partner : Option (Nat × Nat) := none
  /-- MONO_NS of retrains, replay starts, codewords over 10 corrections and uncorrectable codewords in their windows. -/
  retrainAt : List Nat := []
  replayAt : List Nat := []
  corrAt : List Nat := []
  uncorrAt : List Nat := []
  cnt : Tab Nat := []
  deriving DecidableEq, Repr, Inhabited

/-- The Stay block. -/
structure Stay where
  links : Tab Link := []
  maps : Tab PeerMap := []
  /-- What this device's last LINK_MAP said; nothing while it sends none (R372). -/
  mapSaid : Option (List Byte) := none
  deriving DecidableEq, Repr, Inhabited

/-! ### Trim -/

/-- A token bucket (R432). Tokens are counted in 1/1,600 byte, so that the fraction is exact. -/
structure Bucket where
  rate : Nat := 0
  burst : Nat := 0
  tok : Int := 0
  deriving DecidableEq, Repr, Inhabited

/-- A queued packet: the bodies of its flits not yet sent on Stay, or its bytes on Ethernet. -/
structure TrimPkt where
  vc : Nat := 0
  started : Bool := false
  bodies : List (List Byte) := []
  frame : List Byte := []
  /-- The frame is the PTP Delay_Req of this sequence number, which the MAC timestamps as it starts. -/
  delayReq : Option Nat := none
  deriving DecidableEq, Repr, Inhabited

/-- One egress queue. -/
structure TrimQ where
  bucket : Bucket := {}
  deficit : Nat := 0
  pkts : List TrimPkt := []
  /-- PFC has paused the priority (R443). -/
  paused : Bool := false
  txBytes : Nat := 0
  txUnits : Nat := 0
  holdUs : Nat := 0
  deriving DecidableEq, Repr, Inhabited

/-- One port's scheduling mode (TRIM_MODE), its own bucket, and the weighted queue whose turn it is. -/
structure TrimPort where
  mode : Nat := 1
  nStrict : Nat := 2
  /-- WEIGHT[0 .. 7]; the Stay defaults of Table 17.2. -/
  weights : List Nat := [1, 1, 2, 2, 4, 4, 0, 0]
  bucket : Bucket := {}
  turn : Nat := 5
  inTurn : Bool := false
  deriving DecidableEq, Repr, Inhabited

/-- A tenant's ingress policer with its counters (Table 17.5). -/
structure Policer where
  bucket : Bucket := {}
  mark : Bool := false
  inBytes : Nat := 0
  oopBytes : Nat := 0
  oopPkts : Nat := 0
  dropped : Nat := 0
  deriving DecidableEq, Repr, Inhabited

/-- The Ethernet defaults of Table 17.2. -/
def ethTrimPort : TrimPort := { weights := [16, 16, 16, 16, 16, 16, 0, 0] }

/-- Trim. Queue q of port p is at 8 p + q. -/
structure Trim where
  ports : Tab TrimPort := [(0, ethTrimPort), (1, ethTrimPort)]
  qs : Tab TrimQ := []
  policers : Tab Policer := []
  /-- Packets that a full queue keeps waiting (R423): the queue and the packet, oldest first. -/
  waiting : List (Nat × TrimPkt) := []
  deriving DecidableEq, Repr, Inhabited

/-! ### Ethernet -/

/-- One Ethernet port. -/
structure EthPort where
  up : Bool := false
  /-- Bytes held in the ingress buffers of priorities 3 and 6, and whether the receiver has paused the priority (R444). -/
  held3 : Nat := 0
  held6 : Nat := 0
  paused3 : Bool := false
  paused6 : Bool := false
  discarded : Nat := 0
  deriving DecidableEq, Repr, Inhabited

end Sys2Proof.Machine
end

