-- ==== Sys2Proof/Machine/State.lean ====
section
/-! DEFINITION. The state of the whole device as plain data, the reasons a step can stop, and the state after reset. -/

namespace Sys2Proof.Machine

/-- Why a step stops with a fault. -/
inductive Fault where
  /-- Raised by no meaning: the spec gives every command an effect, an answer or no effect at all. Safe. -/
  | unreachable
  deriving DecidableEq, Repr, Inhabited

/-- Why a step is refused. -/
inductive Refusal where
  /-- Raised by no meaning: every row of the table has one. Safe: nothing would be claimed of such a row. -/
  | notModelled (mnemonic : String)
  deriving DecidableEq, Repr, Inhabited

/-- Everything the spec gives the device, block by block, and the queue of waiting commands. -/
structure State where
  /-- The fuses (spec/00_scope.md R2, spec/05_registers.md Table 5.6). -/
  fuses : Fuses := {}
  /-- Pins, straps and what the board drives (spec/02_signals_board.md). -/
  pins : Pins := {}
  /-- Supplies, rail controllers, power policy and limiter (spec/03_power_voltage.md). -/
  pow : Power := {}
  /-- Device state, boot, clocks (spec/04_clocks_reset_bringup.md). -/
  dev : Dev := {}
  /-- The Telltale (spec/23_telltale.md). -/
  tt : Telltale := {}
  /-- BAR0 views and pages, mailboxes, sessions, outstanding commands, functions (spec/05_registers.md, spec/06_mailbox_transport.md). -/
  host : HostIf := {}
  /-- The PCIe endpoint (spec/18_host_storage.md). -/
  pcie : Pcie := {}
  /-- The NVMe root port and its drives (spec/18_host_storage.md). -/
  nvme : Nvme := {}
  /-- SMB0 as target, with the messages of SMB1 (spec/24_management.md, spec/06_mailbox_transport.md). -/
  smb0 : Smb0 := {}
  /-- SMB1 as controller (spec/24_management.md). -/
  smb1 : Smb1 := {}
  /-- The console (spec/24_management.md). -/
  uart : Uart := {}
  /-- The test port (spec/24_management.md). -/
  jtag : Jtag := {}
  /-- The time unit (spec/24_management.md). -/
  time : TimeUnit := {}
  /-- The Ratline (spec/24_management.md). -/
  rl : Ratline := {}
  /-- The persistent store in flash (spec/24_management.md). -/
  ps : PStore := {}
  /-- The rack view (spec/25_rack.md). -/
  rack : Rack := {}
  /-- HBM, Mast SRAM, staging SRAM and their pages (spec/13_memory.md). -/
  mem : Memory := {}
  /-- Tiles, Halyards, Sheets and Cleats (spec/08_tiles_sails.md, spec/10_sheets_cleats.md). -/
  comp : Comp := {}
  /-- Regions, models, contexts, requests, batches and dispatches (spec/07_command_catalogue.md, spec/11_compiler_contract.md). -/
  srv : Serve := {}
  /-- The prefix store (spec/14_furl.md). -/
  furl : Furl := {}
  /-- The security block (spec/21_security.md). -/
  sec : Sec := {}
  /-- The Stay links (spec/15_stay.md). -/
  stay : Stay := {}
  /-- Trim (spec/17_trim.md). -/
  trim : Trim := {}
  /-- The Ethernet ports (spec/17_trim.md). -/
  eth : Tab EthPort := []
  /-- Shroud (spec/16_shroud.md). -/
  shr : Shroud := {}
  /-- The Bowsprit (spec/19_bowsprit.md). -/
  bow : Bow := {}
  /-- The Frame engine (spec/20_frame_engine.md). -/
  frame : FrameEng := {}
  /-- Reef (spec/22_reef.md). -/
  reef : Reef := {}
  /-- What the device has sent, oldest first. -/
  out : List Out := []
  /-- The model's own counter of free values drawn (log entry 3). -/
  free : Nat := 0
  /-- The commands that wait, first in, first out. -/
  pending : List Instr := []
  deriving DecidableEq, Repr, Inhabited

/-- The security block at the start of the first boot: its nonce is drawn, MR0 holds the boot ROM and the others are clear (R550). -/
def Sec.first : Sec :=
  { nonce := leBytes 8 (Config.freeValue 0).toNat ++ leBytes 8 (Config.freeValue 1).toNat, drbg := 2
    mr0 := extend mrZero Config.bootRomHash, mr1 := mrZero, mr2 := mrZero, mr3 := mrZero, mr4 := mrZero }

/-- The supplies right after cold reset release: the Voltage reads of ROM_START are out (R62). -/
def Power.first : Power := { r0 := { lastFrame := some .readVoltage }, r1 := { lastFrame := some .readVoltage } }

/-- The machine right after cold reset release: BOOT at ROM_START, every field at its reset value (log entry 1). -/
def State.reset : State := { pow := Power.first, sec := Sec.first, free := 3 }

end Sys2Proof.Machine
end

