-- ==== Sys2Proof/Machine/Ops.lean ====
section
/-! DEFINITION. The named operations every block shares: what the device sends, its function and device states, completions
of commands, and the Telltale's raising of a source with the safe state it may lead to. -/

namespace Sys2Proof.Machine

/-! ### Sending -/

/-- Append one thing the device sends. -/
def emit (o : Out) (s : State) : State := { s with out := s.out ++ [o] }

/-- Draw the next free value: the value and the state that has drawn it. -/
def drawFree (s : State) : W64 × State := (Config.freeValue s.free, { s with free := s.free + 1 })

/-- R450: a request for a function can be issued. -/
def canIssue (fn : Nat) (s : State) : Bool :=
  let p := Tab.get s.pcie.fns fn
  s.pcie.linkUp && p.busMaster && !p.d3hot

/-- What a transfer for a function brings in: nothing when the request cannot be issued (R450). -/
def readHost (fn : Nat) (d : Option (List Byte)) (s : State) : Option (List Byte) :=
  if canIssue fn s then d else none

/-- A function's request uses the translation of an address (Table 18.1: 4,096 in the whole device). When the cache is full the
function's oldest one gives way. -/
def noteAts (fn addr : Nat) (s : State) : State :=
  let p := Tab.get s.pcie.fns fn
  let pg := addr / 4096
  if !p.ats || !canIssue fn s || p.atc.contains pg then s
  else
    let used : Nat := s.pcie.fns.foldl (fun n x => n + x.2.atc.length) 0
    let atc := (if used < 4096 then p.atc else p.atc.drop 1) ++ [pg]
    { s with pcie := { s.pcie with fns := Tab.put s.pcie.fns fn { p with atc := atc } } }

/-- A write to host memory for a function; dropped when it cannot be issued. -/
def writeHost (fn addr : Nat) (bytes : List Byte) (s : State) : State :=
  if canIssue fn s then emit (.hostWrite fn addr bytes) (noteAts fn addr s) else s

/-- R454: an MSI-X message, or its pending bit. -/
def msixRaw (fn vec : Nat) (s : State) : State :=
  let p := Tab.get s.pcie.fns fn
  if p.msixEn && !p.msixFnMask && !p.vecMask.getLsbD vec then
    if canIssue fn s then emit (.msix fn vec (Tab.get p.msgs vec).1 (Tab.get p.msgs vec).2) s else s
  else { s with pcie := { s.pcie with fns := Tab.put s.pcie.fns fn { p with pend := setBit p.pend vec true } } }

/-- A message of any block but the collector: none in SAFE (Table 23.4). -/
def sendMsix (fn vec : Nat) (s : State) : State :=
  if s.dev.mode = .safe then s else msixRaw fn vec s

/-! ### Views, functions and the device state -/

/-- Change one function's BAR0 view. -/
def modView (fn : Nat) (f : FnView → FnView) (s : State) : State :=
  { s with host := { s.host with views := Tab.mod s.host.views fn f } }

/-- The functions that exist now: the PF and the enabled VFs. -/
def liveFns (s : State) : List Nat :=
  0 :: (if s.pcie.vfEnable then (List.range s.pcie.numVfs).map (· + 1) else [])

/-- Set STATE_CHG or FUNC_CHG in one view, with the message of a bit that changes from 0 to 1 (R119). -/
def devEvt (func : Bool) (fn : Nat) (s : State) : State :=
  let v := Tab.get s.host.views fn
  let was := if func then v.funcChg else v.stateChg
  let s1 := modView fn (fun v => if func then { v with funcChg := true } else { v with stateChg := true }) s
  if !was && v.intEn then sendMsix fn v.intVec s1 else s1

/-- R116 and Table 5.7: a change of a function's or of the device's state sets its bit in every view. -/
def devEvtAll (func : Bool) (s : State) : State :=
  (liveFns s).foldl (fun s fn => devEvt func fn s) s

/-- The inline mailbox is served in BOOT: host boot, from HOST_WAIT on (R99). -/
def inlineInBoot (s : State) : Bool := s.pins.straps.toNat % 4 = 1 && 4 ≤ s.dev.stage

/-- The endpoint answers configuration requests with Configuration Retry Status (R38, R98, Table 4.6): in BOOT, but for host boot from
HOST_WAIT on (R99) and for a boot after a warm reset (R90). It ends at READY or DEGRADED (Table 4.7), and not at a halt. -/
def crs (s : State) : Bool := s.dev.mode = .boot && !s.dev.warm && !inlineInBoot s

/-- Move the device to a mode. -/
def setMode (m : DevMode) (s : State) : State :=
  if s.dev.mode = m then s else devEvtAll false { s with dev := { s.dev with mode := m } }

/-- The state of function f of Table 5.4. -/
def fnState (f : Nat) (s : State) : FnState :=
  if f < 16 then Tab.get s.host.fns f else (Tab.get s.host.pages (f - 16)).st

/-- Function f is RUNNING. -/
def fnRunning (f : Nat) (s : State) : Bool := fnState f s = .running

/-- Put function f in a state; a change sets FUNC_CHG (R116). -/
def setFn (f : Nat) (st : FnState) (s : State) : State :=
  if fnState f s = st then s
  else if f < 16 then devEvtAll true { s with host := { s.host with fns := Tab.put s.host.fns f st } }
  else devEvtAll true { s with host := { s.host with pages := Tab.mod s.host.pages (f - 16) (fun p => { p with st := st }) } }

/-- The function behind a mailbox: 0 the PF, m VF m, 16 the tray controller (Sessions). -/
def mbFn (m : Nat) (s : State) : Nat :=
  if m = 16 then 16
  else if 1 ≤ m ∧ m ≤ 15 ∧ s.pcie.vfEnable ∧ m ≤ s.pcie.numVfs then m
  else 0

/-- The PCIe function whose requester ID carries a mailbox's transfers. -/
def mbReq (m : Nat) (s : State) : Nat := if m < 16 then mbFn m s else 0

/-- DEV_NUM (R40). -/
def devNum (s : State) : Nat := 2 * bitsN s.pins.straps.toNat 5 6 + bitsN s.pins.straps.toNat 11 1

/-! ### Completions (Tables 6.3, 6.4) -/

/-- Status codes (Table 6.4). -/
inductive Status where
  | ok | busy | inval | noent | perm | nospc | timedout | fault | again | unsup | stale
  deriving DecidableEq, Repr, Inhabited

/-- The code of a status. -/
def Status.code : Status → Nat
  | .ok => 0 | .busy => 1 | .inval => 2 | .noent => 3 | .perm => 4 | .nospc => 5
  | .timedout => 6 | .fault => 7 | .again => 8 | .unsup => 9 | .stale => 10

/-- How a started command answers: at once, or later through `finish`. -/
inductive Answer where
  | now (st : Status) (detail : Nat) (result : List Byte)
  | later
  deriving DecidableEq, Repr, Inhabited

/-- The checks of Table 7.2 in their order: the first that fails answers, with no effect. -/
def checks : List (Bool × Status × Nat) → (Unit → State × Answer) → State → State × Answer
  | [], k, _ => k ()
  | (bad, st, d) :: cs, k, s => if bad then (s, .now st d []) else checks cs k s

/-- Checks given in groups. -/
def checkAll (gs : List (List (Bool × Status × Nat))) (k : Unit → State × Answer) (s : State) : State × Answer := checks gs.flatten k s

/-- An OK answer with a result. -/
def okWith (result : List Byte) (s : State) : State × Answer := (s, .now .ok 0 result)

/-- The commands whose payload carries RBUF. -/
def hasRbuf (op : Nat) : Bool :=
  op = 0x0002 || op = 0x0009 || op = 0x0A02 || op = 0x0C04 || op = 0x0E01 || op = 0x0E02 || op = 0x0E05

/-- A completion entry, 64 bytes (Table 6.3). -/
def encodeCpl (c : Cpl) : List Byte :=
  leBytes 2 c.tag ++ leBytes 2 c.op ++ leBytes 1 c.status ++ leBytes 1 (b2n c.phase) ++ leBytes 2 c.sqIdx ++
  leBytes 4 c.seq ++ leBytes 2 c.rlen ++ leBytes 2 c.detail ++ padTo 48 (c.result.take 48)

/-- The completion message of a transport without rings: the entry, and the whole of a longer result after it. -/
def cplMessage (c : Cpl) : List Byte :=
  encodeCpl c ++ (if c.result.length > 48 then c.result else [])

/-- The indirect or inline payload of a command. -/
def payloadOf (c : Cmd) : List Byte :=
  if bitN c.flags 2 then c.rd.indirect.getD [] else c.body.take c.plen

/-- The completion of a command. -/
def mkCpl (o : Outst) (st : Status) (detail : Nat) (result : List Byte) : Cpl :=
  { tag := o.cmd.tag, op := o.cmd.op, status := st.code, phase := false, sqIdx := if o.cmd.mb < 16 then o.cmd.sqIdx else 0,
    seq := o.seq, rlen := result.length, detail := detail, result := result }

/-- Change the mailbox record of m. -/
def modMbx (m : Nat) (f : Mbx → Mbx) (s : State) : State :=
  { s with host := { s.host with mbx := Tab.mod s.host.mbx m f } }

/-- The outstanding command of mailbox m with number id. -/
def isRef (m id : Nat) (o : Outst) : Bool := o.cmd.mb = m && o.id = id

/-- The result of a command that writes RBUF (R170): it goes to the buffer, or the transfer fails (R451). -/
def rbufWrite (o : Outst) (c : Cpl) (s : State) : Cpl × State :=
  if hasRbuf o.cmd.op && (o.cmd.mb < 16 || o.cmd.mb = 19) && !c.result.isEmpty then
    if canIssue (mbReq o.cmd.mb s) s then (c, writeHost (mbReq o.cmd.mb s) (fieldN (payloadOf o.cmd) 0 8) c.result s)
    else (mkCpl o .fault 1 [], s)
  else (c, s)

/-- The result of command r is known (R148, R150): it becomes the command's final completion; for a retired SEQ it is discarded
and counted in LATE_CPL. -/
def finish (r : Nat × Nat) (st : Status) (detail : Nat) (result : List Byte) (s : State) : State :=
  if s.host.retired.any (fun x => x.1 = r) then
    modMbx r.1 (fun m => { m with lateCpl := satInc 32 m.lateCpl })
      { s with host := { s.host with retired := s.host.retired.filter (fun x => x.1 ≠ r) } }
  else
    match s.host.cmds.find? (isRef r.1 r.2) with
    | some o =>
      match o.prog with
      | .known _ => s
      | _ =>
        let (c, s1) := rbufWrite o (mkCpl o st detail result) s
        { s1 with host := { s1.host with cmds := s1.host.cmds.map (fun p => if isRef r.1 r.2 p then { p with prog := .known c } else p) } }
    | none => s

/-- Command r is outstanding or retired with its work going on. -/
def refLive (r : Nat × Nat) (s : State) : Bool :=
  s.host.cmds.any (isRef r.1 r.2) || s.host.retired.any (fun x => x.1 = r)

/-! ### Telltale -/

/-- Reserved source IDs (Table 23.1, R599). -/
def srcReserved (src : Nat) : Bool :=
  (0x0EE ≤ src && src ≤ 0x0FF) || src = 0x13F || src = 0x14F || src = 0x16F || (0x186 ≤ src && src ≤ 0x1BE) || 0x1C0 ≤ src

/-- The direct-path sources, whose severity is fixed (Table 23.1). -/
def directPath (src : Nat) : Bool :=
  src = 0x174 || src = 0x17C || src = 0x17E || src = 0x17F || src = 0x180 || src = 0x1BF

/-- Default severities (Table 23.1, and Table 4.1 for the clock losses). -/
def defaultSev (src : Nat) : Sev :=
  if src < 0x0C0 then .info
  else if src < 0x0C8 then .corrected else if src < 0x0D0 then .degraded else if src < 0x0D8 then .info
  else if src < 0x0DA then .corrected else if src < 0x0DC then .degraded
  else if src < 0x0DE then .corrected else if src < 0x0E0 then .degraded
  else if src = 0x0E0 then .corrected else if src = 0x0E1 then .degraded
  else if src = 0x0E2 then .corrected else if src = 0x0E3 then .fatal
  else if src < 0x0E8 then .degraded else if src < 0x0EB then .corrected else if src < 0x0EE then .fatal
  else if src < 0x100 then .info
  else if src < 0x10C then .degraded else if src < 0x118 then .corrected else if src < 0x132 then .degraded
  else if src < 0x134 then .corrected else if src = 0x134 then .corrected
  else if src < 0x137 then .degraded else if src < 0x139 then .info else if src = 0x139 then .corrected
  else if src < 0x13C then .degraded else if src = 0x13C then .corrected else if src < 0x13F then .degraded
  else if src = 0x13F then .info
  else if src < 0x142 then .corrected else if src < 0x14A then .degraded
  else if src < 0x14C then .info else if src < 0x14E then .degraded else if src < 0x15C then .info
  else if src = 0x15C then .degraded else if src < 0x15F then .info else if src = 0x15F then .degraded
  else if src = 0x160 then .info else if src = 0x161 then .degraded else if src = 0x162 then .info
  else if src < 0x165 then .degraded else if src < 0x16C then .fatal else if src < 0x16F then .degraded
  else if src = 0x16F then .info
  else if src < 0x175 then .fatal else if src < 0x179 then .degraded else if src = 0x179 then .fatal
  else if src = 0x17A then .degraded else if src = 0x17B then .info else if src = 0x17C then .fatal
  else if src = 0x17D then .degraded else if src < 0x182 then .fatal else if src = 0x182 then .info
  else if src = 0x183 then .degraded else if src = 0x184 then .info else if src = 0x185 then .degraded
  else if src = 0x1BF then .fatal else .info

/-- The current severity of a source. -/
def sevOf (tt : Telltale) (src : Nat) : Sev := (Tab.get tt.sevs src).getD (defaultSev src)

/-- The number of a severity (Table 23.2). -/
def Sev.code : Sev → Nat
  | .info => 0 | .corrected => 1 | .degraded => 2 | .fatal => 3

/-- How many of the sources below n are set at a severity. -/
def countSev (tt : Telltale) (map : BitVec 448) (v : Sev) : Nat → Nat
  | 0 => 0
  | n + 1 => countSev tt map v n + b2n (map.getLsbD n && sevOf tt n = v)

/-- A set sticky bit whose source has severity DEGRADED or FATAL remains among the sources below n. -/
def anyBad (tt : Telltale) : Nat → Bool
  | 0 => false
  | n + 1 => (tt.sticky.getLsbD n && 2 ≤ (sevOf tt n).code) || anyBad tt n

/-- A domain's clock does not run (R83, Table 4.1). -/
def domainLost (d : Nat) (s : State) : Bool :=
  let r := s.dev.lostRefs
  s.dev.lostPlls.getLsbD d ||
  (if d = 5 || d = 6 then r.getLsbD 2 else if d = 7 then r.getLsbD 1
   else if d = 11 then (if s.pins.straps.getLsbD 4 then r.getLsbD 3 else r.getLsbD 0 || s.dev.lostPlls.getLsbD 9)
   else r.getLsbD 0)

/-- FCLK runs. -/
def fclkRuns (s : State) : Bool := !domainLost 4 s

/-- R709: the sticky map as BAR0 and the SAFE line show it: while FCLK is stopped the mirror's, with the latched direct-path sources. -/
def shownSticky (s : State) : BitVec 448 := if fclkRuns s then s.tt.sticky else s.tt.sticky ||| s.tt.latched

/-- INT_N is driven low (R610), but for the PLB lines, which `intNLow` adds. -/
def ttIntLow (s : State) : Bool := anyBad s.tt 448 || s.dev.mode = .safe

/-! ### Safe state and raising a source -/

/-- Every command outstanding is abandoned: no completion on any transport (Table 6.7, SAFE row). Response packets that already wait on
SMB0 and SMB1, and messages partly assembled there, go with them: Table 6.7 does not speak of them (DESIGN CHOICE; log entry 78). -/
def abandonCommands (s : State) : State :=
  { s with
    host := { s.host with cmds := [], retired := [] }
    smb0 := { s.smb0 with waiting := [], waiting1 := [], assembling := none, partialMsg := [] } }

/-- The SAFE line (R617): the four counts and the sticky map, as the always-on domain's mirror shows them. -/
def safeLine (s : State) : Line :=
  let m := shownSticky s
  .safe (countSev s.tt m .info 448) (countSev s.tt m .corrected 448) (countSev s.tt m .degraded 448)
    (countSev s.tt m .fatal 448) m

/-- A drive whose PERST goes low. -/
def Drive.cut (d : Drive) : Drive := { d with st := .absent, width := 0, rate := 0, cmds := [] }

/-- What Table 23.4 does to the compute dies and their dispatches: issue stops, queued Sail instructions are discarded. -/
def safeCompute (s : State) : State :=
  { s with
    comp := { s.comp with tiles := Tab.mapAll s.comp.tiles (fun _ t => { t with queue := t.queue.filter (·.begun) }) }
    srv := { s.srv with dispatches := Tab.mapAll s.srv.dispatches (fun _ d => { d with live := false }) } }

/-- What Table 23.4 does to the security block: every key table is zeroed, the debug lock is CLOSED. -/
def safeKeys (s : State) : State :=
  { s with
    sec := { s.sec with hbm := [], shr := [], media0 := none, media1 := none, lock := .closed, chal := none }
    shr := { s.shr with conns := Tab.mapAll s.shr.conns (fun _ c => { c with key := [] }) } }

/-- What Table 23.4 does to the other blocks and pins. -/
def safeBlocks (s : State) : State :=
  safeKeys (safeCompute { s with
    pins := { s.pins with nvmePerstN := 0, gpioDir := 0 }
    nvme := { s.nvme with d0 := s.nvme.d0.cut, d1 := s.nvme.d1.cut }
    eth := Tab.mapAll s.eth (fun _ e => { e with up := false })
    smb1 := { s.smb1 with retry := none }
    jtag := if s.jtag.reg = .privateDebug then { s.jtag with reg := .bypass } else s.jtag
    uart := { s.uart with buf := [] } })

/-- Safe-state entry (R612, Table 23.4): every block and pin takes its state there, and the SAFE line is printed once. -/
def safeEntry (s : State) : State :=
  if s.dev.mode = .safe || s.dev.mode = .cold then s
  else
    let s1 := devEvtAll false { s with dev := { s.dev with mode := .safe, gated := true } }
    emit (.uart (lineText (safeLine s1))) (safeBlocks (abandonCommands s1))

/-- Reactions are armed from entry to FW_INIT (R605), and not in SAFE (R615). -/
def reactionArmed (s : State) : Bool :=
  (5 ≤ s.dev.stage) && !(s.dev.mode = .cold) && !(s.dev.mode = .safe)

/-- Start or escalate a reaction at a severity (R605, R606, Table 23.3). -/
def react (v : Sev) (s : State) : State :=
  if reactionArmed s then
    match s.tt.reaction, v with
    | .none, .degraded =>
      let s1 := { s with tt := { s.tt with reaction := .degraded, request := true } }
      if s1.dev.mode = .ready then setMode .degraded s1 else s1
    | .none, .fatal => safeEntry { s with tt := { s.tt with reaction := .fatal } }
    | .degraded, .fatal => safeEntry { s with tt := { s.tt with reaction := .fatal, request := false } }
    | _, _ => s
  else s

/-- Set the sticky bit of a source, with the TT_IRQ message of a bit that changes from 0 to 1 (R119, R600). -/
def setSticky (src : Nat) (s : State) : State :=
  let s1 := { s with tt := { s.tt with sticky := setBit s.tt.sticky src true } }
  if s.tt.irqEn && s.tt.irqSev ≤ (sevOf s.tt src).code then msixRaw 0 s.tt.irqVec s1 else s1

/-- The set bits of a list of sources are those clear before: the sources that start or merge (R606). -/
def newSources (srcs : List Nat) (s : State) : List Nat :=
  srcs.filter (fun i => i < 448 && !srcReserved i && !s.tt.sticky.getLsbD i)

/-- The highest severity of a list of sources. -/
def maxSev (tt : Telltale) : List Nat → Sev
  | [] => .info
  | i :: is => if (maxSev tt is).code ≤ (sevOf tt i).code then sevOf tt i else maxSev tt is

/-- Occurrences of several sources in one FCLK cycle (R600, R605 - R607). Reserved sources have no wires (R599). While FCLK is
stopped the collector takes nothing. -/
def occur (srcs : List Nat) (s : State) : State :=
  if fclkRuns s && !(s.dev.mode = .cold) then
    let new := newSources srcs s
    if new.isEmpty then s else react (maxSev s.tt new) (new.foldl (fun s i => setSticky i s) s)
  else s

/-- The corrected sources that Reef counts (Table 22.1). -/
def ceCounted (src : Nat) : Bool :=
  (0x0C0 ≤ src && src < 0x0C8) || src = 0x0D8 || src = 0x0D9 || src = 0x0DC || src = 0x0DD || src = 0x0E0

/-- Reef notes assertion starts: corrected events of this second, and the links that raise their degrade or failure source. -/
def reefNote (srcs : List Nat) (s : State) : State :=
  let n := (srcs.filter ceCounted).length
  let ls := (srcs.filter (fun i => (0x100 ≤ i && i < 0x10C) || (0x118 ≤ i && i < 0x124))).map (fun i => (i - 0x100) % 12)
  if n = 0 && ls.isEmpty then s
  else { s with reef := { s.reef with
    ce := if n = 0 then s.reef.ce else (s.reef.ce.headD 0 + n) :: s.reef.ce.drop 1
    links := s.reef.links.filter (fun l => !ls.contains l.1) ++ ls.eraseDups.map (fun k => (k, s.time.mono)) } }

/-- Assertion starts of sources that a step of the device raises. -/
def raise (src : Nat) (s : State) : State := occur [src] (reefNote [src] s)

/-- The always-on domain latches a direct-path source; its sticky bit is set at once while FCLK runs (R709). -/
def directLatch (src : Nat) (s : State) : State :=
  let s1 := { s with tt := { s.tt with latched := setBit s.tt.latched src true } }
  if fclkRuns s1 && !s1.tt.sticky.getLsbD src then setSticky src s1 else s1

/-- SAFE whatever the severities and the reaction (R613). -/
def directSafe (s : State) : State := safeEntry { s with tt := { s.tt with reaction := .fatal, request := false } }

/-- A direct-path assertion (R613, R709). -/
def directAssert (src : Nat) (s : State) : State :=
  if s.dev.mode = .cold || !directPath src then s else directSafe (directLatch src s)

/-- Table 23.3: DEGRADED ends when no sticky bit of severity DEGRADED or FATAL remains and no tile is fenced. -/
def recheckMode (s : State) : State :=
  if s.dev.mode = .degraded && !anyBad s.tt 448 && s.dev.fenced = 0 then setMode .ready s else s

/-- The mode that boot or the end of QUARANTINE leads to (Tables 4.7 and 23.3). -/
def goodMode (s : State) : DevMode :=
  if anyBad s.tt 448 || !(s.dev.fenced = 0) then .degraded else .ready

end Sys2Proof.Machine
end

