-- ==== Sys2Proof/Machine/Collector.lean ====
section
/-! DEFINITION. The Telltale: sampling of source pairs, acknowledgement, watchdog, direct path, parity, and its commands
(spec/23_telltale.md, R595 - R619, R709). -/

namespace Sys2Proof.Machine

/-- One FCLK cycle's sample of one pair (R595 - R597): whether it counts as asserted, and the collector's record of it, which a single
equal cycle does not change. -/
def samplePair (p : Pair) (s : State) : Bool × State :=
  if 448 ≤ p.src || srcReserved p.src then (false, s)
  else
    let eq := p.p == p.n
    let second := eq && s.tt.equalPrev.getLsbD p.src
    let asserted := (p.p && !p.n) || second
    (asserted, { s with tt := { s.tt with
      equalPrev := setBit s.tt.equalPrev p.src eq
      held := if eq && !second then s.tt.held else setBit s.tt.held p.src asserted
      wiring := if second then setBit s.tt.wiring p.src true else s.tt.wiring } })

/-- All samples of the cycle: the asserted sources, and the state. -/
def samplePairs : List Pair → State → List Nat × State
  | [], s => ([], s)
  | p :: ps, s =>
    let (a, s1) := samplePair p s
    let (l, s2) := samplePairs ps s1
    (if a then p.src :: l else l, s2)

/-- The cycle's occurrences: those of direct-path sources act on the direct path, the others in the collector. -/
def ttSample (ps : List Pair) (s : State) : State :=
  if fclkRuns s && !(s.dev.mode = .cold) then
    let (l, s0) := samplePairs ps s
    let s1 := reefNote (l.filter (fun i => !s.tt.held.getLsbD i)) s0
    let ds := l.filter directPath
    let s2 := occur (l.filter (fun i => !directPath i)) (ds.foldl (fun s i => directLatch i s) s1)
    if ds.isEmpty then s2 else directSafe s2
  else s

/-- Masthead's acknowledgement ends a DEGRADED reaction and receives the sticky map (R608). -/
def ttAck (s : State) : State :=
  if s.tt.reaction = .degraded then
    { s with tt := { s.tt with reaction := .none, request := false, ackMap := s.tt.sticky } }
  else s

/-- 10 ms without an acknowledgement (R609). -/
def ttWatchdog (s : State) : State := if s.tt.reaction = .degraded then raise 0x181 s else s

/-- Clear sticky and wiring bits by masks (R13, R118, R600); an event of the same cycle leaves its bit set. Clearing may return
DEGRADED to READY. -/
def ttClearBits (st wi : BitVec 448) (s : State) : State :=
  recheckMode { s with tt := { s.tt with sticky := s.tt.sticky &&& ~~~st, wiring := s.tt.wiring &&& ~~~wi } }

/-- The word at index k of a 448-bit map placed back into the map. -/
def wordMask (k : Nat) (v : W32) : BitVec 448 := (v.setWidth 448) <<< (32 * k)

/-- TT_SEVERITY (R193, R603, R604). -/
def doTtSeverity (c : Cmd) (_r : Nat × Nat) (s : State) : State × Answer :=
  let p := payloadOf c
  let src := fieldN p 0 2
  let v := fieldN p 2 1
  let sev : Sev := if v = 0 then .info else if v = 1 then .corrected else if v = 2 then .degraded else .fatal
  checks [(0x1C0 ≤ src || srcReserved src, .inval, 8), (directPath src || 4 ≤ v, .inval, 10)]
    (fun _ => okWith [] (recheckMode { s with tt := { s.tt with
      sevs := Tab.put s.tt.sevs src (if sev = defaultSev src then none else some sev) } })) s

/-- MAX_SEV (R601). -/
def maxSevCode (s : State) : Nat :=
  let m := shownSticky s
  if countSev s.tt m .fatal 448 ≠ 0 then 3 else if countSev s.tt m .degraded 448 ≠ 0 then 2
  else if countSev s.tt m .corrected 448 ≠ 0 then 1 else 0

/-- TT_READ: 128 bytes. -/
def doTtRead (_c : Cmd) (_r : Nat × Nat) (s : State) : State × Answer :=
  let m := shownSticky s
  okWith (leBytes 56 s.tt.sticky.toNat ++ leBytes 56 s.tt.wiring.toNat ++ leBytes 2 (countSev s.tt m .info 448) ++
    leBytes 2 (countSev s.tt m .corrected 448) ++ leBytes 2 (countSev s.tt m .degraded 448) ++
    leBytes 2 (countSev s.tt m .fatal 448) ++ leBytes 1 (maxSevCode s) ++ leBytes 7 0) s

/-- TT_CLEAR (R600); a source that occurs in the same cycle leaves its bit set (R13). -/
def doTtClear (c : Cmd) (_r : Nat × Nat) (s : State) : State × Answer :=
  let p := payloadOf c
  let src := fieldN p 0 2
  let f := fieldN p 2 1
  let mask : BitVec 448 := if src = 0xFFFF then BitVec.allOnes 448 else BitVec.ofNat 448 (2 ^ src)
  checks [(!(src = 0xFFFF) && (0x1C0 ≤ src || srcReserved src), .inval, 8), (4 ≤ f, .inval, 10)]
    (fun _ => okWith [] (occur (c.rd.recur.filter (fun i => i < 448 && !srcReserved i))
      (ttClearBits (if bitN f 0 then mask else 0) (if bitN f 1 then mask else 0) s))) s

end Sys2Proof.Machine
end

