-- ==== Sys2Proof/Machine/Power.lean ====
section
/-! DEFINITION. Supplies, AVSBus, the rail controllers, the adaptive loop and the power limiter
(spec/03_power_voltage.md, R50 - R76). -/

namespace Sys2Proof.Machine

/-- The fused maximum tile clock (R2, Table 0.1). -/
def fMax (s : State) : Nat := if s.fuses.is9612 then 1600 else 2000

/-- The order code's maximum sustained power. -/
def pMax (s : State) : Nat := if s.fuses.is9612 then 950 else 1200

/-- The rail of a die. -/
def railOf (die : Nat) (s : State) : Rail := if die = 0 then s.pow.r0 else s.pow.r1

/-- Replace the rail of a die. -/
def setRail (die : Nat) (r : Rail) (s : State) : State :=
  { s with pow := if die = 0 then { s.pow with r0 := r } else { s.pow with r1 := r } }

/-- The fuses of a die. -/
def dieFuse (die : Nat) (s : State) : DieFuse := if die = 0 then s.fuses.m0 else s.fuses.m1

/-- Vreq(f) = Vnom(f) + o. -/
def vreq (die : Nat) (s : State) (o : Int) (f : Nat) : Int := ((dieFuse die s).vnom.getD ((f - 800) / 200) 900 : Nat) + o

/-- fsup(V): the highest operating point whose Vreq is at most V; the lowest point when none is. -/
def fsup (die : Nat) (s : State) (v : Nat) : Nat :=
  ([1000, 1200, 1400, 1600, 1800, 2000].filter (fun f => f ≤ fMax s && vreq die s (railOf die s).ofs f ≤ (v : Int))).foldl max 800

/-- The frequency the policy requests of a die; 800 MHz until READY. -/
def reqF (die : Nat) (s : State) : Nat :=
  if s.dev.mode = .boot then 800 else if die = 0 then s.pow.policy.freq0 else s.pow.policy.freq1

/-- The desired point (fd, Vt) of a die. -/
def desired (die : Nat) (s : State) : Nat × Nat :=
  let p := s.pow.policy
  let r := railOf die s
  let fd := min (min (reqF die s) r.limF) (min (fsup die s p.vmax) (fMax s))
  (fd, max p.vmin (min p.vmax (vreq die s r.ofs fd).toNat))

/-- Send a frame on the AVSBus of a die. -/
def avsSend (die : Nat) (f : AvsFrame) (s : State) : State :=
  emit (.avs die f) (setRail die { railOf die s with lastFrame := some f, repeats := 0 } s)

/-- Begin a transition from STEADY (Table 3.7, first three rows; R64). -/
def railStart (die : Nat) (w : Nat × Nat) (s : State) : State :=
  let r := { railOf die s with fd := w.1, vt := w.2 }
  if w.1 < r.f then setRail die { r with st := .lowerF, switching := some w.1, touched := true } s
  else if w.2 ≠ r.v then
    avsSend die (.writeVoltage w.2) (setRail die { r with st := .slew, repeated := false, touched := true } s)
  else if r.f < w.1 then setRail die { r with st := .raiseF, switching := some w.1, touched := true } s
  else s

/-- Entry to STEADY: a pending request that differs from the current point is taken. -/
def railSteady (die : Nat) (s : State) : State :=
  let r := railOf die s
  let s1 := setRail die { r with st := .steady, pend := none } s
  match r.pend with
  | some w => if w = (r.f, r.v) then s1 else railStart die w s1
  | none => s1

/-- The rails are under control: from FW_INIT, and not in SAFE (Tables 4.6 and 23.4). -/
def railsActive (s : State) : Bool :=
  5 ≤ s.dev.stage && !(s.dev.mode = .cold) && !(s.dev.mode = .safe)

/-- Frames that read go out on the AVSBus: from the end of ROM_START (Table 4.6), and not in SAFE. -/
def avsReads (s : State) : Bool :=
  2 ≤ s.dev.stage && !(s.dev.mode = .cold) && !(s.dev.mode = .safe)

/-- The desired point of a die is formed anew; a change drives the controller or becomes the pending request (Table 3.7). -/
def reform (die : Nat) (s : State) : State :=
  let w := desired die s
  let r := railOf die s
  if !railsActive s || r.want = w then s
  else
    let s1 := setRail die { r with want := w } s
    match r.st with
    | .steady => if w = (r.f, r.v) then s1 else railStart die w s1
    | .held => if w.1 < r.switching.getD r.f then setRail die { r with want := w, switching := some w.1 } s else s1
    | _ => setRail die { r with want := w, pend := some w } s

/-- Both dies. -/
def reformAll (s : State) : State := reform 1 (reform 0 s)

/-- A YCLK switch completes (Table 3.7). -/
def switchDone (die : Nat) (s : State) : State :=
  let r := railOf die s
  match r.switching with
  | none => s
  | some g =>
    let r1 := { r with f := g, switching := none }
    match r.st with
    | .lowerF =>
      if r.vt ≠ r.v then
        avsSend die (.writeVoltage r.vt) (setRail die { r1 with st := .slew, repeated := false } s)
      else railSteady die (setRail die r1 s)
    | .raiseF => railSteady die (setRail die r1 s)
    | _ => setRail die r1 s

/-- A status read answers; VDone ends a slew (R65, Table 3.7). -/
def statusRead (die : Nat) (vdone : Bool) (s : State) : State :=
  let r := { railOf die s with repeats := 0 }
  if r.st = .slew && vdone then
    let r1 := { r with v := r.vt }
    if r.f < r.fd then setRail die { r1 with st := .settle } s else railSteady die (setRail die r1 s)
  else setRail die r s

/-- A periodic read of Table 3.4: its frame, and what the regulator answered. -/
def avsPoll (die : Nat) (a : AvsRead) (s : State) : State :=
  match a with
  | .status vdone => statusRead die vdone (avsSend die .readStatus s)
  | .current ma =>
    let s1 := avsSend die .readCurrent s
    setRail die { railOf die s1 with milliamp := ma } s1
  | .temperature t =>
    let s1 := avsSend die .readTemperature s
    setRail die { railOf die s1 with temp := t } s1

/-- 500 us of a slew without VDone: one repeat, then HELD at a frequency both voltages support (Table 3.7, R67), and not above the fd of
the newest desired point (R68). What becomes of a pending request on entry to HELD Table 3.7 leaves open: it is discarded, so its voltage
is never written (DESIGN CHOICE; log entry 77). -/
def slewTimeout (die : Nat) (s : State) : State :=
  let r := railOf die s
  if r.st = .slew then
    if r.repeated then
      raise (0x16C + die)
        (setRail die { r with st := .held, pend := none, switching := some (min (desired die s).1 (fsup die s (min r.v r.vt))) } s)
    else avsSend die (.writeVoltage r.vt) (setRail die { r with repeated := true } s)
  else s

/-- The settle timer expires. YCLK is raised only to a frequency that the voltage of the last VDone supports (R65); an offset that AVS_EN
has put back to 0 meanwhile can ask for more, and the pending request then goes on from STEADY. -/
def settleDone (die : Nat) (s : State) : State :=
  let r := railOf die s
  if !(r.st = .settle) then s
  else if vreq die s r.ofs r.fd ≤ (r.v : Int) then setRail die { r with st := .raiseF, switching := some r.fd } s
  else railSteady die s

/-- R66: a frame that failed is repeated up to 3 times; then the rail goes on as if it had been sent. -/
def frameError (die : Nat) (s : State) : State :=
  let r := railOf die s
  match r.lastFrame with
  | none => s
  | some f =>
    if r.repeats < 3 then emit (.avs die f) (setRail die { r with repeats := r.repeats + 1 } s)
    else setRail die { r with repeats := 0, lastFrame := none } s

/-- Move an offset by one 5 mV step toward a bound, and not at all where the step would pass it (R70), inside -60 .. +30 (R68). -/
def stepToward (o b : Int) : Int :=
  max (-60) (min 30 (if o + 5 ≤ b then o + 5 else if b ≤ o - 5 then o - 5 else o))

/-- One period of the adaptive loop (R69, R70). `steps` is the sign of the move the timing-margin monitors ask for. -/
def loopPeriod (die : Nat) (steps : Int) (s : State) : State :=
  let r := railOf die s
  if !railsActive s then s
  else if r.touched || !(r.st = .steady) then
    setRail die { r with touched := !(r.st = .steady) } s
  else if !s.pow.policy.avsEn then reform die (setRail die { r with ofs := 0 } s)
  else
    let prop := max (-60) (min 30 (r.ofs + 5 * steps.sign))
    let vp := vreq die s prop r.f
    let lo : Int := s.pow.policy.vmin
    let hi : Int := s.pow.policy.vmax
    let vn := vreq die s 0 r.f
    if vp < lo then
      reform die (setRail die { r with vminPin := satInc 32 r.vminPin, ofs := stepToward r.ofs (lo - vn) } s)
    else if hi < vp then
      reform die (setRail die { r with vmaxPin := satInc 32 r.vmaxPin, ofs := stepToward r.ofs (hi - vn) } s)
    else reform die (setRail die { r with ofs := prop } s)

/-- Core power of a die in microwatt. -/
def coreUw (die : Nat) (s : State) : Nat := (railOf die s).v * (railOf die s).milliamp

/-- Lower the limiter's frequency of a die by one step. -/
def limLower (die : Nat) (s : State) : State :=
  let r := railOf die s
  setRail die { r with limF := max 800 (min r.limF (desired die s).1 - 200), fallLim := false } s

/-- Raise the limiter's frequency of a die by one step. -/
def limRaise (die : Nat) (s : State) : State :=
  let r := railOf die s
  setRail die { r with limF := min (fMax s) (r.limF + 200) } s

/-- R71, R72: the limiter's one action of a period. -/
def limAct (total : Nat) (s : State) : State :=
  let cap := s.pow.policy.pcap * 1000000
  if s.pins.pwrFallen then s
  else if cap < total then (if coreUw 0 s < coreUw 1 s then limLower 1 s else limLower 0 s)
  else if total * 100 < cap * 98 then
    match decide ((railOf 0 s).f < reqF 0 s), decide ((railOf 1 s).f < reqF 1 s) with
    | true, true => if coreUw 1 s < coreUw 0 s then limRaise 1 s else limRaise 0 s
    | true, false => limRaise 0 s
    | false, true => limRaise 1 s
    | false, false => s
  else s

/-- The cap holds a die below its requested frequency in a limiter period: the limiter's frequency is below what the request and
fsup(Vmax) allow, and it comes from the cap. While the die climbs after a power failure (R61) the cap holds it only in a period whose
measure forbids the raise (R72). -/
def capHolds (total die : Nat) (s : State) : Bool :=
  let r := railOf die s
  decide (r.limF < min (reqF die s) (fsup die s s.pow.policy.vmax)) &&
    (!r.fallLim || decide (s.pow.policy.pcap * 1000000 * 98 ≤ total * 100))

/-- fsup(Vmax) set fd in this limiter period (Table 3.6, VMAX_PIN). -/
def vmaxPinned (die : Nat) (s : State) : State :=
  let r := railOf die s
  if fsup die s s.pow.policy.vmax < min (min (reqF die s) r.limF) (fMax s) then
    setRail die { r with vmaxPin := satInc 32 r.vmaxPin } s
  else s

/-- One limiter period (R71 - R73). PWR_W is the measure in whole watts, the fraction dropped, and CAP_PIN is judged after the period's
own raise or lowering: Table 3.6 gives no rounding and no moment (DESIGN CHOICE; log entry 77). -/
def limiterPeriod (s : State) : State :=
  if !railsActive s then s
  else
    let total := coreUw 0 s + coreUw 1 s + s.pow.policy.noncore * 1000000
    let s1 := limAct total { s with pow := { s.pow with pwrW := total / 1000000 } }
    let capped := capHolds total 0 s1 || capHolds total 1 s1
    let floor := s.pow.policy.pcap * 1000000 < total && (railOf 0 s).f = 800 && (railOf 1 s).f = 800
    let s2 := { s1 with pow := { s1.pow with
      capPin := if capped && !s.pins.pwrFallen then satInc 32 s1.pow.capPin else s1.pow.capPin
      floorPin := if floor then satInc 32 s1.pow.floorPin else s1.pow.floorPin } }
    let s3 := reformAll (vmaxPinned 1 (vmaxPinned 0 s2))
    if floor then raise 0x16E s3 else s3

/-- PWR_FAIL_N low for a number of ACLK cycles (R58 - R60). -/
def pwrFall (cycles : Nat) (s : State) : State :=
  let s1 := { s with pins := { s.pins with pwrFailN := false } }
  if cycles < 4 then s1
  else
    let s2 := { s1 with pins := { s1.pins with pwrFallen := true } }
    reformAll (setRail 1 { s2.pow.r1 with limF := 800, fallLim := true } (setRail 0 { s2.pow.r0 with limF := 800, fallLim := true } s2))

/-- 10 ms of unbroken high PWR_FAIL_N (R61). -/
def pwrRecover (s : State) : State :=
  if s.pins.pwrFailN && s.pins.pwrFallen then { s with pins := { s.pins with pwrFallen := false } } else s

/-- The watched rails, by source offset from 0x165, as rows of Table 3.1. -/
def watchedRow (k : Nat) : Nat := [0, 1, 2, 3, 5, 4, 7].getD k 0

/-- The watched rails among rows of Table 3.1 (R54 checks no other). -/
def watchedRows (rows : List Nat) : List Nat := rows.filter (fun k => (List.range 7).any (fun j => watchedRow j = k))

/-! ### POWER_POLICY and POWER_STATUS -/

/-- The policy record's bytes (Table 3.5). -/
def policyBytes (p : Policy) : List Byte :=
  leBytes 2 p.vmin ++ leBytes 2 p.vmax ++ leBytes 2 p.pcap ++ leBytes 2 p.noncore ++ leBytes 2 p.freq0 ++ leBytes 2 p.freq1 ++
  leBytes 1 (b2n p.avsEn) ++ leBytes 3 0

/-- A frequency the record may hold. -/
def freqOk (s : State) (f : Nat) : Bool := 800 ≤ f && f ≤ fMax s && f % 200 = 0

/-- POWER_POLICY (R74, R75, R188, R3): the record read, or written whole. AVS_EN = 0 puts o to 0 in one jump, also while the rail is in
a transition: Table 3.5 says that o is held at 0 and not how it gets there (DESIGN CHOICE; log entry 77). -/
def doPowerPolicy (c : Cmd) (_r : Nat × Nat) (s : State) : State × Answer :=
  let p := payloadOf c
  if c.plen = 0 then okWith (policyBytes s.pow.policy) s
  else
    let q : Policy := { vmin := fieldN p 0 2, vmax := fieldN p 2 2, pcap := fieldN p 4 2, noncore := fieldN p 6 2,
                        freq0 := fieldN p 8 2, freq1 := fieldN p 10 2, avsEn := bitN (fieldN p 12 1) 0 }
    checks
      [ (q.vmin < 600 || 900 < q.vmin, .inval, 8), (q.vmax < q.vmin || 900 < q.vmax, .inval, 10),
        (q.pcap < 400 || pMax s < q.pcap, .inval, 12), (q.noncore < 100 || 400 < q.noncore, .inval, 14),
        (!freqOk s q.freq0, .inval, 16), (!freqOk s q.freq1, .inval, 18),
        (2 ≤ fieldN p 12 1, .inval, 20), (!zeroAt p 13 1, .inval, 21), (!zeroAt p 14 1, .inval, 22), (!zeroAt p 15 1, .inval, 23) ]
      (fun _ =>
        let s1 := { s with pow := { s.pow with policy := q } }
        let s2 := if q.avsEn then s1 else
          { s1 with pow := { s1.pow with r0 := { s1.pow.r0 with ofs := 0 }, r1 := { s1.pow.r1 with ofs := 0 } } }
        okWith [] (reformAll s2)) s

/-- RAIL_STATE's code. -/
def RailState.code : RailState → Nat
  | .steady => 0 | .lowerF => 1 | .slew => 2 | .settle => 3 | .raiseF => 4 | .held => 5

/-- The power status record (Table 3.6). -/
def powerStatus (s : State) : List Byte :=
  let a := s.pow.r0
  let b := s.pow.r1
  leBytes 2 a.f ++ leBytes 2 b.f ++ leBytes 2 a.v ++ leBytes 2 b.v ++ leBytesInt 1 a.ofs ++ leBytesInt 1 b.ofs ++
  leBytes 2 s.pow.pwrW ++ leBytes 2 (a.st.code + 8 * b.st.code) ++ leBytes 2 (max a.temp b.temp) ++
  leBytes 4 a.vminPin ++ leBytes 4 b.vminPin ++ leBytes 4 a.vmaxPin ++ leBytes 4 b.vmaxPin ++
  leBytes 4 s.pow.capPin ++ leBytes 4 s.pow.floorPin

/-- Clear the pinned counters (R76). -/
def clearPins (s : State) : State :=
  { s with pow := { s.pow with capPin := 0, floorPin := 0,
                               r0 := { s.pow.r0 with vminPin := 0, vmaxPin := 0 }
                               r1 := { s.pow.r1 with vminPin := 0, vmaxPin := 0 } } }

/-- POWER_STATUS (R76). -/
def doPowerStatus (c : Cmd) (_r : Nat × Nat) (s : State) : State × Answer :=
  let f := fieldN (payloadOf c) 0 1
  checks [(2 ≤ f, .inval, 8)]
    (fun _ => okWith (powerStatus s) (if bitN f 0 then clearPins s else s)) s

end Sys2Proof.Machine
end

