-- ==== Sys2Proof/Machine/Regs.lean ====
section
/-! DEFINITION. BAR0, the host control page (spec/05_registers.md, R102 - R131): what each function's view maps, what a read
returns, and what a write does. -/

namespace Sys2Proof.Machine

/-! ### Views -/

/-- The mailbox whose doorbell page holds an offset. Table 5.1 gives a page a stride of 0x1000 and Table 5.11 its last register at 0x02C:
the offsets 0x030 to 0xFFF of a page are taken as unmapped (DESIGN CHOICE; log entry 78). -/
def pageOf (off : Nat) : Option Nat :=
  if 0x10000 ≤ off ∧ off < 0x20000 ∧ off % 0x1000 < 0x30 then some ((off - 0x10000) / 0x1000) else none

/-- Table 5.2: the offset lies in a block that the function's view maps. -/
def mapped (fn off : Nat) (s : State) : Bool :=
  if off < 0x140 then true
  else if 0x2000 ≤ off ∧ off < 0x2240 then fn = 0
  else if 0x3000 ≤ off ∧ off < 0x3030 then fn = 0 || off < 0x300C
  else if 0x4000 ≤ off ∧ off < 0x40C0 then fn = 0
  else match pageOf off with
    | some m => mbFn m s = fn
    | none => false

/-- R90, R99, R131: the offset reads as usual in this device state; otherwise it reads zero. -/
def readable (off : Nat) (s : State) : Bool :=
  match s.dev.mode with
  | .cold => false
  | .boot => off < 0x140 || (0x4000 ≤ off && off < 0x40C0 && inlineInBoot s)
  | .safe => off < 0x140 || (0x2000 ≤ off && off < 0x2240) || (0x3000 ≤ off && off < 0x3030)
  | _ => true

/-- R90, R99, R131: a write of the offset takes effect in this device state. -/
def writable (off : Nat) (s : State) : Bool :=
  match s.dev.mode with
  | .cold => false
  | .boot => off < 0x140 || (0x4000 ≤ off && off < 0x40C0 && inlineInBoot s)
  | .safe => off < 0x140 || (0x2000 ≤ off && off < 0x2100)
  | _ => true

/-! ### Reads -/

/-- A 32-bit register of the number of a field list. -/
def w32 (v : Nat) : W32 := BitVec.ofNat 32 v

/-- The code of a device state (Table 5.7). -/
def DevMode.code : DevMode → Nat
  | .cold => 0 | .boot => 1 | .ready => 2 | .degraded => 3 | .quarantine => 4 | .safe => 5

/-- The code of a function state (Table 5.7). -/
def FnState.code : FnState → Nat
  | .stopped => 0 | .starting => 1 | .running => 2 | .stopping => 3

/-- The fuses of die d (0 M0, 1 M1, 2 RG) as they read now (R120). -/
def dieShown (d : Nat) (s : State) : DieFuse :=
  if s.dev.fuseRead then (if d = 0 then s.fuses.m0 else if d = 1 then s.fuses.m1 else s.fuses.rg)
  else { lot := [0, 0, 0, 0, 0, 0] }

/-- PKG_SERIAL as it reads now. -/
def serialShown (s : State) : Nat := if s.dev.fuseRead then s.fuses.serial else 0

/-- Identity (Table 5.6). -/
def readIdentity (off : Nat) (s : State) : Nat :=
  let fw := s.dev.fwShown
  if off = 0x000 then 0x0039564B
  else if off = 0x004 then 0x000300B0
  else if off = 0x008 then (if s.dev.fuseRead then fMax s + pMax s * 65536 else 0)
  else if off = 0x00C then (if fw then s.dev.fwPatch + s.dev.fwMinor * 256 + s.dev.fwMajor * 65536 + s.dev.slot * 16777216 else 0)
  else if off = 0x010 then serialShown s % 2 ^ 32
  else if off = 0x014 then serialShown s / 2 ^ 32 % 2 ^ 32
  else if 0x020 ≤ off ∧ off < 0x050 then
    let d := (off - 0x020) / 16
    let f := dieShown d s
    if off % 16 = 0 then leNat (f.lot.take 4)
    else if off % 16 = 4 then leNat ((f.lot.drop 4).take 2)
    else if off % 16 = 8 then f.wafer % 32 + f.x * 256 + f.y * 65536 + d * 16777216
    else 0
  else 0

/-- Two bits per function, 16 functions from `base`. -/
def fnStates (base : Nat) (s : State) : Nat :=
  (List.range 16).foldl (fun a k => a + (fnState (base + k) s).code * 4 ^ k) 0

/-- Device status (Table 5.7). -/
def readDevStatus (fn off : Nat) (s : State) : Nat :=
  let d := s.dev
  let v := Tab.get s.host.views fn
  if off = 0x100 then d.mode.code + d.stage * 256 + b2n d.fail * 32768 + d.fault * 65536 + d.cause * 16777216
  else if off = 0x104 then s.pins.straps.toNat + devNum s * 65536
  else if off = 0x108 then popcount d.fenced 128
  else if 0x110 ≤ off ∧ off < 0x120 then d.fenced.toNat / 2 ^ (8 * (off - 0x110)) % 2 ^ 32
  else if off = 0x120 then fnStates 0 s
  else if off = 0x124 then fnStates 16 s
  else if off = 0x130 then d.heartbeat.toNat
  else if off = 0x134 then b2n v.accUnmapped + 2 * b2n v.accSize + 4 * b2n v.liveWr
  else if off = 0x138 then b2n v.stateChg + 2 * b2n v.funcChg
  else if off = 0x13C then b2n v.intEn + v.intVec * 256
  else 0

/-- Telltale summary (Table 5.8). -/
def readTelltale (off : Nat) (s : State) : Nat :=
  let m := shownSticky s
  let t := s.tt
  if off = 0x2000 then maxSevCode s + 4 * b2n (!(m = 0)) + 8 * b2n (!(t.wiring = 0))
  else if off = 0x2004 then countSev t m .info 448 + countSev t m .corrected 448 * 65536
  else if off = 0x2008 then countSev t m .degraded 448 + countSev t m .fatal 448 * 65536
  else if off = 0x200C then t.irqSev + 4 * b2n t.irqEn + t.irqVec * 256
  else if 0x2100 ≤ off ∧ off < 0x2138 then m.toNat / 2 ^ (8 * (off - 0x2100)) % 2 ^ 32
  else if 0x2200 ≤ off ∧ off < 0x2238 then t.wiring.toNat / 2 ^ (8 * (off - 0x2200)) % 2 ^ 32
  else 0

/-- Time (Table 5.9). TOD_SET and TOD_STEP are write-only and read zero. -/
def readTime (fn off : Nat) (s : State) : Nat :=
  let t := s.time
  let sh := (Tab.get s.host.views fn).secShadow
  if off = 0x3000 then t.ns
  else if off = 0x3004 then sh % 2 ^ 32
  else if off = 0x3008 then sh / 2 ^ 32 % 2 ^ 16
  else if off = 0x3024 then (t.adjPpb % (2 ^ 32 : Int)).toNat
  else if off = 0x3028 then b2n t.synced + 2 * b2n t.setInval + 4 * b2n t.wrIgn + 8 * b2n (!(fnState 0x0A s = .stopped))
  else 0

/-- A 32-bit word of a register buffer. -/
def bufWord (t : Tab Byte) (off : Nat) : Nat := leNat (Tab.getList t off 4)

/-- Inline mailbox (Table 5.10). -/
def readInline (off : Nat) (s : State) : Nat :=
  let i := s.host.inl
  if off < 0x4040 then bufWord i.cmd (off - 0x4000)
  else if off = 0x4044 then b2n i.busy + 2 * b2n i.done + i.status * 256
  else if 0x4080 ≤ off ∧ off < 0x40C0 then bufWord i.cpl (off - 0x4080)
  else 0

/-- Doorbell page m (Table 5.11). -/
def readPage (m off : Nat) (s : State) : Nat :=
  let p := Tab.get s.host.pages m
  if off = 0x000 then p.ctl.toNat
  else if off = 0x004 then
    p.st.code + 8 * b2n (Tab.get s.host.mbx m).session.isSome + 16 * b2n p.startInval + 32 * b2n p.sqErr + 64 * b2n p.cqFull +
      128 * b2n p.ringFault
  else if off = 0x008 then p.sizes.toNat
  else if off = 0x010 then p.sqBase.toNat % 2 ^ 32
  else if off = 0x014 then p.sqBase.toNat / 2 ^ 32
  else if off = 0x018 then p.cqBase.toNat % 2 ^ 32
  else if off = 0x01C then p.cqBase.toNat / 2 ^ 32
  else if off = 0x020 then p.sqTail
  else if off = 0x024 then p.sqHead
  else if off = 0x028 then p.cqTail
  else if off = 0x02C then p.cqHead
  else 0

/-- What a 32-bit read of BAR0 returns (R102, R104); its only side effects are `unmappedAccess` and `latchSeconds`. -/
def bar0Read (fn off : Nat) (s : State) : W32 :=
  if !readable off s || !mapped fn off s then 0
  else if off < 0x100 then w32 (readIdentity off s)
  else if off < 0x140 then w32 (readDevStatus fn off s)
  else if off < 0x2240 then w32 (readTelltale off s)
  else if off < 0x3030 then w32 (readTime fn off s)
  else if off < 0x40C0 then w32 (readInline off s)
  else match pageOf off with
    | some m => w32 (readPage m (off % 0x1000) s)
    | none => 0

/-- A read of n bytes returns those bytes of its registers, all from one instant (R105, R106). -/
def bar0ReadBytes (fn off n : Nat) (s : State) : List Byte :=
  (List.range n).map (fun i => BitVec.ofNat 8 ((bar0Read fn ((off + i) / 4 * 4) s).toNat / 256 ^ ((off + i) % 4)))

/-- The registers that n bytes at an offset touch. -/
def regsOf (off n : Nat) : List Nat := (List.range ((off % 4 + n + 3) / 4)).map (fun k => off / 4 * 4 + 4 * k)

/-- R104: an access the view does not map sets ACC_UNMAPPED of the function that made it. -/
def unmappedAccess (fn off : Nat) (s : State) : State :=
  if s.dev.mode = .cold || mapped fn off s then s else modView fn (fun v => { v with accUnmapped := true }) s

/-- R123: a read of TOD_NS latches the seconds of the same instant. -/
def latchSeconds (fn : Nat) (s : State) : State :=
  if readable 0x3000 s then modView fn (fun v => { v with secShadow := s.time.sec }) s else s

/-! ### Writes -/

/-- A write to SQ_TAIL (R129). -/
def writeSqTail (m v : Nat) (s : State) : State :=
  let p := Tab.get s.host.pages m
  let x := v % 4096
  let p1 := if x < 2 ^ (p.sizes.toNat % 16) then { p with sqTail := x } else { p with sqErr := true }
  { s with host := { s.host with pages := Tab.put s.host.pages m p1 } }

/-- A write to CQ_HEAD (R143). -/
def writeCqHead (m v : Nat) (s : State) : State :=
  let p := Tab.get s.host.pages m
  let x := v % 4096
  let p1 := if x < 2 ^ (bitsN p.sizes.toNat 8 4) then { p with cqHead := x } else p
  { s with host := { s.host with pages := Tab.put s.host.pages m p1 } }

/-- Change page m. -/
def modPage (m : Nat) (f : Page → Page) (s : State) : State :=
  { s with host := { s.host with pages := Tab.mod s.host.pages m f } }

/-- What the bit ENABLE of a write does to a page (R127). -/
def enableWrite (m : Nat) (on : Bool) (s : State) : State :=
  match (Tab.get s.host.pages m).st, on with
  | .stopped, true => setFn (16 + m) .starting s
  | .running, false => setFn (16 + m) .stopping s
  | .starting, b => modPage m (fun p => { p with heldEnable := some b }) s
  | .stopping, b => modPage m (fun p => { p with heldEnable := some b }) s
  | _, _ => s

/-- A write that Table 5.3 does not list as live-safe sets LIVE_WR while the mailbox is not STOPPED (R112). -/
def liveCheck (fn m : Nat) (s : State) : State :=
  if (Tab.get s.host.pages m).st = .stopped then s else modView fn (fun v => { v with liveWr := true }) s

/-- Replace the low or high half of a 64-bit register. -/
def setHalf (old : W64) (hi : Bool) (v : W32) : W64 :=
  if hi then BitVec.ofNat 64 (old.toNat % 2 ^ 32 + v.toNat * 2 ^ 32)
  else BitVec.ofNat 64 (old.toNat / 2 ^ 32 * 2 ^ 32 + v.toNat)

/-- A 32-bit write to doorbell page m. -/
def writePage (fn m off : Nat) (v recur : W32) (s : State) : State :=
  if off = 0x000 then enableWrite m (v.getLsbD 0) (modPage m (fun p => { p with ctl := v }) s)
  else if off = 0x004 then
    modPage m (fun p => { p with startInval := (p.startInval && !v.getLsbD 4) || recur.getLsbD 4
                                 sqErr := (p.sqErr && !v.getLsbD 5) || recur.getLsbD 5
                                 ringFault := (p.ringFault && !v.getLsbD 7) || recur.getLsbD 7 }) s
  else if off = 0x008 then modPage m (fun p => { p with sizes := v }) (liveCheck fn m s)
  else if off = 0x010 ∨ off = 0x014 then
    modPage m (fun p => { p with sqBase := setHalf p.sqBase (off = 0x014) v }) (liveCheck fn m s)
  else if off = 0x018 ∨ off = 0x01C then
    modPage m (fun p => { p with cqBase := setHalf p.cqBase (off = 0x01C) v }) (liveCheck fn m s)
  else if off = 0x020 then writeSqTail m v.toNat s
  else if off = 0x02C then writeCqHead m v.toNat s
  else s

/-- The time discipline is not STOPPED: a time-setting write is ignored and sets WR_IGN (R126). -/
def timeLocked (s : State) : Bool := !(fnState 0x0A s = .stopped)

/-- Change the time unit. -/
def modTime (f : TimeUnit → TimeUnit) (s : State) : State := { s with time := f s.time }

/-- A time-setting write. -/
def timeWrite (f : TimeUnit → TimeUnit) (s : State) : State :=
  if timeLocked s then modTime (fun t => { t with wrIgn := true }) s else modTime f s

/-- TOD_SET_NS (R124, R125): the pair applies at the next TCLK edge. -/
def setTod (v : Nat) (t : TimeUnit) : TimeUnit :=
  if 1000000000 ≤ v then { t with setInval := true }
  else { t with setPend := some (t.setSecLo + t.setSecHi * 2 ^ 32, v) }

/-- TOD in nanoseconds since second 0. -/
def todNs (t : TimeUnit) : Int := (t.sec * 1000000000 + t.ns : Nat)

/-- TOD_STEP (R641). -/
def stepTod (v : Int) (t : TimeUnit) : TimeUnit :=
  if todNs t + t.stepPend + v < 0 then { t with setInval := true } else { t with stepPend := t.stepPend + v }

/-- TOD_ADJ_PPB (R125). -/
def adjTod (v : Int) (t : TimeUnit) : TimeUnit :=
  if v < -500000 || 500000 < v then { t with setInval := true } else { t with adjPpb := v, trim := v }

/-- A 32-bit write to the time block. -/
def writeTime (off : Nat) (v recur : W32) (s : State) : State :=
  if off = 0x3010 then timeWrite (fun t => { t with setSecLo := v.toNat }) s
  else if off = 0x3014 then timeWrite (fun t => { t with setSecHi := v.toNat % 65536 }) s
  else if off = 0x3018 then timeWrite (setTod (v.toNat % 2 ^ 30)) s
  else if off = 0x3020 then timeWrite (stepTod v.toInt) s
  else if off = 0x3024 then timeWrite (adjTod v.toInt) s
  else if off = 0x3028 then
    modTime (fun t => { t with setInval := (t.setInval && !v.getLsbD 1) || recur.getLsbD 1,
                               wrIgn := (t.wrIgn && !v.getLsbD 2) || recur.getLsbD 2 }) s
  else s

/-- The sources whose bits are set in word k of a map. -/
def wordSources (k : Nat) (v : W32) : List Nat :=
  (((List.range 32).filter (fun j => v.getLsbD j)).map (fun j => 32 * k + j)).filter (fun i => !srcReserved i)

/-- A 32-bit write to the Telltale summary; TT_STICKY and TT_WIRING are views of the Telltale's bits (R118). A source that occurs in the
cycle of the write leaves its bit set, whether or not it was set before (R13). -/
def writeTelltale (off : Nat) (v recur : W32) (s : State) : State :=
  if off = 0x200C then
    { s with tt := { s.tt with irqSev := v.toNat % 4, irqEn := v.getLsbD 2, irqVec := bitsN v.toNat 8 6 } }
  else if 0x2100 ≤ off ∧ off < 0x2138 then occur (wordSources ((off - 0x2100) / 4) recur) (ttClearBits (wordMask ((off - 0x2100) / 4) (v &&& ~~~recur)) 0 s)
  else if 0x2200 ≤ off ∧ off < 0x2238 then
    let s1 := ttClearBits 0 (wordMask ((off - 0x2200) / 4) (v &&& ~~~recur)) s
    { s1 with tt := { s1.tt with wiring := (wordSources ((off - 0x2200) / 4) recur).foldl (fun m i => setBit m i true) s1.tt.wiring } }
  else s

/-- A 32-bit write to a function's own device status. -/
def writeDevStatus (fn off : Nat) (v recur : W32) (s : State) : State :=
  if off = 0x134 then
    modView fn (fun w => { w with accUnmapped := (w.accUnmapped && !v.getLsbD 0) || recur.getLsbD 0,
                                  accSize := (w.accSize && !v.getLsbD 1) || recur.getLsbD 1,
                                  liveWr := (w.liveWr && !v.getLsbD 2) || recur.getLsbD 2 }) s
  else if off = 0x138 then
    modView fn (fun w => { w with stateChg := (w.stateChg && !v.getLsbD 0) || recur.getLsbD 0,
                                  funcChg := (w.funcChg && !v.getLsbD 1) || recur.getLsbD 1 }) s
  else if off = 0x13C then modView fn (fun w => { w with intEn := v.getLsbD 0, intVec := bitsN v.toNat 8 6 }) s
  else s

/-- A 32-bit write to the inline mailbox, but for GO (R130). -/
def writeInline (fn off : Nat) (v recur : W32) (s : State) : State :=
  let i := s.host.inl
  if off < 0x4040 then
    if i.busy then modView fn (fun w => { w with liveWr := true }) s
    else { s with host := { s.host with inl := { i with cmd := Tab.putList i.cmd (off - 0x4000) (leBytes 4 v.toNat) } } }
  else if off = 0x4044 then { s with host := { s.host with inl := { i with done := (i.done && !v.getLsbD 1) || recur.getLsbD 1 } } }
  else s

/-- A 32-bit write to BAR0. `recur` marks W1C bits whose event occurs in the same cycle (R13). -/
def bar0Write32 (fn off : Nat) (v recur : W32) (s : State) : State :=
  if !writable off s then s
  else if !mapped fn off s then modView fn (fun w => { w with accUnmapped := true }) s
  else if off < 0x100 then s
  else if off < 0x140 then writeDevStatus fn off v recur s
  else if off < 0x2240 then writeTelltale off v recur s
  else if off < 0x3030 then writeTime off v recur s
  else if off < 0x40C0 then writeInline fn off v recur s
  else match pageOf off with
    | some m => writePage fn m (off % 0x1000) v recur s
    | none => s

/-- A write whose byte enables do not cover whole registers is discarded and sets ACC_SIZE (R105), and ACC_UNMAPPED too where it touches an
offset that the view does not map (R104). -/
def partialWrite (fn off bytes : Nat) (s : State) : State :=
  if writable off s then
    modView fn (fun w => { w with accSize := true, accUnmapped := w.accUnmapped || (regsOf off bytes).any (fun r => !mapped fn r s) }) s
  else s

/-- A write to BAR0 by `put`, the write of one register: 4 bytes, or 8 as two writes of 4, the lower half first (R106). Either covers whole
registers when it begins at one (R105). -/
def bar0Write (put : Nat → W32 → State → State) (fn off bytes : Nat) (v : W64) (s : State) : State :=
  if bytes = 4 ∧ off % 4 = 0 then put off (v.setWidth 32) s
  else if bytes = 8 ∧ off % 4 = 0 then put (off + 4) ((v >>> 32).setWidth 32) (put off (v.setWidth 32) s)
  else partialWrite fn off bytes s

end Sys2Proof.Machine
end

