-- ==== Sys2Proof/Machine/Memory.lean ====
section
/-! DEFINITION. The memories of the local map: ranges, error correction, poison and write-back (spec/13_memory.md,
R301 - R322), and the ranges of tile memory. -/

namespace Sys2Proof.Machine

/-! ### Ranges (Table 13.1, R301, R304) -/

/-- HBM, 384 GiB. -/
def inHbm (a : Nat) : Bool := a < 0x6000000000

/-- Mast SRAM of die d. -/
def mastBase (d : Nat) : Nat := 0x100000000000 + d * 0x10000000

/-- Mast SRAM of a die. -/
def inMast (d a : Nat) : Bool := mastBase d ≤ a && a < mastBase d + 0x8000000

/-- The local address of byte 0 of staging SRAM. -/
def stagingBase : Nat := 0x120000000000

/-- Staging SRAM. -/
def inStaging (a : Nat) : Bool := stagingBase ≤ a && a < 0x120002000000

/-- The local address of byte 0 of tile n's memory. -/
def tileBase (n : Nat) : Nat := 0x110000000000 + n * 0x200000

/-- Tile memory. -/
def inTile (a : Nat) : Bool := 0x110000000000 ≤ a && a < 0x110010000000

/-- An address whose bytes memory holds. -/
def inMemory (a : Nat) : Bool := inHbm a || inMast 0 a || inMast 1 a || inStaging a || inTile a

/-- Stack of an HBM local address (R304). -/
def hbmStack (a : Nat) : Nat := Nat.xor (bitsN a 11 3) (bitsN a 22 3)

/-- Channel of an HBM local address (R304). -/
def hbmChannel (a : Nat) : Nat := Nat.xor (bitsN a 14 5) (bitsN a 25 5)

/-- The Mast die whose controllers hold an HBM local address: stacks 0 - 3 belong to M0, 4 - 7 to M1 (R304). -/
def hbmDie (a : Nat) : Nat := if hbmStack a < 4 then 0 else 1

/-- The controller of the memory at an address runs: an HBM controller stops with MCLK of its die (R83, Table 4.1). -/
def memRuns (a : Nat) (s : State) : Bool := !inHbm a || !domainLost (2 + hbmDie a) s

/-- The controllers of every granule that a range touches run. -/
def rangeRuns (a n : Nat) (s : State) : Bool :=
  if domainLost 2 s || domainLost 3 s then
    (List.range ((a + n + 2047) / 2048 - a / 2048)).all (fun k => memRuns ((a / 2048 + k) * 2048) s)
  else true

/-- The unit of protection at an address: 64 bytes in HBM, 8 in an SRAM. -/
def eccUnit (a : Nat) : Nat := if inHbm a then 64 else 8

/-- The word of protection that holds an address. -/
def wordOf (a : Nat) : Nat := a / eccUnit a * eccUnit a

/-- The words of protection that a range touches and that hold an error. -/
def badWords (a n : Nat) (m : Memory) : List Nat :=
  (m.ecc.filter (fun c => decide (c.1 < a + n) && decide (a < c.1 + eccUnit c.1))).map (·.1)

/-- Telltale sources of a memory word: corrected and uncorrectable (Table 13.3, Table 23.1). -/
def correctedSrc (w : Nat) : Nat :=
  if inHbm w then 0x0C0 + hbmStack w else if inStaging w then 0x0E0
  else if inTile w then 0x0DC + (w - 0x110000000000) / 0x200000 / 64 else if inMast 1 w then 0x0D9 else 0x0D8

/-- The uncorrectable source of a word. -/
def uncorrectableSrc (w : Nat) : Nat :=
  if inHbm w then 0x0C8 + hbmStack w else if inStaging w then 0x0E1
  else if inTile w then 0x0DE + (w - 0x110000000000) / 0x200000 / 64 else if inMast 1 w then 0x0DB else 0x0DA

/-! ### Bytes -/

/-- The canonical form of the memories: addresses rise strictly and nothing is listed that an unlisted place reads as. -/
def Memory.wf (m : Memory) : Bool := Tab.wf m.bytes && Tab.wf m.ecc && Tab.wf m.pages

/-- Change the memories. -/
def modMem (f : Memory → Memory) (s : State) : State := { s with mem := f s.mem }

/-- The bytes of a range, as they stand. -/
def rawRead (a n : Nat) (s : State) : List Byte := Tab.getList s.mem.bytes a n

/-- A word of protection lies wholly inside a range. -/
def covers (a n w : Nat) : Bool := decide (a ≤ w) && decide (w + eccUnit w ≤ a + n)

/-- A write of a range clears the poison of a word: it writes the whole aligned 64 bytes that hold the word (R310). A word of tile
memory is never poisoned. -/
def clearsPoison (a n w : Nat) : Bool := decide (a ≤ w / 64 * 64) && decide (w / 64 * 64 + 64 ≤ a + n)

/-- The byte of one address written. An address outside Table 13.1 reaches nothing (R301), and neither does a part of a poisoned word
(R310). -/
def writeByte (m : Memory) (full : Nat → Bool) (a : Nat) (b : Byte) : Memory :=
  if !inMemory a || (Tab.get m.ecc (wordOf a) = .poisoned && !full (wordOf a)) then m
  else { m with bytes := Tab.put m.bytes a b }

/-- Bytes written one after another. -/
def writeBytes (full : Nat → Bool) : List Byte → Nat → Memory → Memory
  | [], _, m => m
  | b :: bs, a, m => writeBytes full bs (a + 1) (writeByte m full a b)

/-- What one reader met. -/
inductive ReadEnd where
  | ok | bad
  deriving DecidableEq, Repr, Inhabited

/-- One word with an error is read (R307 - R309). -/
def readWord (w : Nat) (s : State) : ReadEnd × State :=
  match Tab.get s.mem.ecc w with
  | .clean => (.ok, s)
  | .correctable =>
    if s.mem.writeBack.contains w then (.ok, s)
    else (.ok, raise (correctedSrc w) (modMem (fun m => { m with writeBack := m.writeBack ++ [w] }) s))
  | .uncorrectable =>
    (.bad, raise (uncorrectableSrc w) (modMem (fun m => { m with ecc := Tab.put m.ecc w .poisoned
                                                                 writeBack := m.writeBack.filter (· ≠ w) ++ [w] }) s))
  | .poisoned => (.bad, if inHbm w then raise (0x0D0 + hbmStack w) s else s)

/-- Every word of a range that holds an error is read. -/
def readWords : List Nat → State → ReadEnd × State
  | [], s => (.ok, s)
  | w :: ws, s =>
    let (e, s1) := readWord w s
    let (e2, s2) := readWords ws s1
    (if e = .bad then .bad else e2, s2)

/-- A demand read by any reader but a tile unit: the bytes, and whether a word could not be corrected. -/
def memRead (a n : Nat) (s : State) : Option (List Byte) × State :=
  let (e, s1) := readWords (badWords a n s.mem) s
  (if e = .bad then none else some (rawRead a n s1), s1)

/-- A read of the first 2 KiB of a block of the Furl pool is a use of the block (Eviction). -/
def readUse (a n : Nat) (s : State) : State :=
  { s with furl := { s.furl with pool := Tab.mapAll s.furl.pool (fun p x =>
      if x.live && x.key ≠ 0 && decide (a < p * 0x200000 + 2048) && decide (p * 0x200000 < a + n) then { x with lastUse := s.time.mono } else x) } }

/-! ### Reef's protect and dirty bits (R570, R571, R591) -/

/-- Change Reef. -/
def modReef (f : Reef → Reef) (s : State) : State := { s with reef := f s.reef }

/-- The bytes of a chunk put into an image where one of its parts holds them. -/
def takeChunk (k : Nat) (parts : List (Nat × Nat × Nat)) (bytes : Tab Byte) (kv : List (Nat × Byte)) : List (Nat × Byte) :=
  bytes.foldl (fun (kv : Tab Byte) c =>
    if c.1 / 65536 = k then
      match parts.find? (fun p => decide (p.1 ≤ c.1) && decide (c.1 < p.1 + p.2.1)) with
      | some p => Tab.put kv (p.2.2 + (c.1 - p.1)) c.2
      | none => kv
    else kv) kv

/-- The bytes of a chunk put at its place among the chunks of an image. -/
def takeRaw (k : Nat) (chunks : List Nat) (bytes : Tab Byte) (raw : List (Nat × Byte)) : List (Nat × Byte) :=
  bytes.foldl (fun (raw : Tab Byte) c => if c.1 / 65536 = k then Tab.put raw (65536 * chunks.idxOf k + c.1 % 65536) c.2 else raw) raw

/-- Reef reads a protected chunk: its bytes go into the snapshot and its protect bit goes. A word that cannot be corrected drops
the context from the snapshot. -/
def reefRead (k : Nat) (s : State) : State :=
  if !s.reef.queue.contains k then s
  else
    let (e, s1) := readWords (badWords (k * 65536) 65536 s.mem) (modReef (fun r => { r with queue := r.queue.filter (· ≠ k) }) s)
    let mine := s1.reef.snaps.any (fun x => x.2.live && !x.2.ready && x.2.ctxs.any (fun g => g.cut && !g.lost && g.chunks.contains k))
    let s2 := modReef (fun r => { r with snaps := Tab.mapAll r.snaps (fun _ x =>
      if x.live && !x.ready then
        { x with
          poisoned := x.poisoned || e = .bad
          ctxs := x.ctxs.map (fun g =>
            if g.cut && !g.lost && g.chunks.contains k then
              if e = .bad then { g with lost := true }
              else { g with raw := takeRaw k g.chunks s1.mem.bytes g.raw
                            image := { g.image with kv := takeChunk k g.parts s1.mem.bytes g.image.kv } }
            else g) }
      else x) }) s1
    if e = .bad && mine then raise 0x163 s2 else s2

/-- Protected chunks that a range touches are read before it changes. -/
def reefBefore (a n : Nat) (s : State) : State :=
  (s.reef.queue.filter (fun k => decide (a < (k + 1) * 65536) && decide (k * 65536 < a + n))).foldl (fun s k => reefRead k s) s

/-- A write sets the dirty bit of every chunk of a cut context's area that it touches. -/
def reefDirty (a n : Nat) (s : State) : State :=
  if s.reef.snaps.isEmpty || n = 0 then s
  else
    let ks := (List.range ((a + n - 1) / 65536 + 1 - a / 65536)).map (· + a / 65536)
    modReef (fun r => { r with snaps := Tab.mapAll r.snaps (fun _ x => { x with ctxs := x.ctxs.map (fun g =>
      if g.cut then
        { g with dirty := g.dirty ++ ks.filter (fun k => !g.dirty.contains k &&
            (g.chunks.contains k || (decide (g.area.1 ≤ k) && decide (k < g.area.1 + g.area.2)))) }
      else g) }) }) s

/-- The write itself: words wholly written are clean, a poisoned one once its 64 bytes are written (R310), and a write cancels a queued
write-back (R308). -/
def rawWrite (a : Nat) (bs : List Byte) (s : State) : State :=
  let n := bs.length
  modMem (fun m =>
    let m1 := writeBytes (clearsPoison a n) bs a m
    { m1 with
      ecc := Tab.dropIf m1.ecc (fun w e => (if e = .poisoned then clearsPoison a n w else covers a n w) || (e = .correctable && decide (w < a + n) && decide (a < w + eccUnit w)))
      writeBack := m1.writeBack.filter (fun w => !(decide (w < a + n) && decide (a < w + eccUnit w))) }) s

/-- A write by any requester: a protected chunk is read before it changes, and its dirty bit is set (R570). -/
def memWrite (a : Nat) (bs : List Byte) (s : State) : State :=
  rawWrite a bs (reefDirty a bs.length (reefBefore a bs.length s))

/-- A queued write-back executes at its controller, while it runs (R308, R309): a corrected word is clean again. -/
def doWriteBack (w : Nat) (s : State) : State :=
  if s.mem.writeBack.contains w && memRuns w s then
    modMem (fun m => { m with writeBack := m.writeBack.filter (· ≠ w)
                              ecc := if Tab.get m.ecc w = .correctable then Tab.put m.ecc w .clean else m.ecc }) s
  else s

/-- An upset has come to a word of protection since it was last read or written: the next read of it finds the error (R201, R307). -/
def strikeWord (w : Nat) (e : Upset) (s : State) : State :=
  if inMemory w && w % eccUnit w = 0 && Tab.get s.mem.ecc w = .clean && !(e = .none) then
    modMem (fun m => { m with ecc := Tab.put m.ecc w (if e = .oneSymbol then .correctable else .uncorrectable) }) s else s

/-- The upsets that a read finds have come. -/
def strike (ups : List (Nat × Upset)) (s : State) : State := ups.foldl (fun s u => strikeWord u.1 u.2 s) s

/-- The patrol scrubber's read of a word (R313), in which an upset `e` that has come since the last read shows: it corrects or
poisons as a demand read does, and a word already poisoned raises the uncorrectable source (Table 13.2). -/
def scrub (w : Nat) (e : Upset) (s : State) : State :=
  if !(inHbm w || inMast 0 w || inMast 1 w || inStaging w) || w % eccUnit w ≠ 0 || !memRuns w s then s
  else
    let s1 := strikeWord w e s
    if Tab.get s1.mem.ecc w = .poisoned then raise (uncorrectableSrc w) s1 else (readWord w s1).2

/-! ### Pages (R305, R306, R311) -/

/-- The 2 MiB page of an HBM address. -/
def pageIdx (a : Nat) : Nat := a / 0x200000

/-- Zero a range of memory: its bytes and its check bits. -/
def zeroRange (a n : Nat) (s : State) : State :=
  modMem (fun m => { m with
    bytes := Tab.dropIf m.bytes (fun i _ => decide (a ≤ i) && decide (i < a + n))
    ecc := Tab.dropIf m.ecc (fun i _ => decide (a ≤ i) && decide (i < a + n))
    writeBack := m.writeBack.filter (fun i => !(decide (a ≤ i) && decide (i < a + n))) }) s

/-! ### Encryption (R305, R540) -/

/-- The key of a page: that of its tenant domain, of its prefix domain's pool, or the device domain's. The random keys of a boot are
what the security block drew: the device domain's, and one for each pool (R545). -/
def pageKey (use : PageUse) (tenant : Option Nat) (s : State) : PageKey :=
  match use, tenant with
  | .pool d, _ => .drawn s.sec.drbg (2 + d)
  | _, some t => if t = 0xFFFF then .drawn s.sec.drbg 0 else .tenant ((Tab.get s.sec.hbm t).getD [])
  | _, none => .none

/-- The tweak of a word: its HBM local address as a 128-bit little-endian value (R540). -/
def tweakOf (w : Nat) : List Byte := leBytes 16 w

/-- What the stack holds of a 64-byte word: its ciphertext under the key of its page (R540). -/
def cipherWord (w : Nat) (s : State) : List Byte :=
  Config.xtsEnc (Tab.get s.mem.pages (w / 0x200000)).key.bytes (tweakOf w) (rawRead w 64 s)

/-- What a word reads as under another key than the one that wrote it. -/
def rekeyWord (new : PageKey) (s : State) (t : Tab Byte) (w : Nat) : Tab Byte :=
  Tab.putList t w ((Config.xtsDec new.bytes (tweakOf w) (cipherWord w s)).take 64)

/-- The same for the word and those after it. -/
def rekeyWords (new : PageKey) (s : State) : Nat → Nat → Tab Byte → Tab Byte
  | 0, _, t => t
  | n + 1, w, t => rekeyWords new s n (w + 64) (rekeyWord new s t w)

/-- A page changes its key and keeps its ciphertext: each word reads as what the new key makes of what the old one wrote. -/
def rekey (p : Nat) (new : PageKey) (s : State) : State :=
  modMem (fun m => { m with bytes := rekeyWords new s 32768 (p * 0x200000) m.bytes }) s

/-- Change one page's attribute. -/
def modPageAttr (p : Nat) (f : PageAttr → PageAttr) (s : State) : State :=
  modMem (fun m => { m with pages := Tab.mod m.pages p f }) s

/-- A page can be allocated. -/
def pageFree (p : Nat) (s : State) : Bool := (Tab.get s.mem.pages p).use = .free

/-- The first run of n free pages, from page p on, with `fuel` pages left to look at. -/
def findRun (free : Nat → Bool) (n : Nat) : Nat → Nat → Nat → Option Nat
  | 0, _, _ => none
  | fuel + 1, p, len =>
    if free p then (if len + 1 = n then some (p + 1 - n) else findRun free n fuel (p + 1) (len + 1))
    else findRun free n fuel (p + 1) 0

/-- The n pages from p on are absent for Shroud's windows, or present again (R408, R409). -/
def setAbsent (p n : Nat) (absent : Bool) (s : State) : State :=
  { s with shr := { s.shr with absent := (List.range n).foldl (fun t k => Tab.put t (p + k) absent) s.shr.absent } }

/-- Give a page to a user of a tenant domain, zero-filled when it served another (R306) or when `zero` is set. The controller
encrypts it under the key of its new use; what it holds from before, under another key, reads as that key decrypts it (R305, R540). A
page that no key has served since the boot's zero fill reads as zero (log entry 56). -/
def takePage (use : PageUse) (tenant : Option Nat) (zero : Bool) (p : Nat) (s : State) : State :=
  let old := Tab.get s.mem.pages p
  let key := pageKey use tenant s
  let s1 := if zero || !(old.tenant = tenant) then zeroRange (p * 0x200000) 0x200000 s
    else if old.key = .none || old.key = key then s else rekey p key s
  modPageAttr p (fun q => { q with use := use, tenant := tenant, key := key }) s1

/-- A page holds a poisoned word. -/
def pagePoisoned (p : Nat) (s : State) : Bool :=
  s.mem.ecc.any (fun c => c.2 = .poisoned && decide (pageIdx c.1 = p) && inHbm c.1)

/-- How many retired pages the persistent store records. -/
def retiredCount (s : State) : Nat := (s.mem.pages.filter (fun c => c.2.use = .retired && !c.2.unrecorded)).length

/-- Free a page; one that holds a poisoned word is retired (R311). -/
def dropPage (p : Nat) (s0 : State) : State :=
  let s := reefBefore (p * 0x200000) 0x200000 s0
  if pagePoisoned p s then
    if retiredCount s < 1024 then modPageAttr p (fun q => { q with use := .retired }) s
    else raise 0x0E4 (modPageAttr p (fun q => { q with use := .retired, unrecorded := true }) s)
  else modPageAttr p (fun q => { q with use := .free }) s

end Sys2Proof.Machine
end

