-- ==== Sys2Proof/Machine/Sheets.lean ====
section
/-! DEFINITION. Sheets and Cleats: positions, credits, the fill action, word protection, signals and waits
(spec/10_sheets_cleats.md, R242 - R266), and a tile's read of its own memory (R201). -/

namespace Sys2Proof.Machine

/-- The die of a tile, and of a Halyard. -/
def tileDie (t : Nat) : Nat := t / 64

/-- The die of a Halyard. -/
def halDie (h : Nat) : Nat := h / 32

/-- Change one tile, one Halyard, one Sheet, one tile-local or global Cleat. -/
def modTile (t : Nat) (f : Tile → Tile) (s : State) : State :=
  { s with comp := { s.comp with tiles := Tab.mod s.comp.tiles t f } }

def modHal (h : Nat) (f : Halyard → Halyard) (s : State) : State :=
  { s with comp := { s.comp with hals := Tab.mod s.comp.hals h f } }

def modSheet (t n : Nat) (f : Sheet → Sheet) (s : State) : State :=
  { s with comp := { s.comp with sheets := Tab.mod s.comp.sheets (32 * t + n) f } }

def modCleat (glob : Bool) (i : Nat) (f : Cleat → Cleat) (s : State) : State :=
  if glob then { s with comp := { s.comp with gcl := Tab.mod s.comp.gcl i f } }
  else { s with comp := { s.comp with lcl := Tab.mod s.comp.lcl i f } }

/-- One tile, Halyard, Sheet, Cleat. -/
def tileOf (t : Nat) (s : State) : Tile := Tab.get s.comp.tiles t

def halOf (h : Nat) (s : State) : Halyard := Tab.get s.comp.hals h

def sheetOf (t n : Nat) (s : State) : Sheet := Tab.get s.comp.sheets (32 * t + n)

def cleatOf (glob : Bool) (i : Nat) (s : State) : Cleat := if glob then Tab.get s.comp.gcl i else Tab.get s.comp.lcl i

/-! ### Cleats -/

/-- Put a signal or CLSET on its way. -/
def sendSig (m : CleatMsg) (s : State) : State := { s with comp := { s.comp with sigs := s.comp.sigs ++ [m] } }

/-- A signal of 1 or more to a global Cleat from a block of the Rigging die. -/
def signalGlobal (i v : Nat) (s : State) : State := sendSig { glob := true, idx := i, v := v } s

/-- Releases every wait whose threshold the count has reached (R259). -/
def releaseWaits (c : Cleat) : Cleat :=
  { c with waits := c.waits.map (fun w => if w.thr ≤ c.count then { w with released := true } else w) }

/-- The overflow source of a Cleat (Table 23.1). -/
def overflowSrc (glob : Bool) (i : Nat) : Nat := if glob then 0x0E7 else 0x0E5 + i / 32 / 64

/-- A signal of v that is not a CLSIG reaches a Cleat (Table 10.7, R262). -/
def cleatAdd (glob : Bool) (i v : Nat) (s : State) : State :=
  let c := cleatOf glob i s
  if !c.active || c.ovf then s
  else if c.count + v < 2 ^ 32 then modCleat glob i (fun c => releaseWaits { c with count := c.count + v }) s
  else raise (overflowSrc glob i) (modCleat glob i (fun c => { c with ovf := true }) s)

/-- A CLSET reaches a Cleat. -/
def cleatSet (glob : Bool) (i v : Nat) (s : State) : State :=
  let c := cleatOf glob i s
  if !c.active || c.ovf then s else modCleat glob i (fun c => releaseWaits { c with count := v }) s

/-- Register a wait; one whose threshold is reached is released at once. -/
def registerWait (glob : Bool) (i : Nat) (who : Waiter) (thr : Nat) (s : State) : State :=
  modCleat glob i (fun c =>
    if c.waits.any (fun w => w.who = who) then c
    else { c with waits := c.waits ++ [{ who := who, thr := thr, released := decide (thr ≤ c.count) }] }) s

/-- A Cleat that returns to FREE drops its waits and keeps its count (Table 10.7, R258, R266). -/
def Cleat.freed (c : Cleat) : Cleat := { count := c.count }

/-- Drop every wait of a waiter. -/
def dropWaits (who : Waiter) (s : State) : State :=
  let f := fun (_ : Nat) (c : Cleat) => { c with waits := c.waits.filter (fun w => !(w.who = who)) }
  { s with comp := { s.comp with lcl := Tab.mapAll s.comp.lcl f, gcl := Tab.mapAll s.comp.gcl f } }

/-! ### Sheets -/

def Sheet.present (h : Sheet) : Nat := h.write - h.read
def Sheet.occupancy (h : Sheet) : Nat := h.write - h.release
def Sheet.credits (h : Sheet) : Nat := h.depth - h.occupancy

/-- The tile-memory offset of the word at position p (R248). -/
def Sheet.slot (h : Sheet) (p : Nat) : Nat := 64 * (h.base + p % h.depth)

/-- Tile-memory byte offset o lies in the Sheet's ring. -/
def Sheet.holds (h : Sheet) (o : Nat) : Bool :=
  !(h.st = .unconfigured) && decide (64 * h.base ≤ o) && decide (o < 64 * (h.base + h.depth))

/-- The ranges of tile memory that k words of a Sheet from position p on lie in. -/
def Sheet.ranges (h : Sheet) (p k : Nat) : List (Nat × Nat) :=
  let n := min k h.depth
  let b := p % h.depth
  if n = 0 then []
  else if b + n ≤ h.depth then [(64 * (h.base + b), 64 * n)]
  else [(64 * (h.base + b), 64 * (h.depth - b)), (64 * h.base, 64 * (n - (h.depth - b)))]

/-- The configured Sheet of tile t whose ring holds an offset. -/
def ringOf (t o : Nat) (s : State) : Option Nat := firstIdx (fun n => (sheetOf t n s).holds o) 0 32

/-- The fill action (Table 10.2). FILL_ACT 2 interrupts Masthead only. -/
def fireFill (t : Nat) (h : Sheet) (s : State) : State :=
  if h.fillAct = 1 then
    if h.fillGlobal then signalGlobal h.fillCleat 1 s else cleatAdd false (32 * t + h.fillCleat) 1 s
  else s

/-- Words pushed at `write`, one by one, to their slots. -/
def storeWords (t : Nat) (h : Sheet) : List (List Byte) → Nat → State → State
  | [], _, s => s
  | w :: ws, p, s => storeWords t h ws (p + 1) (memWrite (tileBase t + h.slot p) w s)

/-- A push of whole words (R246, R249, R253). -/
def sheetPush (t n : Nat) (ws : List (List Byte)) (s : State) : State :=
  let h := sheetOf t n s
  let s1 := storeWords t h ws h.write s
  let k := ws.length
  let s2 := modSheet t n (fun h => { h with write := h.write + k }) s1
  if 0 < h.fill && h.occupancy < h.fill && h.fill ≤ h.occupancy + k then fireFill t h s2 else s2

/-- One codeword of a tile's memory is read by a tile unit or a Halyard (R201, R255): a corrected one is written back and
counted where its word lies. Answers true for one that cannot be corrected. -/
def tileWord (t w : Nat) (s : State) : Bool × State :=
  match Tab.get s.mem.ecc w with
  | .clean => (false, s)
  | .correctable =>
    let s1 := modMem (fun m => { m with ecc := Tab.put m.ecc w .clean }) s
    let s2 := match ringOf t (w - tileBase t) s with
      | some n => modSheet t n (fun h => { h with ce := satInc 16 h.ce }) s1
      | none => modTile t (fun u => { u with tmemCe := satInc 16 u.tmemCe }) s1
    (false, raise (correctedSrc w) s2)
  | _ => (true, raise (uncorrectableSrc w) s)

def tileWords (t : Nat) : List Nat → State → Bool × State
  | [], s => (false, s)
  | w :: ws, s =>
    let (b, s1) := tileWord t w s
    let (b2, s2) := tileWords t ws s1
    (b || b2, s2)

/-- A read of n bytes of tile t's memory at an offset: none where a codeword cannot be corrected. -/
def tileRead (t off n : Nat) (s : State) : Option (List Byte) × State :=
  let a := tileBase t + off
  let (bad, s1) := tileWords t (badWords a n s.mem) s
  (if bad then none else some (rawRead a n s1), s1)

/-- A read of the k words of a Sheet from position p on. -/
def sheetRead (t : Nat) (h : Sheet) : Nat → Nat → State → Option (List Byte) × State
  | 0, _, s => (some [], s)
  | k + 1, p, s =>
    match tileRead t (h.slot p) 64 s with
    | (some w, s1) =>
      match sheetRead t h k (p + 1) s1 with
      | (some ws, s2) => (some (w ++ ws), s2)
      | (none, s2) => (none, s2)
    | (none, s1) => (none, s1)

/-- A list of bytes cut into words of 64. -/
def words64 : Nat → List Byte → List (List Byte)
  | 0, _ => []
  | k + 1, bs => bs.take 64 :: words64 k (bs.drop 64)

/-- Table 10.4: what a Sheet of a DIR lets its tile produce, and consume. -/
def Sheet.tilePushes (h : Sheet) : Bool := h.st = .opened && (h.dir = 1 || h.dir = 2)
def Sheet.tilePops (h : Sheet) : Bool := h.st = .opened && (h.dir = 0 || h.dir = 2)

/-- The Sheets of every tile of a dispatch are held: positions frozen (Table 10.5). -/
def holdSheets (d : Option Nat) (s : State) : State :=
  if d.isNone then s else
  { s with comp := { s.comp with sheets := Tab.mapAll s.comp.sheets (fun i h =>
      if h.st = .opened && (tileOf (i / 32) s).disp = d then { h with st := .held } else h) } }

/-- A tile fault (R228, R229, Table 8.9): code and PC are recorded, queued Sail instructions are dropped, the dispatch's Sheets
are held, and the tile's source is raised. A tile that has already faulted keeps its record. -/
def tileFault (t code pc : Nat) (s : State) : State :=
  let d := (tileOf t s).disp
  if !((tileOf t s).st = .running || (tileOf t s).st = .loaded) then s
  else raise t (holdSheets d (dropWaits (.tile t) (modTile t (fun u =>
    { u with st := .faulted, fault := code, faultPc := pc, stalled := false, atEnd := false
             queue := u.queue.filter (fun q => q.begun) }) s)))

/-- A Halyard fault (R220, Table 8.7): code and descriptor address are recorded, nothing is issued, arriving data is discarded. -/
def halFault (h code addr : Nat) (s : State) : State :=
  let u := halOf h s
  if u.st = .idle || u.st = .fault then s
  else
    raise (0x080 + h) (holdSheets u.disp (dropWaits (.halyard h) (modHal h (fun u =>
      { u with st := .fault, code := code, faultAddr := addr, flights := [], loops := [] }) s)))

/-- A CLSIG reaches its Cleat: one that would wrap leaves it and faults the signalling tile (R230), which may have ended its program
meanwhile but still serves the dispatch. -/
def clsigArrive (m : CleatMsg) (t pc : Nat) (d : Option Nat) (s : State) : State :=
  let c := cleatOf m.glob m.idx s
  if !c.active || c.ovf then s
  else if c.count + m.v < 2 ^ 32 then modCleat m.glob m.idx (fun c => releaseWaits { c with count := c.count + m.v }) s
  else if (tileOf t s).disp = d then tileFault t 0x07 pc s else s

/-- One entry reaches its Cleat. -/
def sigArrive (m : CleatMsg) (s : State) : State :=
  if m.set then cleatSet m.glob m.idx m.v s
  else match m.src with
    | some (t, pc, d) => clsigArrive m t pc d s
    | none => cleatAdd m.glob m.idx m.v s

/-- The oldest n entries arrive in one cycle: CLSETs first, then signals (R239, R260). -/
def sigsArrive (n : Nat) (s : State) : State :=
  let now := s.comp.sigs.take n
  let s1 := { s with comp := { s.comp with sigs := s.comp.sigs.drop n } }
  let s2 := (now.filter (·.set)).foldl (fun s m => sigArrive m s) s1
  (now.filter (fun m => !m.set)).foldl (fun s m => sigArrive m s) s2

end Sys2Proof.Machine
end

