-- ==== Sys2Proof/Machine/Objects.lean ====
section
/-! DEFINITION. Objects and their handles, and what a session may name (spec/07_command_catalogue.md, R167, R168; R534, R535). -/

namespace Sys2Proof.Machine

/-- The session of a command's mailbox. -/
def sessOf (c : Cmd) (s : State) : Option Session := (Tab.get s.host.mbx c.mb).session

/-- The command comes from a TENANT session. -/
def isTenant (c : Cmd) (s : State) : Bool :=
  match sessOf c s with
  | some x => x.cls = .tenant
  | none => false

/-- A TENANT session names a tenant domain other than its own (R168). -/
def otherTenant (c : Cmd) (t : Nat) (s : State) : Bool :=
  match sessOf c s with
  | some x => x.cls = .tenant && x.tenant ≠ some t
  | none => false

/-- A handle: index and generation. -/
def handleOf (idx gen : Nat) : Nat := idx + 65536 * gen

/-- The generation after a free; it skips zero. -/
def nextGen (g : Nat) : Nat := if 0xFFFF ≤ g then 1 else g + 1

/-- The generation a first allocation gives an index. -/
def firstGen (g : Nat) : Nat := if g = 0 then 1 else g

/-- The owner of objects that no session sees: contexts and replicas that Reef hosts for a peer. -/
def unseen : Nat := 255

/-- The owner of objects that a function-level event destroys, until each has gone (Table 6.5). -/
def dying : Nat := 254

/-- The checks of a handle of a kind with n indices against what its index holds (R167, R168). -/
def objChecks (c : Cmd) (h n gen : Nat) (live : Bool) (fn : Nat) (s : State) : List (Bool × Status × Nat) :=
  [ (n ≤ h % 65536 || gen = 0 || (live && fn = unseen), .noent, 0), (!live || h / 65536 ≠ gen || fn = dying, .stale, 0),
    (isTenant c s && fn ≠ mbFn c.mb s, .noent, 0) ]

/-- The lowest index that is not live. -/
def freeIdx {α : Type} [Inhabited α] (t : Tab α) (live : α → Bool) (n : Nat) : Option Nat :=
  firstIdx (fun i => !live (Tab.get t i)) 0 n

/-- A tenant domain has an HBM key; the device domain has its own (R535, Table 21.2). -/
def hasHbmKey (t : Nat) (s : State) : Bool := t = 0xFFFF || (Tab.get s.sec.hbm t).isSome

/-- A tenant field holds a number that no domain has. -/
def badTenant (t : Nat) : Bool := 256 ≤ t && t ≠ 0xFFFF

/-- Change the serving state, one region, model, context, batch, dispatch. -/
def modSrv (f : Serve → Serve) (s : State) : State := { s with srv := f s.srv }

def modModel (i : Nat) (f : Model → Model) (s : State) : State := modSrv (fun v => { v with models := Tab.mod v.models i f }) s

def modCtx (i : Nat) (f : Ctx → Ctx) (s : State) : State := modSrv (fun v => { v with ctxs := Tab.mod v.ctxs i f }) s

def modBatch (i : Nat) (f : Batch → Batch) (s : State) : State := modSrv (fun v => { v with batches := Tab.mod v.batches i f }) s

def regionOf (i : Nat) (s : State) : MemRegion := Tab.get s.srv.regions i

def modelOf (i : Nat) (s : State) : Model := Tab.get s.srv.models i

def ctxOf (i : Nat) (s : State) : Ctx := Tab.get s.srv.ctxs i

def batchOf (i : Nat) (s : State) : Batch := Tab.get s.srv.batches i

def dispOf (i : Nat) (s : State) : Dispatch := Tab.get s.srv.dispatches i

/-- A local address lies in a region's pages. -/
def MemRegion.holds (r : MemRegion) (a n : Nat) : Bool :=
  r.live && decide (r.page * 0x200000 ≤ a) && decide (a + n ≤ (r.page + r.pages) * 0x200000)

/-- A rack global address of this device. -/
def globalAddr (dev a : Nat) : Nat := dev * 2 ^ 45 + a

end Sys2Proof.Machine
end

