-- ==== Sys2Proof/Machine/Trim.lean ====
section
/-! DEFINITION. Trim: queues, selection, buckets, policers and their commands (spec/17_trim.md), and the Ethernet ports. -/

namespace Sys2Proof.Machine

/-! ### Buckets (R431 - R433) -/

/-- A bucket holds nothing back (R432). -/
def Bucket.open_ (b : Bucket) : Bool := b.rate = 0 || 0 < b.tok

/-- One gain of 5 ns (R432): RATE_MBPS / 1,600 bytes, up to BURST_BYTES. -/
def Bucket.gain (b : Bucket) : Bucket :=
  if b.rate = 0 then b else { b with tok := min (b.tok + b.rate) (max b.tok (1600 * b.burst)) }

/-- A charge in bytes. -/
def Bucket.charge (n : Nat) (b : Bucket) : Bucket := if b.rate = 0 then b else { b with tok := b.tok - 1600 * n }

/-- A write of rate and burst: the tokens are zero (R433). -/
def Bucket.set (rate burst : Nat) : Bucket := { rate := rate, burst := burst }

/-- The bucket at zero, as START leaves it (R433). -/
def Bucket.zero (b : Bucket) : Bucket := { b with tok := 0 }

/-- Trim is RUNNING. -/
def trimRuns (s : State) : Bool := fnRunning 4 s

/-- Change Trim. -/
def modTrim (f : Trim → Trim) (s : State) : State := { s with trim := f s.trim }

/-- Queue q of port p. -/
def queueOf (p q : Nat) (s : State) : TrimQ := Tab.get s.trim.qs (8 * p + q)

/-- Change queue q of port p. -/
def modQ (p q : Nat) (f : TrimQ → TrimQ) (s : State) : State := modTrim (fun t => { t with qs := Tab.mod t.qs (8 * p + q) f }) s

/-- Change one port. -/
def modPort (p : Nat) (f : TrimPort → TrimPort) (s : State) : State := modTrim (fun t => { t with ports := Tab.mod t.ports p f }) s

/-- Every bucket gains once (R432). -/
def bucketGain (s : State) : State :=
  modTrim (fun t => { t with
    ports := Tab.mapAll t.ports (fun _ p => { p with bucket := p.bucket.gain })
    qs := Tab.mapAll t.qs (fun _ q => { q with bucket := q.bucket.gain })
    policers := Tab.mapAll t.policers (fun _ p => { p with bucket := p.bucket.gain }) }) s

/-- START of Trim sets every bucket to zero (R433). -/
def zeroBuckets (s : State) : State :=
  modTrim (fun t => { t with
    ports := Tab.mapAll t.ports (fun _ p => { p with bucket := p.bucket.zero })
    qs := Tab.mapAll t.qs (fun _ q => { q with bucket := q.bucket.zero })
    policers := Tab.mapAll t.policers (fun _ p => { p with bucket := p.bucket.zero }) }) s

/-! ### Queues (R423, R424, Table 17.1) -/

/-- The queue of a Stay packet (Table 17.1). -/
def stayQueue (vc : Nat) (sys : Bool) : Nat :=
  if vc = 3 then 7 else if vc = 2 then 6 else if vc = 1 then (if sys then 5 else 3) else (if sys then 4 else 2)

/-- Offer a packet to queue q of port p; a full queue keeps it waiting (R423). -/
def offer (p q : Nat) (k : TrimPkt) (s : State) : State :=
  if (queueOf p q s).pkts.length < 256 && !s.trim.waiting.any (fun w => w.1 = 8 * p + q) then
    modQ p q (fun t => { t with pkts := t.pkts ++ [k] }) s
  else modTrim (fun t => { t with waiting := t.waiting ++ [(8 * p + q, k)] }) s

/-- Packets that waited for a queue with room enter it, oldest first. -/
def admitWaiting (p q : Nat) (s : State) : State :=
  match s.trim.waiting.find? (fun w => w.1 = 8 * p + q) with
  | some w =>
    if (queueOf p q s).pkts.length < 256 then
      modQ p q (fun t => { t with pkts := t.pkts ++ [w.2] }) (modTrim (fun t => { t with waiting := t.waiting.erase w }) s)
    else s
  | none => s

/-- The charge of a queue's next unit (R431). -/
def unitCharge (p : Nat) (k : TrimPkt) : Nat := if 2 ≤ p then 256 else k.frame.length + 20

/-! ### Eligibility and selection (R426 - R430, R439) -/

/-- Port p can transmit (R428): its Ethernet link is up, or its Stay link is UP with room in the replay buffer (R359). -/
def portTakes (p : Nat) (s : State) : Bool :=
  if p < 2 then (Tab.get s.eth p).up
  else let l := Tab.get s.stay.links (p - 2); l.st = .up && l.replay.length < 64

/-- How a VC stands on this device (Table 15.8). -/
inductive VcSt where
  | none | held | ready
  deriving DecidableEq, Repr, Inhabited

/-- Table 15.8. -/
def vcState (vc : Nat) (s : State) : VcSt :=
  match s.dev.mode with
  | .cold | .boot => .none
  | .safe => .held
  | .quarantine => if vc = 3 then .ready else .held
  | .ready | .degraded => if vc = 3 || fnRunning 2 s then .ready else .held

/-- Queue q of port p is eligible: every condition of R426 and no other. While Trim is not RUNNING its buckets hold nothing back
(R439). -/
def eligible (p q : Nat) (s : State) : Bool :=
  let t := queueOf p q s
  match t.pkts with
  | [] => false
  | k :: _ =>
    (!trimRuns s || (t.bucket.open_ && (6 ≤ q || (Tab.get s.trim.ports p).bucket.open_))) &&
    (if p < 2 then !t.paused
     else 0 < Tab.get (Tab.get s.stay.links (p - 2)).credits k.vc &&
       (List.range 8).all (fun o => o = q || !((queueOf p o s).pkts.any (fun x => x.started && x.vc = k.vc))))

/-- The queue may send its next unit: it is eligible, and on Stay it starts no packet on a VC that is not ready (R368). -/
def maySend (p q : Nat) (s : State) : Bool :=
  eligible p q s && (p < 2 || (queueOf p q s).pkts.head?.any (fun k => k.started || vcState k.vc s = .ready))

/-- The highest queue from n - 1 down to `lo` that may send. -/
def highest (p : Nat) (s : State) (lo : Nat) : Nat → Option Nat
  | 0 => none
  | n + 1 => if lo ≤ n then (if maySend p n s then some n else highest p s lo n) else none

/-- How many queues are strict. -/
def strictOf (t : TrimPort) : Nat := if t.mode = 0 then 8 else t.nStrict

/-- The turn passes from weighted queue q to the next of the rotation (R427). -/
def passTurn (p q top : Nat) (s : State) : State :=
  modPort p (fun t => { t with turn := if q = 0 then top else q - 1, inTurn := false }) s

/-- The weighted queue whose turn it is ends the turn where it is empty, and where it holds a unit and is not eligible: its deficit is
0, or at most one quantum (R427). -/
def turnCheck (p : Nat) (s : State) : State :=
  let t := Tab.get s.trim.ports p
  let top := 7 - strictOf t
  if !trimRuns s || !t.inTurn || top < t.turn || maySend p t.turn s then s
  else passTurn p t.turn top (modQ p t.turn (fun x =>
    { x with deficit := if x.pkts.isEmpty then 0 else min x.deficit (512 * t.weights.getD t.turn 0) }) s)

/-- One visit after another of the weighted queues, in rotation, until one may send (R427). -/
def drr (p : Nat) : Nat → State → Option Nat × State
  | 0, s => (none, s)
  | fuel + 1, s =>
    let t := Tab.get s.trim.ports p
    let top := 7 - strictOf t
    let q := if top < t.turn then top else t.turn
    let quantum := 512 * t.weights.getD q 0
    let s1 := if t.inTurn then s else modQ p q (fun x => { x with deficit := x.deficit + quantum }) s
    let x := queueOf p q s1
    let s2 := modPort p (fun t => { t with turn := q, inTurn := true }) s1
    match x.pkts with
    | [] => drr p fuel (passTurn p q top (modQ p q (fun x => { x with deficit := 0 }) s2))
    | k :: _ =>
      if maySend p q s2 then
        if unitCharge p k ≤ x.deficit then (some q, s2) else drr p fuel (passTurn p q top s2)
      else drr p fuel (passTurn p q top (modQ p q (fun x => { x with deficit := min x.deficit quantum }) s2))

/-- The largest charge that waits at a port. -/
def maxCharge (p : Nat) (s : State) : Nat :=
  (List.range 8).foldl (fun m q => (queueOf p q s).pkts.foldl (fun m k => max m (unitCharge p k)) m) 256

/-- select (R427), for a port that can transmit; while Trim is not RUNNING by queue index alone (R439). -/
def trimSelect (p : Nat) (s0 : State) : Option Nat × State :=
  if !portTakes p s0 then (none, s0)
  else if !trimRuns s0 then (highest p s0 0 8, s0)
  else
    let s := turnCheck p s0
    let n := strictOf (Tab.get s.trim.ports p)
    match highest p s (8 - n) 8 with
    | some q => (some q, s)
    | none =>
      match highest p s 0 (8 - n) with
      | none => (none, s)
      | some _ => drr p (8 * (maxCharge p s / 512 + 2)) s

/-- Microseconds pass: HOLD_US counts them for every queue that holds a packet and is not eligible (Table 17.4). -/
def holdCount (n : Nat) (s : State) : State :=
  if n = 0 then s
  else modTrim (fun t => { t with qs := Tab.mapAll t.qs (fun i q =>
    if !q.pkts.isEmpty && !eligible (i / 8) (i % 8) s then { q with holdUs := min (2 ^ 32 - 1) (q.holdUs + n) } else q) }) s

/-- A unit of queue q starts: its charges, its deficit and its counters (R431, Table 17.4). -/
def chargeUnit (p q n : Nat) (s : State) : State :=
  let weighted := q + strictOf (Tab.get s.trim.ports p) < 8
  let s1 := modQ p q (fun t => { t with txBytes := min (t.txBytes + n) (2 ^ 64 - 1), txUnits := satInc 32 t.txUnits }) s
  if trimRuns s then
    modPort p (fun t => { t with bucket := t.bucket.charge n })
      (modQ p q (fun t => { t with bucket := t.bucket.charge n, deficit := if weighted then t.deficit - n else t.deficit }) s1)
  else s1

/-! ### Ethernet ports (R428, R443, R444) -/

/-- Change one Ethernet port. -/
def modEth (p : Nat) (f : EthPort → EthPort) (s : State) : State := { s with eth := Tab.mod s.eth p f }

/-- Send a frame of a priority on a port: its queue is its PCP (R424). A port whose function is not RUNNING refuses it. -/
def ethSend (p pcp : Nat) (frame : List Byte) (s : State) : State :=
  if fnRunning p s then offer p pcp { frame := frame } s else s

/-- Bytes that the ingress buffer of a priority holds. -/
def EthPort.held (e : EthPort) (prio : Nat) : Nat := if prio = 3 then e.held3 else e.held6

/-- The receiver has paused a priority. -/
def EthPort.pausedRx (e : EthPort) (prio : Nat) : Bool := if prio = 3 then e.paused3 else e.paused6

/-- Put one priority's buffer. -/
def EthPort.put (e : EthPort) (prio n : Nat) (pause : Bool) : EthPort :=
  if prio = 3 then { e with held3 := n, paused3 := pause } else { e with held6 := n, paused6 := pause }

/-- A frame enters its priority's ingress buffer, or is discarded and counted when the buffer is full (R444). The size of the
buffer of another priority is not given: `full` says whether it was full (log entry 2). -/
def ethFrameRx (p prio n : Nat) (full uncorr : Bool) (s : State) : State :=
  if p < 2 && (Tab.get s.eth p).up then
    let s := if uncorr then raise (0x132 + p) s else s
    if uncorr then s
    else if prio = 3 || prio = 6 then
      let e := Tab.get s.eth p
      let h := e.held prio + n
      if 0x100000 < h then modEth p (fun e => { e with discarded := satInc 32 e.discarded }) s
      else if 0xC0000 < h && !e.pausedRx prio then emit (.pfc p prio 0xFFFF) (modEth p (fun e => e.put prio h true) s)
      else modEth p (fun e => e.put prio h (e.pausedRx prio)) s
    else if full then modEth p (fun e => { e with discarded := satInc 32 e.discarded }) s
    else s
  else s

/-- A frame leaves its ingress buffer; below 512 KiB the pause ends, once (R444). -/
def ethTake (p prio n : Nat) (s : State) : State :=
  let e := Tab.get s.eth p
  let h := e.held prio - n
  if e.pausedRx prio && h < 0x80000 then emit (.pfc p prio 0) (modEth p (fun e => e.put prio h false) s)
  else modEth p (fun e => e.put prio h (e.pausedRx prio)) s

/-- The 40 us repeat while a buffer holds more than 768 KiB (R444). -/
def pfcRepeat (p prio : Nat) (s : State) : State :=
  if p < 2 && (prio = 3 || prio = 6) && 0xC0000 < (Tab.get s.eth p).held prio then
    emit (.pfc p prio 0xFFFF) (modEth p (fun e => e.put prio (e.held prio) true) s)
  else s

/-- A PFC frame's enabled priorities: a time of 0 ends the pause (R443). A weighted queue paused in its turn loses the turn. -/
def pfcRx (p : Nat) (times : List (Nat × Nat)) (s : State) : State :=
  if p < 2 then turnCheck p (times.foldl (fun s t => if t.1 < 8 then modQ p t.1 (fun q => { q with paused := 0 < t.2 }) s else s) s) else s

/-- A pause ends (R443). -/
def pfcExpiry (p prio : Nat) (s : State) : State :=
  if p < 2 && prio < 8 then modQ p prio (fun q => { q with paused := false }) s else s

/-- An Ethernet link goes down or comes up; down raises its source. A port is up only while its function is not STOPPED. -/
def ethLinkChange (p : Nat) (up : Bool) (s : State) : State :=
  if 2 ≤ p || s.dev.mode = .cold || s.dev.mode = .boot || s.dev.mode = .safe || domainLost 6 s && up then s
  else if up then (if fnState p s = .stopped then s else modEth p (fun e => { e with up := true }) s)
  else if (Tab.get s.eth p).up then raise (0x130 + p) (modEth p (fun e => { e with up := false }) s) else s

/-- The MAC timestamps the outstanding Delay_Req as its frame starts (The time unit). -/
def delayStart (k : TrimPkt) (s : State) : State :=
  if k.delayReq = some s.time.delaySeq then { s with time := { s.time with delayTx := some (s.time.sec * 1000000000 + s.time.ns : Nat) } }
  else s

/-- An Ethernet port sends one frame of its queue. -/
def ethSelect (p : Nat) (s : State) : State :=
  match trimSelect p s with
  | (some q, s1) =>
    match (queueOf p q s1).pkts with
    | [] => s1
    | k :: _ =>
      admitWaiting p q (delayStart k (emit (.eth p k.frame)
        (modQ p q (fun t => { t with pkts := t.pkts.tail }) (chargeUnit p q (unitCharge p k) s1))))
  | (none, s1) => s1

/-! ### Policers (R436 - R438) -/

/-- The meter of a tenant's sequenced packet of n bytes: whether it goes on. -/
def police (tenant n : Nat) (s : State) : Bool × State :=
  let b := Tab.get s.trim.policers tenant
  if !trimRuns s || b.bucket.rate = 0 then (true, s)
  else
    let put (p : Policer) : State := modTrim (fun t => { t with policers := Tab.put t.policers tenant p }) s
    if (1600 * n : Int) ≤ b.bucket.tok then
      (true, put { b with bucket := b.bucket.charge n, inBytes := min (b.inBytes + n) (2 ^ 64 - 1) })
    else
      let b1 := { b with oopBytes := min (b.oopBytes + n) (2 ^ 64 - 1), oopPkts := satInc 32 b.oopPkts }
      if b.mark then (true, put b1) else (false, put { b1 with dropped := satInc 32 b1.dropped })

/-! ### The rate Trim gives Shroud (R440) -/

/-- A bucket's rate; an unshaped one counts as the line rate. -/
def rateOf (line : Nat) (b : Bucket) : Nat := if b.rate = 0 then line else b.rate

/-- s of a connection over UDP port p. -/
def udpRate (p : Nat) (s : State) : Nat :=
  if trimRuns s then min (rateOf 400000 (queueOf p 3 s).bucket) (rateOf 400000 (Tab.get s.trim.ports p).bucket) else 400000

/-- s of a connection over the given usable Stay links. -/
def stayRate (links : List Nat) (sys : Bool) (s : State) : Nat :=
  links.foldl (fun n k => n +
    (if trimRuns s then
      min (min (rateOf 800000 (queueOf (k + 2) (stayQueue 0 sys) s).bucket) (rateOf 800000 (queueOf (k + 2) (stayQueue 1 sys) s).bucket))
        (rateOf 800000 (Tab.get s.trim.ports (k + 2)).bucket)
     else 800000)) 0

/-! ### Commands (Table 7.12) -/

/-- TRIM_MODE. MODE, N_STRICT and the weights are validated by START (R435). -/
def doTrimMode (c : Cmd) (_r : Nat × Nat) (s : State) : State × Answer :=
  let b := payloadOf c
  let p := fieldN b 0 1
  checkAll [ [ (14 ≤ p, .inval, 8), (!zeroAt b 3 1, .inval, 11), (fnState 4 s ≠ .stopped, .busy, 0) ] ]
    (fun _ => okWith [] (modPort p (fun t => { t with
      mode := fieldN b 1 1, nStrict := fieldN b 2 1, weights := (List.range 8).map (fun i => fieldN b (4 + i) 1),
      turn := 7 - fieldN b 2 1, inTurn := false })
      ((List.range 8).foldl (fun s q => modQ p q (fun t => { t with deficit := 0 }) s) s))) s

/-- START of Trim validates (R435). -/
def trimValid (s : State) : Bool :=
  (List.range 14).all (fun p =>
    let t := Tab.get s.trim.ports p
    t.mode = 0 || (t.mode = 1 && t.nStrict ≤ 8 && (List.range (8 - t.nStrict)).all (fun q => 1 ≤ t.weights.getD q 0)))

/-- TRIM_SHAPER (R433, R434). -/
def doTrimShaper (c : Cmd) (_r : Nat × Nat) (s : State) : State × Answer :=
  let b := payloadOf c
  let p := fieldN b 0 1
  let q := fieldN b 1 1
  let rate := fieldN b 4 4
  let burst := fieldN b 8 4
  checkAll [ [ (14 ≤ p, .inval, 8), (q = 6 || q = 7 || (8 ≤ q && q ≠ 0xFF), .inval, 9), (!zeroAt b 2 2, .inval, 10),
      (rate ≠ 0 && !(10 ≤ rate && rate ≤ (if p < 2 then 400000 else 800000)), .inval, 12),
      (if rate = 0 then burst ≠ 0 else !(16384 ≤ burst && burst ≤ 16777216), .inval, 16) ] ]
    (fun _ => okWith [] (if q = 0xFF then modPort p (fun t => { t with bucket := Bucket.set rate burst }) s
                         else modQ p q (fun t => { t with bucket := Bucket.set rate burst }) s)) s

/-- TRIM_POLICER (R438). SET_ACTION needs Trim STOPPED. -/
def doTrimPolicer (c : Cmd) (_r : Nat × Nat) (s : State) : State × Answer :=
  let b := payloadOf c
  let t := fieldN b 0 2
  let setAct := bitN (fieldN b 2 1) 0
  let rate := fieldN b 4 4
  let burst := fieldN b 8 4
  checkAll [ [ (256 ≤ t, .inval, 8), (2 ≤ fieldN b 2 1, .inval, 10), (2 ≤ fieldN b 3 1, .inval, 11),
      (rate ≠ 0 && !(8192 ≤ burst && burst ≤ 16777216), .inval, 16), (setAct && fnState 4 s ≠ .stopped, .busy, 0) ] ]
    (fun _ => okWith [] (modTrim (fun x => { x with policers := Tab.mod x.policers t (fun p =>
      { p with bucket := Bucket.set rate burst, mark := if setAct then fieldN b 3 1 = 1 else p.mark }) }) s)) s

end Sys2Proof.Machine
end

