-- ==== Sys2Proof/Machine/Mgmt.lean ====
section
/-! DEFINITION. SMB1 polling, the test port, the time unit and its servo, PPS, the Ratline and the persistent store
(spec/24_management.md, R620 - R658). -/

namespace Sys2Proof.Machine

/-! ### SMB1 -/

/-- Change one polled address. -/
def modSmb1 (a : Nat) (f : Smb1Dev → Smb1Dev) (s : State) : State :=
  { s with smb1 := { s.smb1 with devs := Tab.mod s.smb1.devs a f } }

/-- R625, R627, R628: one Read Word, its outcome, and a lost arbitration's first retry. -/
def smb1Outcome (a : Nat) (r : Smb1Result) (tries : Nat) (s : State) : State :=
  match r with
  | .word w =>
    let s1 := modSmb1 a (fun d => { d with word := w, status := 0, readAt := s.time.mono, naks := 0, absent := false }) s
    { s1 with smb1 := { s1.smb1 with retry := none } }
  | .nak =>
    let s1 := modSmb1 a (fun d => { d with status := 1, naks := min 3 (d.naks + 1), absent := d.absent || 3 ≤ d.naks + 1 }) s
    { s1 with smb1 := { s1.smb1 with retry := none } }
  | .lost =>
    let s1 := { s with smb1 := { s.smb1 with arbLost := s.smb1.arbLost + 1 } }
    if 8 < tries + 1 then
      raise 0x183 (modSmb1 a (fun d => { d with status := 2 }) { s1 with smb1 := { s1.smb1 with retry := none } })
    else { s1 with smb1 := { s1.smb1 with retry := some (a, tries + 1) } }

/-- SMB1 runs from FW_INIT and is idle in SAFE (Table 23.4). -/
def smb1Runs (s : State) : Bool := 5 ≤ s.dev.stage && !(s.dev.mode = .safe) && !(s.dev.mode = .cold)

/-- A poll of a listed address. -/
def smb1Poll (a : Nat) (r : Smb1Result) (s : State) : State :=
  if smb1Runs s && (Tab.get s.smb1.devs a).listed && s.smb1.retry.isNone then
    smb1Outcome a r 0 (emit (.smb1Read a) s)
  else s

/-- A retry after the free bus and the random delay. -/
def smb1Retry (a : Nat) (r : Smb1Result) (s : State) : State :=
  match s.smb1.retry with
  | some (b, t) => if a = b && smb1Runs s then smb1Outcome a r t (emit (.smb1Read a) s) else s
  | none => s

/-- The poll list of record 0x0010 (R626): every address with its PEC flag, or nothing when its content breaks the layout. -/
def pollList (d : Option (List Byte)) : Tab Smb1Dev :=
  match d with
  | none => []
  | some b =>
    let n := fieldN b 0 1
    if 16 < n || b.length ≠ 1 + n then []
    else ((b.drop 1).map BitVec.toNat).foldl (fun t e => Tab.put t (e % 128) { listed := true, pec := 128 ≤ e, status := 0 }) []

/-! ### JTAG -/

/-- An instruction loaded into the TAP (Table 24.3, R557, R636): every unlisted code, and the private codes while the debug lock is
closed, select the bypass register. A device in COLD answers on no interface (R101; Table 4.6). -/
def loadIr (ir : Nat) (lockOpen : Bool) (s : State) : State :=
  let reg : JtagReg :=
    if ir = 1 then .idcode else if 2 ≤ ir ∧ ir ≤ 5 then .boundary else if ir = 0x10 then .dbgStatus
    else if 0x20 ≤ ir ∧ ir ≤ 0x27 ∧ lockOpen then .privateDebug else .bypass
  if s.dev.mode = .cold then s else { s with jtag := { ir := ir % 256, reg := reg } }

/-- The register that stands between TDI and TDO: a private one no longer once the debug lock has closed (R557, R636). -/
def tapReg (s : State) : JtagReg :=
  if s.jtag.reg = .privateDebug && !(s.sec.lock = .opened) then .bypass else s.jtag.reg

/-- IDCODE (Table 24.3): version 0xB, part 0x0900, manufacturer 0x2D1, bit 0 set. -/
def idcode : BitVec 32 := (0xB : BitVec 4) ++ (0x0900 : BitVec 16) ++ (0x2D1 : BitVec 11) ++ (1 : BitVec 1)

/-- TRST_N low or five TMS-high cycles (R637): Test-Logic-Reset selects IDCODE. -/
def tapReset (s : State) : State := { s with jtag := { ir := 1, reg := .idcode } }

/-! ### Time unit -/

/-- The time unit counts. -/
def tclkRuns (s : State) : Bool := !domainLost 13 s && !(s.dev.mode = .cold)

/-- A count of nanoseconds with its fraction of 10^-9 ns after one TCLK edge (R639): 4 ns scaled by the trim. -/
def edgeAdd (ns frac : Nat) (trim : Int) : Nat × Nat :=
  let add := (4 * (1000000000 + trim)).toNat + frac
  (ns + add / 1000000000, add % 1000000000)

/-- TOD from a number of nanoseconds since second 0; 48-bit seconds. -/
def putTod (n : Int) (t : TimeUnit) : TimeUnit :=
  { t with sec := n.toNat / 1000000000 % 2 ^ 48, ns := n.toNat % 1000000000 }

/-- One TCLK edge (R639, R124, R641). -/
def tclkEdge (s : State) : State :=
  if tclkRuns s then
    modTime (fun t =>
      let (n, f) := edgeAdd t.ns t.frac t.trim
      let (m, g) := edgeAdd t.mono t.monoFrac t.trim
      let t1 := { t with sec := (t.sec + n / 1000000000) % 2 ^ 48, ns := n % 1000000000, frac := f,
                         mono := m % 2 ^ 64, monoFrac := g }
      let t2 := match t.setPend with
        | some (sec, ns) => { t1 with sec := sec, ns := ns, frac := 0, setPend := none }
        | none => t1
      { putTod (todNs t2 + t2.stepPend) t2 with stepPend := 0 }) s
  else s

/-- The discipline runs. -/
def disciplined (s : State) : Bool := fnRunning 0x0A s

/-- The servo after a measurement (R642, R643, R645). -/
def servo (off : Int) (s : State) : State :=
  let now := decide (-1000 ≤ off ∧ off ≤ 1000)
  let s1 := modTime (fun t =>
    let t0 := { t with offset := off, synced := now, measuredAt := t.mono }
    if off < -1000000 ∨ 1000000 < off then { putTod (max 0 (todNs t0 - off)) t0 with steps := t0.steps + 1 }
    else
      let tr := t0.trim - Config.servoCorrection off t0.integral
      let cl := max (-500000) (min 500000 tr)
      { t0 with trim := cl, integral := t0.integral + off, pinned := if tr = cl then t0.pinned else t0.pinned + 1 }) s
  if s.time.synced && !now then raise 0x182 s1 else s1

/-- A PTP message the time unit accepts (R644). -/
def ptpOk (m : PtpMsg) (s : State) : Bool :=
  disciplined s && tclkRuns s && (s.time.source = 1 || s.time.source = 2) && m.port + 1 = s.time.source &&
  m.gmId = s.rack.view.gmId && m.domain = s.time.ptpDomain && !(s.dev.mode = .safe)

/-- Sync: timestamped on reception; one-step carries its origin time. -/
def ptpSync (m : PtpMsg) (s : State) : State :=
  if ptpOk m s then
    modTime (fun t => { t with syncSeq := m.seqId, syncRx := some (todNs t), syncTx := if m.twoStep then none else some m.stamp }) s
  else s

/-- Follow_Up supplies the origin time of the two-step Sync with its sequence. -/
def ptpFollowUp (m : PtpMsg) (s : State) : State :=
  if ptpOk m s && s.time.syncRx.isSome && s.time.syncSeq = m.seqId then modTime (fun t => { t with syncTx := some m.stamp }) s else s

/-- Delay_Req, 8 per second, on queue 7 of the port that TIME_SOURCE names (R424, The time unit): the frame of the next sequence number
joins the queue, and is timestamped as it leaves it (`delayStart`). What the frame holds is free (log entry 31). -/
def delayReq (s : State) : State :=
  if disciplined s && tclkRuns s && (s.time.source = 1 || s.time.source = 2) && !(s.dev.mode = .safe) then
    let p := s.time.source - 1
    let q := wrapInc 16 s.time.delaySeq
    let s1 := modTime (fun t => { t with delaySeq := q, delayTx := none }) s
    if fnRunning p s then offer p 7 { frame := Config.delayReqFrame p q, delayReq := some q } s1 else s1
  else s

/-- Delay_Resp completes the exchange: offset = ((t2 - t1) - (t4 - t3)) / 2. -/
def ptpDelayResp (m : PtpMsg) (s : State) : State :=
  if ptpOk m s && m.seqId = s.time.delaySeq then
    match s.time.syncRx, s.time.syncTx, s.time.delayTx with
    | some t2, some t1, some t3 =>
      servo (((t2 - t1) - (m.stamp - t3)) / 2) (modTime (fun t => { t with syncRx := none, syncTx := none, delayTx := none }) s)
    | _, _, _ => s
  else s

/-- A new grandmaster: what was measured against the old clockIdentity is discarded (Edges of spec/24). -/
def dropSync (s : State) : State := modTime (fun t => { t with syncRx := none, syncTx := none, delayTx := none }) s

/-- A PPS_IN edge after a number of ns of low level (R646), taken PPS_DELAY_NS before its timestamp and as ns = 0. -/
def ppsIn (lowNs : Nat) (s : State) : State :=
  if !tclkRuns s || lowNs < 100 then s
  else if (match s.time.ppsInLast with | some a => decide (s.time.mono < a + 500000000) | none => false) then
    modTime (fun t => { t with ppsIgnored := t.ppsIgnored + 1 }) s
  else
    let s1 := modTime (fun t => { t with ppsInLast := some t.mono }) s
    if disciplined s && s.time.source = 3 then
      let x := (todNs s.time - s.time.ppsDelay) % 1000000000
      servo (if 500000000 ≤ x then x - 1000000000 else x) s1
    else s1

/-- PPS_OUT rises at a boundary TOD reaches by counting (R647). -/
def ppsRise (s : State) : State :=
  if tclkRuns s && s.time.ppsOutEn && disciplined s then modTime (fun t => { t with ppsOut := true }) s else s

/-- After 100 ms PPS_OUT falls. -/
def ppsFall (s : State) : State := modTime (fun t => { t with ppsOut := false }) s

/-- A measurement older than 3 s drops SYNCED (R645). -/
def syncedStale (s : State) : State :=
  if s.time.synced then raise 0x182 (modTime (fun t => { t with synced := false }) s) else s

/-- TIME_SOURCE: SOURCE 0 - 3, PTP_DOMAIN 0 - 127, reserved bits zero. -/
def doTimeSource (c : Cmd) (_r : Nat × Nat) (s : State) : State × Answer :=
  let p := payloadOf c
  checks
    [ (4 ≤ fieldN p 0 1, .inval, 8), (2 ≤ fieldN p 1 1, .inval, 9), (128 ≤ fieldN p 2 1, .inval, 10), (!zeroAt p 3 1, .inval, 11),
      (!(fnState 0x0A s = .stopped), .busy, 0) ]
    (fun _ => okWith [] (modTime (fun t => { t with source := fieldN p 0 1, ppsOutEn := bitN (fieldN p 1 1) 0,
                                                    ptpDomain := fieldN p 2 1, ppsDelay := fieldS p 4 4 }) s)) s

/-- TIME_STATUS. -/
def doTimeStatus (_c : Cmd) (_r : Nat × Nat) (s : State) : State × Answer :=
  okWith (leBytes 1 (b2n s.time.synced) ++ leBytes 1 s.time.source ++ leBytes 2 0 ++ leBytesInt 4 s.time.offset ++
          leBytes 4 s.time.pinned) s

/-! ### Ratline -/

/-- One step of the CRC-8 of Table 24.4 over a byte's bits, most significant first. -/
def crc8Bits : Nat → Nat → Nat
  | 0, c => c
  | n + 1, c => crc8Bits n (if 128 ≤ c then ((c * 2) % 256) ^^^ 0x07 else c * 2)

/-- CRC-8, polynomial 0x07, initial value 0. -/
def crc8 (bs : List Byte) : Nat := bs.foldl (fun c b => crc8Bits 8 (c ^^^ b.toNat)) 0

/-- A frame with its CRC. -/
def rlFrame (b : List Byte) : List Byte := b ++ leBytes 1 (crc8 b)

/-- R649: a frame the device takes as valid. -/
def rlValid (f : List Byte) : Bool :=
  f.length = 12 && (fieldN f 0 1 = 0xA5 || fieldN f 0 1 = 0x5A) && 1 ≤ fieldN f 1 1 && fieldN f 1 1 ≤ 64 &&
  crc8 (f.take 11) = fieldN f 11 1

/-- The device's own entry (Table 24.5). -/
def rlEntry (seq : Nat) (temp : Int) (s : State) : List Byte :=
  leBytes 1 (devNum s) ++ leBytes 1 s.dev.mode.code ++ leBytes 1 (b2n s.rl.orphaned + 4 * b2n s.pins.thermTrip) ++ leBytes 1 seq ++
  leBytesInt 2 temp ++ leBytes 2 s.pow.pwrW

/-- The always-on domain runs, and with it the Ratline. -/
def rlRuns (s : State) : Bool := !(s.dev.mode = .cold) && !domainLost 12 s

/-- Send an own entry with HOP 1. -/
def rlSendEntry (seq : Nat) (temp : Int) (s : State) : State :=
  emit (.ratline (rlFrame (leBytes 1 0xA5 ++ leBytes 1 1 ++ leBytes 1 seq ++ rlEntry seq temp s)))
    { s with rl := { s.rl with temp := temp } }

/-- Every 10 ms. -/
def rlPeriodic (temp : Int) (s : State) : State := if rlRuns s then rlSendEntry 0 temp s else s

/-- Forward a frame with HOP plus 1 unless its HOP is already 64. -/
def rlForward (f : List Byte) (s : State) : State :=
  let hop := fieldN f 1 1
  if hop < 64 then emit (.ratline (rlFrame (leBytes 1 (fieldN f 0 1) ++ leBytes 1 (hop + 1) ++ slice f 2 9))) s else s

/-- The result of a sweep (The Ratline chain): broken ones fill positions from the view with STALE. -/
def rlResult (broken : Bool) (w : RlSweep) (s : State) : List Byte :=
  let n := if broken then 64 else w.ring.getD 0
  let pos := fun (p : Nat) =>
    if !broken && p = n then some (rlEntry w.seq s.rl.temp s)
    else (Tab.get s.rl.view p).map (fun v =>
      if w.fresh.contains p then v.bytes
      else v.bytes.take 2 ++ leBytes 1 (fieldN v.bytes 2 1 / 4 * 4 + fieldN v.bytes 2 1 % 2 + 2) ++ v.bytes.drop 3)
  let have_ := (List.range n).filter (fun i => (pos (i + 1)).isSome)
  let last := have_.foldl (fun a i => max a (i + 1)) 0
  leBytes 1 have_.length ++ leBytes 1 last ++ leBytes 6 0 ++
    (List.range last).foldl (fun a i => a ++ (pos (i + 1)).getD (leBytes 8 0)) []

/-- A sweep completes when its own frame is back and a fresh entry of every position below N is held (R650). -/
def rlCheckDone (s : State) : State :=
  match s.rl.sweep with
  | some w =>
    match w.ring with
    | some n =>
      if (List.range (n - 1)).all (fun i => w.fresh.contains (i + 1)) then
        finish w.cmd .ok 0 (rlResult false w s) { s with rl := { s.rl with sweep := none } }
      else s
    | none => s
  | none => s

/-- A valid ENTRY: the device's own closes the ring and ends ORPHANED; another's updates the view and is forwarded (R649, R651). -/
def rlRxEntry (f : List Byte) (s : State) : State :=
  if rlRuns s && rlValid f && fieldN f 0 1 = 0xA5 then
    let hop := fieldN f 1 1
    if fieldN f 3 1 = devNum s then
      { s with rl := { s.rl with ringSize := some hop, orphaned := if fieldN f 2 1 = 0 then false else s.rl.orphaned } }
    else
      let s1 := { s with rl := { s.rl with
        view := Tab.put s.rl.view hop (some { bytes := slice f 3 8, at_ := s.time.mono })
        sweep := s.rl.sweep.map (fun w => if w.seq = fieldN f 2 1 then { w with fresh := hop :: w.fresh.filter (· ≠ hop) } else w) } }
      rlCheckDone (rlForward f s1)
  else s

/-- A valid SWEEP: the initiator's own completes its sweep, another's is forwarded and answered with a fresh ENTRY. -/
def rlRxSweep (f : List Byte) (temp : Int) (s : State) : State :=
  if rlRuns s && rlValid f && fieldN f 0 1 = 0x5A then
    if fieldN f 3 1 = devNum s then
      rlCheckDone { s with rl := { s.rl with
        ringSize := some (fieldN f 1 1)
        sweep := s.rl.sweep.map (fun w => if w.seq = fieldN f 2 1 then { w with ring := some (fieldN f 1 1) } else w) } }
    else rlSendEntry (fieldN f 2 1) temp (rlForward f s)
  else s

/-- 8,192 bit times without a frame of the sweep's SEQ: it ends broken (R196, R650). -/
def rlSweepTimeout (s : State) : State :=
  match s.rl.sweep with
  | some w => raise 0x184 (finish w.cmd .fault 1 (rlResult true w s) { s with rl := { s.rl with sweep := none } })
  | none => s

/-- 20 ms without its own frames: ORPHANED (R651). -/
def rlOrphan (s : State) : State :=
  if rlRuns s && !s.rl.orphaned then raise 0x184 { s with rl := { s.rl with orphaned := true } } else s

/-- RATLINE_SWEEP: one sweep at a time. -/
def doRatlineSweep (_c : Cmd) (r : Nat × Nat) (s : State) : State × Answer :=
  checks [(s.rl.sweep.isSome, .busy, 0)]
    (fun _ =>
      let q := if 255 ≤ s.rl.seq then 1 else s.rl.seq + 1
      (emit (.ratline (rlFrame (leBytes 1 0x5A ++ leBytes 1 1 ++ leBytes 1 q ++ leBytes 1 (devNum s) ++ leBytes 7 0)))
        { s with rl := { s.rl with seq := q, sweep := some { seq := q, cmd := r } } }, .later)) s

/-! ### Persistent store -/

/-- One bit of the reflected CRC-32 of IEEE 802.3. -/
def crc32Bits : Nat → Nat → Nat
  | 0, c => c
  | n + 1, c => crc32Bits n (if c % 2 = 1 then (c / 2) ^^^ 0xEDB88320 else c / 2)

/-- CRC-32 of IEEE 802.3. -/
def crc32 (bs : List Byte) : Nat :=
  (bs.foldl (fun c b => crc32Bits 8 (c ^^^ b.toNat)) 0xFFFFFFFF) ^^^ 0xFFFFFFFF

/-- "PSRC", little-endian. -/
def psMagic : Nat := 0x43525350

/-- The header bytes that the CRC covers. -/
def psHeader (record len seq : Nat) : List Byte := leBytes 4 psMagic ++ leBytes 2 record ++ leBytes 2 len ++ leBytes 4 seq

/-- A slot holds a valid copy of a record (The persistent store). -/
def psValid (record : Nat) (t : PsSlot) : Bool :=
  t.commit = 0xC3A55A3C && t.magic = psMagic && t.record = record && 1 ≤ t.len && t.len ≤ 4096 &&
  t.crc = crc32 (psHeader t.record t.len t.seq ++ slice t.data 0 t.len)

/-- The slot that a write in progress has begun to erase is not read (R654). -/
def psBusySlot (record : Nat) (b : Bool) (s : State) : Bool :=
  match s.ps.writing with
  | some w => w.record = record && w.slotB = b
  | none => false

/-- Slot A or B of a record. -/
def psSlot (record : Nat) (b : Bool) (s : State) : PsSlot := Tab.get s.ps.slots (2 * record + b2n b)

/-- The winning slot of a record: valid, with the higher SEQ modulo 2^32 (R654). -/
def psWinner (record : Nat) (s : State) : Option Bool :=
  let a := psValid record (psSlot record false s) && !psBusySlot record false s
  let b := psValid record (psSlot record true s) && !psBusySlot record true s
  let d := ((psSlot record true s).seq + 2 ^ 32 - (psSlot record false s).seq) % 2 ^ 32
  if a && b then some (decide (0 < d ∧ d < 2 ^ 31)) else if a then some false else if b then some true else none

/-- A record's data. -/
def psRead (record : Nat) (s : State) : Option (List Byte) :=
  (psWinner record s).map (fun b => let t := psSlot record b s; slice t.data 0 t.len)

/-- Begin the write of a record into the slot that does not hold its valid copy of higher SEQ (R652). -/
def psStart (record : Nat) (data : List Byte) (cmd : Option (Nat × Nat)) (s : State) : State :=
  let w : PsWrite := match psWinner record s with
    | some b => { record := record, slotB := !b, seq := wrapInc 32 (psSlot record b s).seq, data := data, cmd := cmd }
    | none => { record := record, slotB := false, seq := 1, data := data, cmd := cmd }
  { s with ps := { s.ps with writing := some w } }

/-- A firmware record write: at once, or after the write in progress. None starts while PWR_FAIL_N has fallen (R59, R655): one that comes
up then, or waits then, is dropped and not made good after the recovery (DESIGN CHOICE; log entry 77). -/
def psFirmware (record : Nat) (data : List Byte) (s : State) : State :=
  if s.pins.pwrFallen then s
  else if s.ps.writing.isSome then { s with ps := { s.ps with waiting := s.ps.waiting ++ [(record, data)] } }
  else psStart record data none s

/-- The next waiting firmware write; after a fall of PWR_FAIL_N all that wait are dropped (R655; log entry 77). -/
def psNext (s : State) : State :=
  match s.ps.waiting with
  | (r, d) :: rest =>
    if s.pins.pwrFallen then { s with ps := { s.ps with waiting := [] } }
    else psStart r d none { s with ps := { s.ps with waiting := rest } }
  | [] => s

/-- End the write in progress with a status for its command. -/
def psEnd (st : Status) (detail : Nat) (s : State) : State :=
  match s.ps.writing with
  | some w =>
    let s1 := { s with ps := { s.ps with writing := none } }
    psNext (match w.cmd with | some r => finish r st detail [] s1 | none => s1)
  | none => s

/-- The slot after one flash operation of a write. -/
def psApply (w : PsWrite) (t : PsSlot) : PsSlot :=
  match w.step with
  | .erase1 => { t with commit := 0xFFFFFFFF, magic := 0xFFFFFFFF, record := 0xFFFF, len := 0xFFFF, seq := 0xFFFFFFFF, crc := 0xFFFFFFFF }
  | .erase0 => { t with data := [] }
  | .page k => { t with data := w.data.take (256 * (k + 1)) }
  | .header => { t with magic := psMagic, record := w.record, len := w.data.length, seq := w.seq,
                        crc := crc32 (psHeader w.record w.data.length w.seq ++ w.data) }
  | .commit => { t with commit := 0xC3A55A3C }

/-- The step after one flash operation; none when the write is complete (R653). -/
def psStepNext (w : PsWrite) : Option PsStep :=
  match w.step with
  | .erase1 => some .erase0
  | .erase0 => some (.page 0)
  | .page k => if 256 * (k + 1) < w.data.length then some (.page (k + 1)) else some .header
  | .header => some .commit
  | .commit => none

/-- A flash erase or program completes (R653, R655, R658). -/
def psFlashDone (ok : Bool) (s : State) : State :=
  match s.ps.writing with
  | none => s
  | some w =>
    if !ok then raise 0x185 (psEnd .fault 4 s)
    else
      let s1 := { s with ps := { s.ps with slots := Tab.mod s.ps.slots (2 * w.record + b2n w.slotB) (psApply w) } }
      match psStepNext w with
      | none => psEnd .ok 0 s1
      | some n =>
        if s.pins.pwrFallen then psEnd .again 0 s1
        else { s1 with ps := { s1.ps with writing := some { w with step := n } } }

/-- The slots after a reset or a loss of power cuts a record write short: whether the flash operation in progress took effect is free.
Only the sector 1 erase and the commit word can show it, and either way the record keeps a valid copy that wins (The persistent store,
R652; log entry 3). -/
def psCut (s : State) : Tab PsSlot :=
  match s.ps.writing with
  | some w =>
    if (Config.freeValue s.free).getLsbD 0 then Tab.mod s.ps.slots (2 * w.record + b2n w.slotB) (psApply w) else s.ps.slots
  | none => s.ps.slots

/-- R656: at every boot the commit word of each winning slot is programmed again with the same value. -/
def psRecommit (s : State) : State :=
  let f := fun (t : Tab PsSlot) (r : Nat) =>
    match psWinner r s with
    | some b => Tab.mod t (2 * r + b2n b) (fun x => { x with commit := 0xC3A55A3C })
    | none => t
  { s with ps := { s.ps with slots := (List.range 256).foldl f s.ps.slots } }

/-- PSTORE_READ (R654, R657). -/
def doPstoreRead (c : Cmd) (_r : Nat × Nat) (s : State) : State × Answer :=
  let p := payloadOf c
  let rec_ := fieldN p 8 2
  let off := fieldN p 10 2
  let d := psRead rec_ s
  let len := (d.getD []).length
  checks [(0xFF < rec_, .inval, 16), (d.isNone, .noent, 0), (len ≤ off, .inval, 18)]
    (fun _ =>
      let b := (d.getD []).drop off
      (s, .now .ok len (if 16 ≤ c.mb ∧ c.mb ≤ 18 then b.take 1008 else b))) s

/-- PSTORE_WRITE (R189, R652 - R658). The data arrives at SRC_ADDR, or from offset 16 on mailboxes 16 - 18. -/
def doPstoreWrite (c : Cmd) (r : Nat × Nat) (s : State) : State × Answer :=
  let p := payloadOf c
  let inMsg := 16 ≤ c.mb && c.mb ≤ 18
  let rec_ := fieldN p 8 2
  let len := fieldN p 10 2
  let src := fieldN p 0 8
  let data := if inMsg then some (slice p 16 len) else readHost (mbReq c.mb s) c.rd.data s
  checks
    [ (inMsg && !(src = 0), .inval, 8), (0xFF < rec_, .inval, 16),
      (len = 0 || 4096 < len, .inval, 18), (inMsg && !zeroAt p 12 4, .inval, 20),
      (s.pins.pwrFallen, .again, 0), (s.ps.writing.isSome, .busy, 0), (data.isNone, .fault, 1) ]
    (fun _ => (psStart rec_ (slice (data.getD []) 0 len) (some r) s, .later)) s

/-! ### GPIO and console -/

/-- GPIO_CFG (R33): bits outside MASK are unchanged. -/
def doGpioCfg (c : Cmd) (_r : Nat × Nat) (s : State) : State × Answer :=
  let p := payloadOf c
  let m : Byte := BitVec.ofNat 8 (fieldN p 0 1)
  let d : Byte := BitVec.ofNat 8 (fieldN p 1 1)
  let v : Byte := BitVec.ofNat 8 (fieldN p 2 1)
  okWith [] { s with pins := { s.pins with
    gpioDir := (s.pins.gpioDir &&& ~~~m) ||| (d &&& m)
    gpioOut := (s.pins.gpioOut &&& ~~~m) ||| (v &&& m) } }

/-- CONSOLE_CFG (R631): the rate applies after this command's R line when it came on the console, else at once. -/
def doConsoleCfg (c : Cmd) (_r : Nat × Nat) (s : State) : State × Answer :=
  let b := fieldN (payloadOf c) 0 4
  checks [(b < 9600 || 3000000 < b, .inval, 8)]
    (fun _ => okWith [] { s with uart := if c.mb = 18 then { s.uart with nextBaud := some b } else { s.uart with baud := b } }) s

/-- SENSOR_READ (Table 24.2): the temperatures and regulator readings are what the sensors give at the read. -/
def doSensorRead (c : Cmd) (_r : Nat × Nat) (s : State) : State × Answer :=
  let p := payloadOf c
  let k := fieldN p 8 1
  let a := fieldN p 9 1
  let d := Tab.get s.smb1.devs a
  checks [(3 ≤ k, .inval, 16)]
    (fun _ =>
      if k = 0 then okWith (slice (c.rd.data.getD []) 0 22 ++ leBytes 2 0) s
      else if k = 1 then
        let vrm := fun (n : Nat) =>
          let r := railOf n s
          leBytes 2 r.v ++ leBytes 2 (r.milliamp / 100) ++ leBytes 2 r.temp ++ slice (c.rd.data.getD []) (6 * n) 2 ++
          slice (c.rd.data.getD []) (6 * n + 2) 4 ++ leBytes 4 0
        okWith (vrm 0 ++ vrm 1) s
      else okWith (leBytes 1 a ++ leBytes 1 (if d.listed then d.status else 3) ++ leBytes 2 d.word ++
                   leBytes 4 (min 0xFFFFFFFF ((s.time.mono - d.readAt) / 1000000))) s) s

end Sys2Proof.Machine
end

