-- ==== Sys2Proof/Machine/Frame.lean ====
section
/-! DEFINITION. The Frame engine: contexts, slots, raw frames and markers, decoder streams, patch conversion, encoding and rate
control (spec/20_frame_engine.md, R505 - R533). -/

namespace Sys2Proof.Machine

def fctxOf (f : Nat) (s : State) : FrameCtx := Tab.get s.frame.ctxs f

def modFctx (f : Nat) (g : FrameCtx → FrameCtx) (s : State) : State :=
  { s with frame := { s.frame with ctxs := Tab.mod s.frame.ctxs f g } }

def slotOf (f n : Nat) (s : State) : FrameSlot := Tab.get (fctxOf f s).slots n

def modFslot (f n : Nat) (g : FrameSlot → FrameSlot) (s : State) : State :=
  modFctx f (fun x => { x with slots := Tab.mod x.slots n g }) s

/-! ### Geometry (Tables 20.2, 20.3) -/


/-- Bytes per patch, and the bytes of a slot for a picture size. -/
def FrameCtx.pstride (x : FrameCtx) : Nat := roundUp 64 (3 * x.patch * x.patch)

def FrameCtx.slotBytes (x : FrameCtx) (w h : Nat) : Nat := roundUp 65536 (ceilDiv w x.patch * ceilDiv h x.patch * x.pstride)

/-- Bytes of one reference picture, and how many there are. -/
def pictBytes (w h : Nat) : Nat := roundUp 65536 (w * h * 3 / 2)

def FrameCtx.refPics (x : FrameCtx) : Nat := if x.source = 0 then 2 else 8

/-- Offset of slot n, and of the ring, in OUT_REGION. -/
def FrameCtx.slotOff (x : FrameCtx) (n : Nat) : Nat :=
  0x10000 + x.refPics * pictBytes x.width x.height + n * x.slotBytes x.width x.height

/-- Twice the bytes of a pixel. -/
def bpp2 (fmt : Nat) : Nat := if fmt = 0 then 6 else if fmt = 1 then 8 else 3

/-- FRAME_BYTES that Table 20.2 gives. -/
def rawBytes (w h fmt : Nat) : Nat := roundUp 32 (ceilDiv (w * h * bpp2 fmt) 2)

/-- The first byte of a context's OUT_REGION. -/
def FrameCtx.base (x : FrameCtx) (s : State) : Nat := (regionOf x.region s).page * 0x200000

/-- Length of the ring. -/
def FrameCtx.ringLen (x : FrameCtx) (s : State) : Nat := (regionOf x.region s).pages * 0x200000 - x.slotOff 4

/-- A frame's handle. -/
def frameHandle (f n gen : Nat) : Nat := handleOf (4 * f + n) gen

/-- Patches of a picture. -/
def FrameCtx.patches (x : FrameCtx) (w h : Nat) : Nat := ceilDiv w x.patch * ceilDiv h x.patch

/-- The slot record of Table 20.5. -/
def slotRecord (f n : Nat) (s : State) : List Byte :=
  let x := fctxOf f s
  let t := slotOf f n s
  leBytes 4 (frameHandle f n t.gen) ++ leBytes 1 t.fstat ++
  leBytes 1 (match t.st with | .free => 0 | .queued => 1 | .begun => 2 | .ended => 3) ++ leBytes 2 0 ++ leBytes 4 t.seq ++
  leBytes 2 t.width ++ leBytes 2 t.height ++ leBytes 4 (x.patches t.width t.height) ++ leBytes 2 (ceilDiv t.width x.patch) ++
  leBytes 2 (ceilDiv t.height x.patch) ++ leBytes 8 t.captureNs ++ leBytes 4 t.encBytes ++ leBytes 1 t.encQp ++ leBytes 1 t.encType ++
  leBytes 26 0

/-- Write a slot's record into the header of OUT_REGION. -/
def putRecord (f n : Nat) (s : State) : State := memWrite ((fctxOf f s).base s + 64 * n) (slotRecord f n s) s

/-! ### Commands -/

/-- A field range of Table 20.2: W and H even and inside the source's limits. -/
def sizeOk (source w h : Nat) : Bool :=
  w % 2 = 0 && h % 2 = 0 &&
  (if source = 0 then 16 ≤ w && w ≤ 7680 && 16 ≤ h && h ≤ 4320 else 64 ≤ w && w ≤ 4096 && 64 ≤ h && h ≤ 2304)

/-- FRAME_CTX_CFG (R505, R526, R532, R535). -/
def doFrameCtxCfg (c : Cmd) (_r : Nat × Nat) (s : State) : State × Answer :=
  let p := payloadOf c
  let src := fieldN p 0 1
  let fmt := fieldN p 1 1
  let w := fieldN p 4 2
  let h := fieldN p 6 2
  let tn := fieldN p 22 2
  let rh := fieldN p 16 4
  let rg := regionOf (rh % 65536) s
  let idx := freeIdx s.frame.ctxs (fun x => x.live) 256
  let cl := freeIdx s.comp.gcl (fun x => x.active) 4096
  let x : FrameCtx :=
    { gen := firstGen (fctxOf (idx.getD 0) s).gen, live := true, fn := mbFn c.mb s, tenant := tn, source := src, pixfmt := fmt,
      follow := bitN (fieldN p 2 1) 0, fillRepeat := bitN (fieldN p 2 1) 1, width := w, height := h, frameBytes := fieldN p 8 4,
      fillRgb := fieldN p 12 4, region := rh % 65536, patch := fieldN p 20 2, curW := w, curH := h, cleat := cl.getD 0 }
  checkAll
    [ [ (4 ≤ src, .inval, 8), (if src = 0 then 3 ≤ fmt else fmt ≠ 2, .inval, 9), (4 ≤ fieldN p 2 1, .inval, 10), (!zeroAt p 3 1, .inval, 11),
       (!sizeOk src w (if src = 0 then 16 else 64), .inval, 12), (!sizeOk src (if src = 0 then 16 else 64) h, .inval, 14),
       (fieldN p 8 4 ≠ (if src = 0 then rawBytes w h fmt else 0), .inval, 16), (2 ^ 24 ≤ fieldN p 12 4, .inval, 20),
       (fieldN p 20 2 < 4 || 64 < fieldN p 20 2 || fieldN p 20 2 % 2 = 1, .inval, 28), (256 ≤ tn, .inval, 30) ],
      objChecks c rh 65536 rg.gen rg.live rg.fn s,
      [ (otherTenant c tn s || !hasHbmKey tn s, .noent, 0),
       (rg.tenant ≠ tn || rg.pages * 0x200000 < x.slotOff 4 + (if src = 0 then 0x100000 else 0), .inval, 24),
       (!fnRunning 0x06 s, .busy, 0), (idx.isNone || cl.isNone, .nospc, 0) ] ]
    (fun _ =>
      let f := idx.getD 0
      let s1 := modFctx f (fun _ => x) s
      let s2 := modCleat true x.cleat (fun _ => { active := true, owner := .frame f }) s1
      let ring := leBytes 8 (if src = 0 then x.slotOff 4 else 0) ++ leBytes 8 (if src = 0 then x.ringLen s else 0) ++ leBytes 16 0
      okWith (leBytes 4 (handleOf f x.gen)) (memWrite (x.base s + 0x100) ring s2)) s

/-- The checks of an FCTX handle. -/
def fctxChecks (c : Cmd) (h : Nat) (s : State) : List (Bool × Status × Nat) :=
  let x := fctxOf (h % 65536) s
  objChecks c h 256 x.gen x.live x.fn s

/-- A SUBMIT references a frame of the context, or one slot's frame: from its fetch, while it waits to start too. -/
def frameHeld (f : Nat) (n : Option Nat) (s : State) : Bool :=
  s.srv.ctxs.any (fun c => match c.2.req with
    | some q => (match q.frame with | some (g, k) => g = f && (n.isNone || n = some k) | none => false)
    | none => false) ||
  s.host.cmds.any (fun o =>
    let p := payloadOf o.cmd
    o.prog = .queued && o.cmd.op = 0x0401 && bitN (fieldN p 4 1) 1 && fieldN p 12 2 / 4 = f && (n.isNone || n = some (fieldN p 12 2 % 4)) &&
    fieldN p 14 2 = (slotOf f (fieldN p 12 2 % 4) s).gen)

/-- Some slot of a context is in one of the states. -/
def anySlot (f : Nat) (p : SlotSt → Bool) (s : State) : Bool := (List.range 4).any (fun n => p (slotOf f n s).st)

/-- Free a context and its Cleat. -/
def freeFctx (f : Nat) (s : State) : State :=
  let x := fctxOf f s
  modCleat true x.cleat Cleat.freed (modFctx f (fun _ => { gen := nextGen x.gen }) s)

/-- FRAME_CTX_FREE (R508). -/
def doFrameCtxFree (c : Cmd) (_r : Nat × Nat) (s : State) : State × Answer :=
  let h := fieldN (payloadOf c) 0 4
  let f := h % 65536
  checkAll
    [ fctxChecks c h s,
      [(anySlot f (fun t => t = .queued || t = .begun) s || frameHeld f none s, .busy, 0)] ]
    (fun _ => okWith [] (freeFctx f s)) s

/-- FRAME_RC: at the next frame. -/
def doFrameRc (c : Cmd) (_r : Nat × Nat) (s : State) : State × Answer :=
  let p := payloadOf c
  let h := fieldN p 0 4
  checks (fctxChecks c h s) (fun _ => okWith [] (modFctx (h % 65536) (fun x => { x with kbps := fieldN p 4 4 }) s)) s

/-- FRAME_ROI (R530). -/
def doFrameRoi (c : Cmd) (_r : Nat × Nat) (s : State) : State × Answer :=
  let p := payloadOf c
  let h := fieldN p 0 4
  let x := fctxOf (h % 65536) s
  let q := fieldS p 5 1
  let geom := bitN (fieldN p 6 1) 0
  let gx := fieldN p 8 2
  let gy := fieldN p 10 2
  let gw := fieldN p 12 2
  let gh := fieldN p 14 2
  let off := gw = 0 && gh = 0
  checkAll
    [ [ (8 ≤ fieldN p 4 1, .inval, 12), (q < -12 || 12 < q, .inval, 13), (2 ≤ fieldN p 6 1, .inval, 14), (!zeroAt p 7 1, .inval, 15) ],
      fctxChecks c h s,
      [ (geom && !off && x.width < gx + gw, .inval, 16), (geom && !off && x.height < gy + gh, .inval, 18),
       (geom && anySlot (h % 65536) (fun t => t = .begun) s, .busy, 0) ] ]
    (fun _ => okWith [] (modFctx (h % 65536) (fun x =>
      { x with
        rois := Tab.mod x.rois (fieldN p 4 1) (fun r =>
          if geom then { x := gx, y := gy, w := gw, h := gh, quality := q } else { r with quality := q })
        forceIdr := x.forceIdr || geom }) s)) s

/-- A range lies in a region of a tenant. -/
def inTenantRegion (tn a n : Nat) (s : State) : Bool := s.srv.regions.any (fun r => r.2.tenant = tn && r.2.holds a n)

/-- A slot for a new frame (R509): a FREE one, else the oldest ENDED one that is neither the most recent ended nor referenced. -/
def pickSlot (f : Nat) (s : State) : Option Nat :=
  match firstIdx (fun n => (slotOf f n s).st = .free) 0 4 with
  | some n => some n
  | none =>
    let ended := (List.range 4).filter (fun n => (slotOf f n s).st = .ended)
    let last := ended.foldl (fun m n => max m (slotOf f n s).seq) 0
    let ok := ended.filter (fun n => (slotOf f n s).seq ≠ last && !frameHeld f (some n) s && !(slotOf f n s).encPend)
    ok.foldl (fun m n => match m with
      | none => some n
      | some k => if (slotOf f n s).seq < (slotOf f k s).seq then some n else some k) none

/-- FRAME_SUBMIT (R509 - R512, R517, R518, R532). -/
def doFrameSubmit (c : Cmd) (r : Nat × Nat) (s : State) : State × Answer :=
  let p := payloadOf c
  let h := fieldN p 0 4
  let f := h % 65536
  let x := fctxOf f s
  let fl := fieldN p 4 1
  let loc := bitN fl 0
  let a := fieldN p 8 8
  let len := fieldN p 16 4
  let chunk := if loc then some (rawRead a len s) else readHost (mbReq c.mb s) c.rd.data s
  let dims := if x.source = 0 then none else Config.streamDims x.source (chunk.getD [])
  let w := (dims.getD (x.curW, x.curH)).1
  let hh := (dims.getD (x.curW, x.curH)).2
  let slot := pickSlot f s
  checkAll
    [ [ (4 ≤ fl, .inval, 12), (!zeroAt p 5 3, .inval, 13), (len = 0 || 0x4000000 < len, .inval, 24) ],
      fctxChecks c h s,
      [ (loc && !inTenantRegion x.tenant a len s, .inval, 16),
       (x.source ≠ 0 && !x.follow && (w ≠ x.width || hh ≠ x.height), .inval, 0xFFFF),
       (!fnRunning 0x06 s, .busy, 0), (slot.isNone, .busy, 0),
       (x.source ≠ 0 && (pictBytes x.width x.height < pictBytes w hh || x.slotBytes x.width x.height < x.slotBytes w hh), .nospc, 0) ] ]
    (fun _ =>
      let n := slot.getD 0
      let old := slotOf f n s
      let gen := if old.st = .ended then nextGen old.gen else firstGen old.gen
      let t : FrameSlot :=
        { st := .queued, gen := gen, seq := x.seq + 1, width := w, height := hh, captureNs := if x.source = 0 then 0 else ((s.host.cmds.find? (isRef r.1 r.2)).map (·.at_)).getD s.time.mono,
          srcLocal := loc, srcAddr := a, len := len, wait := if bitN fl 1 then some r else none }
      let s1 := modFctx f (fun x => { x with seq := x.seq + 1, curW := w, curH := hh, slots := Tab.put x.slots n t }) s
      let s2 := putRecord f n s1
      if bitN fl 1 then (s2, .later)
      else okWith (leBytes 4 (frameHandle f n gen) ++ leBytes 4 0 ++ leBytes 4 (x.patches w hh)) s2) s

/-! ### Taking and ending frames -/

/-- The oldest queued slot of a context. -/
def oldestQueued (f : Nat) (s : State) : Option Nat :=
  ((List.range 4).filter (fun n => (slotOf f n s).st = .queued)).foldl (fun m n => match m with
    | none => some n
    | some k => if (slotOf f n s).seq < (slotOf f k s).seq then some n else some k) none

/-- Begun frames of raw contexts, or of decoder ones. -/
def begunCount (raw : Bool) (s : State) : Nat :=
  ((List.range 256).filter (fun f => ((fctxOf f s).source = 0) = raw && anySlot f (fun t => t = .begun) s)).length

/-- The Frame engine's clock runs and the device is not SAFE. -/
def frameRuns (s : State) : Bool := !domainLost 10 s && !(s.dev.mode = .safe)

/-- A free unit takes the oldest queued frame of the next context in rotation that has one (R506). A context has at most one
frame begun. -/
def unitTake (s : State) : State :=
  let ok := fun (i : Nat) =>
    let f := (s.frame.rot + 1 + i) % 256
    (oldestQueued f s).isSome && !anySlot f (fun t => t = .begun) s &&
    (if (fctxOf f s).source = 0 then decide (begunCount true s < 2) else decide (begunCount false s < 4))
  if !frameRuns s then s
  else match firstIdx ok 0 256 with
    | none => s
    | some i =>
      let f := (s.frame.rot + 1 + i) % 256
      match oldestQueued f s with
      | none => s
      | some n =>
        let s1 := modFslot f n (fun t => { t with st := .begun }) s
        putRecord f n { s1 with frame := { s1.frame with rot := f } }

/-- A marker at an offset that is a multiple of 32 (Table 20.4): its TYPE. -/
def markerAt (b : List Byte) (o : Nat) : Option Nat :=
  let m := slice b o 32
  let t := fieldN m 8 1
  if o % 32 = 0 && o + 32 ≤ b.length && m.take 8 = [0x56, 0x59, 0x46, 0x54, 0x4D, 0x41, 0x52, 0x4B] && (t = 1 || t = 2) &&
    zeroAt m 9 3 && zeroAt m 24 4 && (t = 1 || zeroAt m 16 8) && fieldN m 28 4 = crc32 (m.take 28) then some t
  else none

/-- The offset at which a raw frame's pixel bytes end: the next marker, or the chunk's end. -/
def frameEndAt (b : List Byte) : Nat → Nat → Nat
  | 0, _ => b.length
  | fuel + 1, o => if b.length ≤ o then b.length else if (markerAt b o).isSome then o else frameEndAt b fuel (o + 32)

/-- The pixel bytes a short frame is completed with (R515): of the previous frame, or FILL_RGB. -/
def fillBytes (x : FrameCtx) : List Byte :=
  let r := bitsN x.fillRgb 16 8
  let g := bitsN x.fillRgb 8 8
  let b := bitsN x.fillRgb 0 8
  let px := x.width * x.height
  let pix := if x.pixfmt = 0 then (List.replicate px (leBytes 1 r ++ leBytes 1 g ++ leBytes 1 b)).flatten
    else if x.pixfmt = 1 then (List.replicate px (leBytes 1 b ++ leBytes 1 g ++ leBytes 1 r ++ leBytes 1 0)).flatten
    else []
  padTo x.frameBytes pix

/-- Bytes of one whole line. -/
def lineBytes (x : FrameCtx) : Nat := if x.pixfmt = 0 then 3 * x.width else if x.pixfmt = 1 then 4 * x.width else x.width

/-- What a raw chunk gives: FSTAT, the completed pixel bytes, the stray bytes, CAPTURE_NS and how many whole lines captures gave; the later
ones take FILL_RGB. -/
structure RawFrame where
  fstat : Nat
  pix : List Byte
  stray : Nat
  capture : Nat
  lines : Nat
  deriving DecidableEq, Repr, Inhabited

/-- R513 - R515: none where the chunk does not begin with a start marker. -/
def rawFrame (x : FrameCtx) (b : List Byte) : Option RawFrame :=
  if markerAt b 0 ≠ some 1 then none
  else
    let e := frameEndAt b (b.length / 32) 32
    let body := (b.take e).drop 32
    let rest := b.length - e - (if markerAt b e = some 2 then 32 else 0)
    let n := body.length
    let cap := fieldN b 16 8
    if n < x.frameBytes then
      let kept := n / lineBytes x * lineBytes x
      let old := if x.fillRepeat then x.prev else none
      some { fstat := 1, pix := body.take kept ++ (old.getD (fillBytes x)).drop kept, stray := rest, capture := cap
             lines := if old.isSome then max (n / lineBytes x) x.prevLines else n / lineBytes x }
    else some { fstat := if x.frameBytes < n then 2 else 0, pix := body.take x.frameBytes, stray := rest, capture := cap,
                lines := x.height + x.height / 2 }

/-! ### Patch conversion (R520) -/

/-- Round v / 256 to nearest, ties away from zero, and clamp to a byte. -/
def div256 (v : Int) : Nat :=
  let q := if 0 ≤ v then (v + 128) / 256 else -((-v + 128) / 256)
  (max 0 (min 255 q)).toNat

/-- R, G and B of a Y, Cb, Cr triple. -/
def yuvRgb (y cb cr : Int) : Nat × Nat × Nat :=
  (div256 (298 * (y - 16) + 459 * (cr - 128)), div256 (298 * (y - 16) - 55 * (cb - 128) - 136 * (cr - 128)),
   div256 (298 * (y - 16) + 541 * (cb - 128)))

/-- The R, G, B of FILL_RGB. -/
def fillPix (x : FrameCtx) : Nat × Nat × Nat := (bitsN x.fillRgb 16 8, bitsN x.fillRgb 8 8, bitsN x.fillRgb 0 8)

/-- Pixel (px, py) of a picture of w x h in a format. -/
def pixelAt (fmt w h : Nat) (b : List Byte) (px py : Nat) : Nat × Nat × Nat :=
  if fmt = 0 then
    let o := 3 * (py * w + px)
    (fieldN b o 1, fieldN b (o + 1) 1, fieldN b (o + 2) 1)
  else if fmt = 1 then
    let o := 4 * (py * w + px)
    (fieldN b (o + 2) 1, fieldN b (o + 1) 1, fieldN b o 1)
  else
    let c := w * h + py / 2 * w + px / 2 * 2
    yuvRgb (fieldN b (py * w + px) 1) (fieldN b c 1) (fieldN b (c + 1) 1)

/-- One plane of patch (gx, gy). -/
def patchPlane (x : FrameCtx) (pix : Nat → Nat → Nat × Nat × Nat) (w h gx gy : Nat) (pick : Nat × Nat × Nat → Nat) : List Byte :=
  (List.range (x.patch * x.patch)).map (fun i =>
    let px := gx * x.patch + i % x.patch
    let py := gy * x.patch + i / x.patch
    BitVec.ofNat 8 (pick (if px < w && py < h then pix px py else fillPix x)))

/-- The bytes of a slot's patches for a picture. -/
def patchBytes (x : FrameCtx) (pix : Nat → Nat → Nat × Nat × Nat) (w h : Nat) : List Byte :=
  let gw := ceilDiv w x.patch
  (List.range (x.patches w h)).flatMap (fun k =>
    let pl := patchPlane x pix w h (k % gw) (k / gw)
    padTo x.pstride (pl (·.1) ++ pl (·.2.1) ++ pl (·.2.2)))

/-! ### The end of a frame -/

/-- A frame is ENDED with an FSTAT (Table 20.7, R507, R511, R512): the counters, the record, then the
Cleat, and the sources of Table 20.9. -/
def endFrame (f n fstat : Nat) (fault : Option Nat) (s : State) : State :=
  let x := fctxOf f s
  let t := slotOf f n s
  let s1 := modFctx f (fun x => { x with
    frames := satInc 32 x.frames
    truncated := if bitN fstat 0 then satInc 32 x.truncated else x.truncated
    overlong := if bitN fstat 1 then satInc 32 x.overlong else x.overlong
    errors := if bitN fstat 2 then satInc 32 x.errors else x.errors
    cancelled := if bitN fstat 3 then satInc 32 x.cancelled else x.cancelled }) s
  let s2 := modFslot f n (fun t => { t with st := .ended, fstat := fstat, wait := none,
                                            encPend := x.source = 0 && x.kbps ≠ 0 && fstat < 4, encKbps := x.kbps }) s1
  let s3 := signalGlobal x.cleat 1 (putRecord f n s2)
  let s4 := if bitN fstat 0 then raise 0x158 s3 else s3
  let s5 := if bitN fstat 1 then raise 0x159 s4 else s4
  let s6 := if bitN fstat 2 then raise 0x15A s5 else s5
  match t.wait with
  | some r =>
    match fault with
    | some d => finish r .fault d [] s6
    | none => finish r .ok 0 (leBytes 4 (frameHandle f n t.gen) ++ leBytes 4 fstat ++ leBytes 4 (x.patches t.width t.height)) s6
  | none => s6

/-- A begun frame ends: its source is read, ingested or decoded, and its patches are written (R506, R512 - R519). -/
def frameDone (f n : Nat) (chunk : Option (List Byte)) (s : State) : State :=
  let x := fctxOf f s
  let t := slotOf f n s
  if !(t.st = .begun) || !frameRuns s then s
  else
    let (src, bad, s1) := if t.srcLocal then
        match memRead t.srcAddr t.len s with
        | (some b, s1) => (some b, false, s1)
        | (none, s1) => ((none : Option (List Byte)), true, s1)
      else (readHost x.fn (chunk.map (fun b => slice b 0 t.len)) s, false, s)
    match src with
    | none => endFrame f n 4 (some (if bad then 3 else 1)) s1
    | some b =>
      if x.source = 0 then
        match rawFrame x b with
        | none => endFrame f n 4 none s1
        | some r =>
          let missing := fun (py : Nat) => decide (r.lines ≤ py) || (x.pixfmt = 2 && decide (r.lines ≤ x.height + py / 2))
          let pix := fun (px py : Nat) => if missing py then fillPix x else pixelAt x.pixfmt x.width x.height r.pix px py
          let s2 := memWrite (x.base s1 + x.slotOff n) (patchBytes x pix x.width x.height) s1
          let s3 := modFctx f (fun x => { x with prev := some r.pix, prevLines := r.lines, stray := min (2 ^ 64 - 1) (x.stray + r.stray) }) s2
          endFrame f n r.fstat none (modFslot f n (fun t => { t with captureNs := r.capture }) s3)
      else
        let idr := Config.streamIdr x.source b
        let hist := if idr then [b] else x.history ++ [b]
        match (if x.decodeFailed && !idr then none else Config.decodePicture x.source hist) with
        | none => endFrame f n 4 none (modFctx f (fun x => { x with decodeFailed := true }) s1)
        | some yuv =>
          let s2 := memWrite (x.base s1 + x.slotOff n) (patchBytes x (pixelAt 2 t.width t.height yuv) t.width t.height) s1
          endFrame f n 0 none (modFctx f (fun x => { x with history := hist, decodeFailed := false }) s2)

/-- FUNC_STOP of Frame (R531): every QUEUED frame ends as CANCELLED. -/
def frameStop (s : State) : State :=
  (s.frame.ctxs.map (·.1)).foldl (fun s f =>
    (List.range 4).foldl (fun s n => if (slotOf f n s).st = .queued then endFrame f n 8 none s else s) s) s

/-- Every BEGUN frame has ended and its encode record has been written. -/
def frameDrained (s : State) : Bool :=
  s.frame.ctxs.all (fun c => (List.range 4).all (fun n => let t := Tab.get c.2.slots n; !(t.st = .begun) && !t.encPend))

/-! ### Encoding -/

/-- The rate control at a target after a frame of `bits`, `dt` ns after the one before (R529). In millionths of a bit a budget is
kbps * dt, and half a second of the target kbps * 500,000,000. -/
def rateStep (x : FrameCtx) (kbps bits dt : Nat) : FrameCtx :=
  let budget := kbps * max 1000000 (min 1000000000 dt)
  let full := x.fullness + 1000000 * bits - budget
  let window := kbps * 500000000
  let step : Int := if window < full then 2 else if window < 2 * full then 1 else if full = 0 && 2000000 * bits < budget then -1 else 0
  let q := (x.qp : Int) + step
  { x with fullness := full, qp := (max 10 (min 51 q)).toNat,
           rcPinned := if 51 < q || q < 10 then satInc 32 x.rcPinned else x.rcPinned }

/-- The oldest ended frame that waits for the encoder. -/
def encodeNext (f : Nat) (s : State) : Option Nat :=
  ((List.range 4).filter (fun n => (slotOf f n s).encPend)).foldl (fun m n => match m with
    | none => some n
    | some k => if (slotOf f n s).seq < (slotOf f k s).seq then some n else some k) none

/-- QUALITY of the highest-numbered enabled ROI whose rectangle holds a pixel (0 where none does). -/
def roiQuality (x : FrameCtx) (px py : Nat) : Int :=
  ((List.range 8).reverse.find? (fun i =>
    let r := Tab.get x.rois i
    decide (0 < r.w) && decide (0 < r.h) && decide (r.x ≤ px) && decide (px < r.x + r.w) && decide (r.y ≤ py) && decide (py < r.y + r.h))).elim 0
    (fun i => (Tab.get x.rois i).quality)

/-- The QP of a 16 x 16 block: QPbase less the QUALITY of the ROI that holds its centre. -/
def blockQp (x : FrameCtx) (qpBase bx by_ : Nat) : Nat :=
  (max 0 (min 51 ((qpBase : Int) - roiQuality x (16 * bx + 8) (16 * by_ + 8)))).toNat

/-- The QPs of a picture's blocks, row by row. -/
def blockQps (x : FrameCtx) (qpBase w h : Nat) : List Nat :=
  let bw := ceilDiv w 16
  (List.range (bw * ceilDiv h 16)).map (fun k => blockQp x qpBase (k % bw) (k / bw))

/-- The time from the frame encoded before, which the first frame does not have: a free value inside the clamp (log entry 57). -/
def frameDt (x : FrameCtx) (t : FrameSlot) (s : State) : Nat × State :=
  match x.lastCapture with
  | some a => (t.captureNs - a, s)
  | none => (1000000 + (drawFree s).1.toNat % 999000001, (drawFree s).2)

/-- Write bytes into the ring at a position of the total written. -/
def ringPut (x : FrameCtx) (at_ : Nat) (b : List Byte) (s : State) : State :=
  memWrite (x.base s + x.slotOff 4 + at_ % x.ringLen s) b s

/-- An encoded picture, of some Annex B bytes, is written to the ring or dropped (R527), and QPbase is formed anew (R529). -/
def encodeRecord (f : Nat) (pic : List Byte) (s : State) : State :=
  match encodeNext f s with
  | none => s
  | some n =>
    let x := fctxOf f s
    let t := slotOf f n s
    if !frameRuns s then s
    else
      let idr := x.forceIdr || 255 ≤ x.sinceIdr
      let qpb := if idr then x.qp - 3 else x.qp
      let (dt, s) := frameDt x t (emit (.encodeQps f t.seq (blockQps x qpb t.width t.height)) s)
      let len := roundUp 64 (16 + pic.length)
      let ring := x.ringLen s
      let pad := if ring < x.ringWrite % ring + len then ring - x.ringWrite % ring else 0
      let consumed := fieldN (rawRead (x.base s + 0x118) 8 s) 0 8
      let fits := decide (x.ringWrite + pad + len ≤ consumed + ring)
      let x1 := rateStep x t.encKbps (8 * pic.length) dt
      if fits then
        let rec_ := padTo len (leBytes 4 pic.length ++ leBytes 4 t.seq ++ leBytes 1 (if idr then 2 else 1) ++ leBytes 1 qpb ++ leBytes 6 0 ++ pic)
        let s1 := if 0 < pad then ringPut x x.ringWrite (padTo (min 64 pad) (leBytes 4 0xFFFFFFFF)) s else s
        let s2 := ringPut x (x.ringWrite + pad) rec_ s1
        let w := x.ringWrite + pad + len
        let s3 := memWrite (x.base s + 0x110) (leBytes 8 w) s2
        let s4 := modFctx f (fun _ => { x1 with
          ringWrite := w, lastCapture := some t.captureNs, sinceIdr := if idr then 0 else x.sinceIdr + 1, forceIdr := false
          encFrames := satInc 32 x.encFrames, encTotal := min (2 ^ 64 - 1) (x.encTotal + pic.length) }) s3
        putRecord f n (modFslot f n (fun t => { t with encPend := false, encBytes := pic.length, encQp := qpb, encType := if idr then 2 else 1 }) s4)
      else
        let s1 := modFctx f (fun _ => { x1 with lastCapture := some t.captureNs, forceIdr := true, encDrop := satInc 32 x.encDrop }) s
        raise 0x15B (putRecord f n (modFslot f n (fun t => { t with encPend := false }) s1))

/-- The record of Table 20.8. -/
def frameStats (x : FrameCtx) : List Byte :=
  leBytes 4 x.frames ++ leBytes 4 x.truncated ++ leBytes 4 x.overlong ++ leBytes 4 x.errors ++ leBytes 4 x.cancelled ++ leBytes 4 x.encFrames ++
  leBytes 4 x.encDrop ++ leBytes 4 x.rcPinned ++ leBytes 8 x.stray ++ leBytes 8 x.encTotal ++ leBytes 1 x.qp ++
  leBytes 1 (((List.range 4).filter (fun n => !((Tab.get x.slots n).st = .free))).length) ++ leBytes 14 0

/-- CLEAR of that record. -/
def frameStatsClear (x : FrameCtx) : FrameCtx :=
  { x with frames := 0, truncated := 0, overlong := 0, errors := 0, cancelled := 0, encFrames := 0, encDrop := 0, rcPinned := 0,
           stray := 0, encTotal := 0 }

/-! ### Rows -/

/-- FRAME_UNIT_TAKE. -/
def execFrameUnitTake (s : State) : Host.Outcome State Fault Refusal := .next (unitTake s)

end Sys2Proof.Machine
end

