-- ==== Sys2Proof/Machine/Stay.lean ====
section
/-! DEFINITION. The Stay links: flits, retry, credits, packets, routing and link states (spec/15_stay.md). -/

namespace Sys2Proof.Machine

/-! ### Links and counters -/

/-- Link k. -/
def linkOf (k : Nat) (s : State) : Link := Tab.get s.stay.links k

/-- Change link k. -/
def modLink (k : Nat) (f : Link → Link) (s : State) : State :=
  { s with stay := { s.stay with links := Tab.mod s.stay.links k f } }

/-- A counter of Table 15.10 counts n; it saturates. -/
def linkCount (k : Nat) (c : LinkCnt) (n : Nat) (s : State) : State :=
  let top := if c.idx < 2 then 2 ^ 64 - 1 else 2 ^ 32 - 1
  modLink k (fun l => { l with cnt := Tab.mod l.cnt c.idx (fun v => min (v + n) top) }) s

/-- LCLK runs. -/
def lclkRuns (s : State) : Bool := !domainLost 5 s

/-- Flit time of a choice of lanes, in 1/100 ns (Table 15.1). -/
def Lanes.flitTime : Lanes → Nat
  | .x4 => 256 | _ => 512

/-- An event joins a window of MONO_NS times of the last second. -/
def windowed (ts : List Nat) (n : Nat) (now span : Nat) : List Nat :=
  ts.filter (fun t => decide (now < t + span)) ++ List.replicate n now

/-! ### Framing (R356) -/

/-- The lanes in use, in ascending order. -/
def Lanes.active : Lanes → List Nat
  | .x4 => [0, 1, 2, 3] | .low2 => [0, 1] | .high2 => [2, 3]

/-- The frame word of the codeword with a count: HALF is 1 when its bytes begin inside a flit, which is every second codeword. -/
def frameWord (count : Nat) : Nat := count % 2 + 2 * (count % 2 ^ 19)

/-- The 514 message symbols: the frame word first, then 640 flit bytes, least significant bit first (log entry 79). -/
def messageSymbols (count : Nat) (bytes : List Byte) : List (BitVec 10) :=
  let m := frameWord count + 2 ^ 20 * fieldN bytes 0 640
  (List.range 514).map (fun i => BitVec.ofNat 10 (m / 2 ^ (10 * i)))

/-- A codeword of 544 symbols. -/
def codewordSymbols (count : Nat) (bytes : List Byte) : List (BitVec 10) :=
  let m := messageSymbols count bytes
  m ++ (List.range 30).map (Config.rsParity m)

/-- The symbols of each active lane: they go round the lanes, starting at the lowest. -/
def laneSymbols (lanes : Lanes) (sym : List (BitVec 10)) : List (Nat × List (BitVec 10)) :=
  let on := lanes.active
  on.zipIdx.map (fun l => (l.1, (sym.zipIdx.filter (fun x => x.2 % on.length = l.2)).map (·.1)))

/-- A flit goes to the framer; five flits fill two codewords. -/
def frameFlit (k : Nat) (bytes : List Byte) (s : State) : State :=
  let l := linkOf k s
  let buf := l.txBuf ++ bytes
  let s1 := emit (.flit k bytes) s
  if buf.length < 640 then modLink k (fun l => { l with txBuf := buf }) s1
  else emit (.codeword k (laneSymbols l.lanes (codewordSymbols l.txCw (buf.take 640))))
    (modLink k (fun l => { l with txBuf := buf.drop 640, txCw := (l.txCw + 1) % 2 ^ 19 }) s1)

/-! ### Flits (Tables 15.2, 15.3) -/

/-- A flit's 256 bytes: header, body, CRC. -/
def flitBytes (hdr : Nat) (body : List Byte) : List Byte :=
  let b := leBytes 4 hdr ++ (body.take 248) ++ List.replicate (248 - body.length) 0
  b ++ leBytes 4 (crc32 b)

/-- The first VC with credits to return. -/
def owedVc (l : Link) : Option Nat := firstIdx (fun v => 0 < Tab.get l.owed v) 0 4

/-- Send a flit of a kind with the acknowledgement and credit fields as they stand (Table 15.3). -/
def sendFlit (k kind seq vc : Nat) (sop eop : Bool) (body : List Byte) (nack : Bool) (s : State) : State :=
  let l := linkOf k s
  let v := (owedVc l).getD 0
  let n := min 15 (Tab.get l.owed v)
  let ack := if l.ackValid then (l.rxSeq + 255) % 256 else 0
  let hdr := seq + vc * 2 ^ 8 + kind * 2 ^ 10 + b2n sop * 2 ^ 12 + b2n eop * 2 ^ 13 + ack * 2 ^ 16 +
    b2n l.ackValid * 2 ^ 24 + b2n nack * 2 ^ 25 + v * 2 ^ 26 + n * 2 ^ 28
  frameFlit k (flitBytes hdr body) (modLink k (fun l => { l with owed := Tab.mod l.owed v (fun o => o - n) }) s)

/-- IDLE flits that carry the acknowledgement and every credit owed. -/
def sendIdle (k : Nat) (nack : Bool) : Nat → State → State
  | 0, s => s
  | fuel + 1, s =>
    let s1 := sendFlit k 0 0 0 false false [] nack s
    if (owedVc (linkOf k s1)).isSome then sendIdle k false fuel s1 else s1

/-- Acknowledge at once (R360; log entry 30). -/
def ackNow (k : Nat) (s : State) : State := sendIdle k false 40 s

/-- A CTL flit (Table 15.5). -/
def sendCtl (k ctype : Nat) (s : State) : State :=
  let l := linkOf k s
  let body := leBytes 1 ctype ++ (if ctype = 1 then leBytes 1 0 ++ leBytes 1 (devNum s) ++ leBytes 1 k ++ leBytes 1 l.lanes.width ++ leBytes 1 1 else [])
  sendFlit k 2 0 0 false false body false s

/-! ### Link states (Table 15.9) -/

/-- Receive buffers of Table 15.4. -/
def rxBuffer (vc : Nat) : Nat := if vc = 0 then 160 else if vc = 1 then 192 else if vc = 2 then 96 else 64

/-- The partner sees the link as "up, not ready" until the initial credits are granted: the first time the device is in any state
other than BOOT after the link-up or resync (R367). -/
def grantCredits (k : Nat) (s : State) : State :=
  let l := linkOf k s
  if l.st = .up && !l.granted && !(s.dev.mode = .boot) && !(s.dev.mode = .cold) then
    ackNow k (modLink k (fun l => { l with granted := true, owed := (List.range 4).foldl (fun t v => Tab.mod t v (· + rxBuffer v)) l.owed }) s)
  else s

/-- Sequence numbers, credits, the replay buffer and partial packets of a link are as at its start. -/
def clearLink (l : Link) : Link :=
  { l with txSeq := 0, replay := [], rxSeq := 0, ackValid := false, nackAt := none, credits := [],
           owed := [], granted := false, part := [] }

/-- Partial packets are discarded and counted (R370); a packet part-sent on the link loses its rest. -/
def cutPackets (k : Nat) (s : State) : State :=
  let s1 := linkCount k .pktDiscard ((linkOf k s).part.filter (fun c => c.2.isSome)).length s
  (List.range 8).foldl (fun s q =>
    if (queueOf (k + 2) q s).pkts.any (·.started) then modQ (k + 2) q (fun t => { t with pkts := t.pkts.filter (!·.started) }) s else s)
    (modLink k (fun l => { l with part := [] }) s1)

/-- Training begins at DETECT; the framer starts again and no lane is known to be inverted. -/
def trainFrom (lanes : Lanes) (l : Link) : Link :=
  { clearLink l with st := .training, phase := .detect, lanes := lanes, partnerOk := false, rxInv := 0, txBuf := [], txCw := 0 }

/-- The link is UP with every count at zero. At x2 it raises its degrade source (R379). -/
def linkUp (k : Nat) (s : State) : State :=
  let s1 := modLink k (fun l => { clearLink l with st := .up }) s
  grantCredits k (if (linkOf k s1).lanes = .x4 then s1 else raise (0x100 + k) s1)

/-- A retrain (R377, R380): counted; the fourth within 60 s disables the link. -/
def retrain (k : Nat) (s : State) : State :=
  let s1 := raise (0x118 + k) (linkCount k .retrains 1 (cutPackets k s))
  let ts := windowed (linkOf k s1).retrainAt 1 s.time.mono 60000000000
  modLink k (fun l => if 4 ≤ ts.length then { clearLink l with st := .disabled, retrainAt := ts }
                      else { trainFrom .x4 l with retrainAt := ts }) s1

/-- The link fails (R363): its unacknowledged flits are discarded and counted. -/
def linkFail (k : Nat) (s : State) : State :=
  retrain k (linkCount k .flitsLost (linkOf k s).replay.length (raise (0x118 + k) s))

/-- RESYNC begins (Table 15.9). -/
def startResync (k : Nat) (s : State) : State :=
  if (linkOf k s).st = .up then
    sendCtl k 2 (linkCount k .resyncs 1 (modLink k (fun l => { clearLink l with st := .resync }) (cutPackets k s)))
  else s

/-- LCLK stops: every link is DOWN (Table 15.9). -/
def linksDown (s : State) : State :=
  (List.range 12).foldl (fun s k => modLink k (fun l => { clearLink l with st := .down, lanes := .x4 }) (cutPackets k s)) s

/-- A link that is DOWN trains: at cold reset release, when LCLK returns and at the retry interval. -/
def trainDown (k : Nat) (s : State) : State :=
  if (linkOf k s).st = .down && lclkRuns s then modLink k (trainFrom .x4) s else s

/-- DISABLED ends in DOWN: FUNC_START of Stay, a warm or cold reset (R377). -/
def enableLinks (s : State) : State :=
  (List.range 12).foldl (fun s k => if (linkOf k s).st = .disabled then modLink k (fun l => { clearLink l with st := .down, lanes := .x4 }) s else s) s

/-- The retry interval of a DOWN or MISCABLED link. -/
def retryInterval (k : Nat) (s : State) : State :=
  if 12 ≤ k then s
  else if (linkOf k s).st = .miscabled then modLink k (trainFrom .x4) s
  else trainDown k s

/-- The INIT check (R376). -/
def initPasses (k role node port : Nat) (s : State) : Bool := role = 1 && node = k && port = devNum s

/-- A received INIT, in training: checked in the INIT phase, and kept for it before (Table 15.9, R376). An UP link answers it. -/
def rxInit (k role node port : Nat) (s : State) : State :=
  let l := linkOf k s
  if 12 ≤ k then s
  else if l.st = .up then sendCtl k 1 s
  else if !(l.st = .training) then s
  else
    let ok : Bool := initPasses k role node port s
    let s1 := modLink k (fun l => { l with partner := some (node, port), partnerOk := ok }) s
    if !(l.phase = .init) then s1
    else if ok then linkUp k (sendCtl k 1 s1)
    else raise (0x124 + k) (modLink k (fun l => { clearLink l with st := .miscabled }) s1)

/-- A training phase completes (Table 15.7); INIT completes when the partner's INIT has passed. `inv` are the receive lanes that the
phase found inverted, P for N: they are inverted back from here on (R49). -/
def phaseDone (k : Nat) (inv : BitVec 4) (s0 : State) : State :=
  if 12 ≤ k || !((linkOf k s0).st = .training) then s0
  else
    let s := modLink k (fun l => { l with rxInv := l.rxInv ||| inv }) s0
    let l := linkOf k s
    match l.phase with
    | .detect => modLink k (fun l => { l with phase := .eq }) s
    | .eq => modLink k (fun l => { l with phase := .lock }) s
    | .lock => sendCtl k 1 (modLink k (fun l => { l with phase := .init }) s)
    | .init => if l.partnerOk then linkUp k s else s

/-- A phase exceeds its maximum (Tables 15.7, 15.9). DETECT has none. -/
def phaseTimeout (k : Nat) (s : State) : State :=
  let l := linkOf k s
  if 12 ≤ k || !(l.st = .training) || l.phase = .detect then s
  else modLink k (fun l => match l.lanes with
    | .x4 => trainFrom .low2 l
    | .low2 => trainFrom .high2 l
    | .high2 => { clearLink l with st := .down, lanes := .x4 }) s

/-- Codeword lock is lost (Table 15.9): the replay buffer and partial packets are dropped, and the link retrains. -/
def lockLost (k : Nat) (s : State) : State :=
  if 12 ≤ k || !((linkOf k s).st = .up) then s
  else retrain k (linkCount k .flitsLost (linkOf k s).replay.length s)

/-- A received RESYNC: both ends drop and zero, and the answer is RESYNC_ACK. -/
def rxResync (k : Nat) (s : State) : State :=
  if 12 ≤ k then s
  else match (linkOf k s).st with
    | .up => linkUp k (sendCtl k 3 (linkCount k .resyncs 1 (modLink k clearLink (cutPackets k s))))
    | .resync => sendCtl k 3 s
    | _ => s

/-- A received RESYNC_ACK. -/
def rxResyncAck (k : Nat) (s : State) : State :=
  if 12 ≤ k || !((linkOf k s).st = .resync) then s else linkUp k s

/-- 10 us without RESYNC_ACK: as for a failed budget. -/
def resyncTimeout (k : Nat) (s : State) : State :=
  if 12 ≤ k || !((linkOf k s).st = .resync) then s else linkFail k s

/-- The repeat of an unanswered CTL flit; a MISCABLED link goes on sending INIT. -/
def ctlRepeat (k : Nat) (s : State) : State :=
  if 12 ≤ k then s
  else match (linkOf k s).st with
    | .training => if (linkOf k s).phase = .init then sendCtl k 1 s else s
    | .miscabled => sendCtl k 1 s
    | .resync => sendCtl k 2 s
    | _ => s

/-! ### Retry (R359 - R364) -/

/-- A replay of every unacknowledged flit (R362), or the link's failure where the oldest would be replayed a 17th time (R363). Each
flit counts its own replays; no flit counts more than one older than it, so that the oldest is at 16 whenever any is. -/
def startReplay (k : Nat) (s : State) : State :=
  let l := linkOf k s
  if !(l.st = .up) || l.replay.isEmpty then s
  else if l.replay.any (fun f => 16 ≤ f.replays) then linkFail k s
  else
    let ts := windowed l.replayAt 1 s.time.mono 1000000000
    let again (f : TxFlit) : TxFlit := { f with replays := f.replays + 1, firstAt := some (f.firstAt.getD s.time.mono) }
    let s1 := raise (0x10C + k) (linkCount k .replays 1 (modLink k (fun l => { l with replay := l.replay.map again, replayAt := ts }) s))
    let s2 := if 100 < ts.length then raise (0x100 + k) s1 else s1
    l.replay.foldl (fun s f => sendFlit k 1 f.seq f.vc f.sop f.eop f.body false s) s2

/-- 2 us have passed since the first replay of the oldest unacknowledged flit (R363); nothing where it has had none. -/
def budgetExpiry (k : Nat) (s : State) : State :=
  let l := linkOf k s
  if 12 ≤ k || !(l.st = .up) || !(l.replay.head?.any (·.firstAt.isSome)) then s else linkFail k s

/-- An acknowledgement covers the flits up to its SEQ. -/
def ackReplay (k seq : Nat) (s : State) : State :=
  let l := linkOf k s
  match l.replay.findIdx? (fun f => f.seq = seq) with
  | some i => modLink k (fun l => { l with replay := l.replay.drop (i + 1) }) s
  | none => s

/-- NACK with the last in-order SEQ; no further one until the expected flit arrives or 128 flit times pass (R361). -/
def sendNack (k : Nat) (s : State) : State :=
  let l := linkOf k s
  let quiet : Bool := match l.nackAt with
    | some t => decide (100 * s.time.mono < 100 * t + 128 * l.lanes.flitTime)
    | none => false
  if quiet then s else sendIdle k true 40 (modLink k (fun l => { l with nackAt := some s.time.mono }) s)

/-! ### Packets (Table 15.6, R369 - R371) -/

/-- Cut packet bytes into flit bodies of 248 bytes. -/
def cutBodies : Nat → List Byte → List (List Byte)
  | 0, _ => []
  | n + 1, bs => padTo 248 (bs.take 248) :: cutBodies n (bs.drop 248)

/-- The bodies of a packet. -/
def packetBodies (dest proto flow : Nat) (data : List Byte) (s : State) : List (List Byte) :=
  let n := max 1 ((data.length + 8 + 247) / 248)
  let hdr := dest % 128 + devNum s * 2 ^ 8 + (n - 1) * 2 ^ 16 + proto * 2 ^ 24 + flow % 65536 * 2 ^ 32 + data.length * 2 ^ 48
  cutBodies n (leBytes 8 hdr ++ data)

/-- The links that are UP. -/
def upLinks (s : State) : List Nat := (List.range 12).filter (fun k => (linkOf k s).st = .up)

/-- The usable links of a destination for a VC, in ascending index (Choosing a link). -/
def usableLinks (dest vc : Nat) (s : State) : List Nat :=
  if dest = 0x7F then upLinks s
  else
    let m := Tab.get s.stay.maps dest
    (upLinks s).filter (fun k => m.mask.getLsbD k && (if vc = 3 then m.vc3Ready else m.dataReady))

/-- A packet goes back to its sender block as NOROUTE, counted on link k (R371). -/
def noRoute (k : Nat) (vc : Nat) (bodies : List (List Byte)) (s : State) : State :=
  emit (.noroute vc bodies.flatten) (linkCount k .noroute 1 s)

/-- R371: a packet goes on list[FLOW mod n]; with no usable link, or on a VC that is not ready, it is NOROUTE, which link 0 counts
where no link is usable (log entry 79). -/
def staySend (dest vc proto flow : Nat) (data : List Byte) (sys : Bool) (s : State) : State :=
  let ks := if vcState vc s = .ready then usableLinks dest vc s else []
  match ks with
  | [] => noRoute 0 vc (packetBodies dest proto flow data s) s
  | k0 :: _ =>
    let k := ks.getD (flow % ks.length) k0
    offer (k + 2) (stayQueue vc sys) { vc := vc, bodies := packetBodies dest proto flow data s } s

/-- Packets queued, or waiting for a queue, and not started on a VC that is no longer ready return as NOROUTE (R368, R378). -/
def holdSweep (s : State) : State :=
  let bad (i : Nat) (k : TrimPkt) : Bool := decide (16 ≤ i) && !k.started && !(vcState k.vc s = .ready)
  if s.trim.qs.any (fun c => c.2.pkts.any (bad c.1)) || s.trim.waiting.any (fun w => bad w.1 w.2) then
    let back := s.trim.qs.flatMap (fun c => (c.2.pkts.filter (bad c.1)).map (fun k => (c.1, k))) ++ s.trim.waiting.filter (fun w => bad w.1 w.2)
    let s1 := back.foldl (fun s w => noRoute (w.1 / 8 - 2) w.2.vc w.2.bodies s) s
    modTrim (fun t => { t with
      qs := Tab.mapAll t.qs (fun i q => { q with pkts := q.pkts.filter (fun k => !bad i k) })
      waiting := t.waiting.filter (fun w => !bad w.1 w.2) }) s1
  else s

/-- A Stay port sends its next flit: Trim's choice, one credit, SEQ and the replay buffer (R359, R365, R429). -/
def staySelect (k : Nat) (s : State) : State :=
  match trimSelect (k + 2) s with
  | (none, s1) => s1
  | (some q, s1) =>
    match (queueOf (k + 2) q s1).pkts with
    | [] => s1
    | p :: ps =>
      match p.bodies with
      | [] => modQ (k + 2) q (fun t => { t with pkts := ps }) s1
      | b :: bs =>
        let l := linkOf k s1
        let fl : TxFlit := { seq := l.txSeq, vc := p.vc, sop := !p.started, eop := bs.isEmpty, body := b }
        let s2 := modQ (k + 2) q (fun t => { t with pkts := if bs.isEmpty then ps else { p with started := true, bodies := bs } :: ps })
          (chargeUnit (k + 2) q 256 s1)
        let s3 := modLink k (fun l => { l with txSeq := (l.txSeq + 1) % 256, replay := l.replay ++ [fl]
                                               credits := Tab.mod l.credits p.vc (fun c => c - 1) }) s2
        admitWaiting (k + 2) q (sendFlit k 1 fl.seq fl.vc fl.sop fl.eop fl.body false (linkCount k .flitsTx 1 s3))

/-- TRIM_SELECT: a port that can transmit sends one unit. -/
def portSelect (p : Nat) (s : State) : State :=
  if s.dev.mode = .safe || s.dev.mode = .cold then s
  else if p < 2 then ethSelect p s else if p < 14 then staySelect (p - 2) s else s

/-! ### LINK_MAP (R372, R373) -/

/-- What this device's LINK_MAP says; none in BOOT and SAFE (Table 15.8). -/
def linkMapData (s : State) : Option (List Byte) :=
  match s.dev.mode with
  | .ready | .degraded | .quarantine =>
    let mask := (upLinks s).foldl (fun m k => m + 2 ^ k) 0
    some (leBytes 2 mask ++ leBytes 1 (b2n (vcState 0 s = .ready) + 2 * b2n (vcState 3 s = .ready)) ++ [0, 0, 0, 0, 0])
  | _ => none

/-- Send LINK_MAP on every UP link (R372), and keep what it says. -/
def sendLinkMap (s : State) : State :=
  let s1 := { s with stay := { s.stay with mapSaid := linkMapData s } }
  match linkMapData s with
  | none => s1
  | some d => (upLinks s).foldl (fun s k => offer (k + 2) 7 { vc := 3, bodies := packetBodies 0x7F 2 0 d s } s) s1

/-- Any change in the mask or the readiness sends LINK_MAP at once (R372). -/
def linkMapSweep (s : State) : State := if linkMapData s = s.stay.mapSaid then s else sendLinkMap s

/-- A received LINK_MAP (R373). -/
def rxLinkMap (src : Nat) (d : List Byte) (s : State) : State :=
  if 72 ≤ src || src = devNum s || d.length ≠ 8 then s
  else
    let m : PeerMap := { mask := BitVec.ofNat 12 (fieldN d 0 2), dataReady := bitN (fieldN d 2 1) 0, vc3Ready := bitN (fieldN d 2 1) 1 }
    { s with stay := { s.stay with maps := Tab.put s.stay.maps src m } }

/-- 10 ms without a peer's LINK_MAP (R372, R373). -/
def linkMapSilence (src : Nat) (s : State) : State :=
  { s with stay := { s.stay with maps := Tab.put s.stay.maps src {} } }

/-! ### Receiving (R357, R358, R360, R364, R366 - R370) -/

/-- What the header of a received packet says, when it is well formed. -/
structure PktHead where
  dest : Nat
  src : Nat
  proto : Nat
  bytes : Nat
  deriving DecidableEq, Repr, Inhabited

/-- The header of a packet of n flits (Table 15.6). -/
def packetHead (body : List Byte) (n : Nat) : Option PktHead :=
  let h := fieldN body 0 8
  let bytes := bitsN h 48 16
  if bitN h 7 || bitN h 15 || bitsN h 21 3 ≠ 0 || bitsN h 16 5 + 1 ≠ n || 248 * n < bytes + 8 || 72 ≤ bitsN h 8 7 then none
  else some { dest := bitsN h 0 7, src := bitsN h 8 7, proto := bitsN h 24 8, bytes := bytes }

/-- PROTO is allowed on a VC (Table 15.4). -/
def protoOk (vc proto : Nat) : Bool := if vc = 3 then proto = 2 || proto = 3 else proto = 1

/-- The bodies of a packet that has ended, with the credits of its flits returned: its header and data, when it is delivered. -/
def packetEnd (k vc : Nat) (bodies : List (List Byte)) (s : State) : Option (PktHead × List Byte) × State :=
  let n := bodies.length
  let s1 := modLink k (fun l => { l with owed := Tab.mod l.owed vc (· + n), part := Tab.put l.part vc none }) s
  match packetHead (bodies.headD []) n with
  | none => (none, linkCount k .pktDiscard 1 s1)
  | some h =>
    if protoOk vc h.proto && (h.dest = devNum s || (h.dest = 0x7F && vc = 3)) && vcState vc s = .ready then
      (some (h, (bodies.flatten.drop 8).take h.bytes), s1)
    else (none, linkCount k .pktDiscard 1 s1)

/-- An accepted DATA flit joins its packet; a flit out of place discards the packet and is itself discarded (R369, R370). -/
def dataFlit (k vc : Nat) (sop eop : Bool) (body : List Byte) (s : State) : Option (PktHead × List Byte) × State :=
  let cur := Tab.get (linkOf k s).part vc
  let drop (n : Nat) (s : State) : State :=
    linkCount k .pktDiscard 1 (modLink k (fun l => { l with owed := Tab.mod l.owed vc (· + n), part := Tab.put l.part vc none }) s)
  match cur, sop with
  | none, false => (none, drop 1 s)
  | some bs, true =>
    let s1 := drop bs.length s
    if eop then packetEnd k vc [body] s1
    else (none, modLink k (fun l => { l with part := Tab.put l.part vc (some [body]) }) s1)
  | none, true =>
    if eop then packetEnd k vc [body] s
    else (none, modLink k (fun l => { l with part := Tab.put l.part vc (some [body]) }) s)
  | some bs, false =>
    if 32 ≤ bs.length then (none, drop (bs.length + 1) s)
    else if eop then packetEnd k vc (bs ++ [body]) s
    else (none, modLink k (fun l => { l with part := Tab.put l.part vc (some (bs ++ [body])) }) s)

/-- A received CTL flit (Table 15.5). -/
def rxCtl (k : Nat) (body : List Byte) (s : State) : State :=
  let t := fieldN body 0 1
  if t = 1 then rxInit k (fieldN body 1 1) (fieldN body 2 1) (fieldN body 3 1) s
  else if t = 2 then rxResync k s
  else if t = 3 then rxResyncAck k s
  else s

/-- FEC counts of the codewords that end within a flit, each codeword once, and the degrade source of R379. -/
def fecCount (k corr badCw uncorr : Nat) (s : State) : State :=
  let s1 := linkCount k .fecUncorr uncorr (linkCount k .fecCorr corr s)
  let s2 := modLink k (fun l => { l with corrAt := windowed l.corrAt badCw s.time.mono 1000000000
                                         uncorrAt := windowed l.uncorrAt uncorr s.time.mono 1000000000 }) s1
  let l := linkOf k s2
  if 1000 < l.corrAt.length || 10 < l.uncorrAt.length then raise (0x100 + k) s2 else s2

/-- A received flit of 256 bytes. Of the codewords that end within it, `uncorr` could not be corrected and `corr` were, `badCw` of
those with more than 10 symbols; `bad` says that the flit overlaps a codeword that could not be corrected, one that ends in a later
flit included. The packet it completes, if any, is returned to be handed on. -/
def flitRx (k : Nat) (bytes : List Byte) (bad : Bool) (corr badCw uncorr : Nat) (s : State) : Option (PktHead × List Byte) × State :=
  if 12 ≤ k || (linkOf k s).st = .down || (linkOf k s).st = .disabled then (none, s)
  else
    let s1 := fecCount k corr badCw uncorr s
    let up := (linkOf k s1).st = .up
    if bad || bytes.length ≠ 256 || fieldN bytes 252 4 ≠ crc32 (bytes.take 252) then
      let s2 := if bad then s1 else linkCount k .crcErr 1 s1
      (none, if up then sendNack k s2 else s2)
    else
      let h := fieldN bytes 0 4
      let kind := bitsN h 10 2
      let body := (bytes.drop 4).take 248
      if kind = 3 || bitsN h 14 2 ≠ 0 then (none, startResync k (linkCount k .protoErr 1 s1))
      else if !up then (none, if kind = 2 then rxCtl k body s1 else s1)
      else
        let s2 := if bitN h 24 then ackReplay k (bitsN h 16 8) s1 else s1
        let s3 := modLink k (fun l => { l with credits := Tab.mod l.credits (bitsN h 26 2) (· + bitsN h 28 4) }) s2
        let s4 := if bitN h 25 then startReplay k s3 else s3
        if kind = 2 then (none, rxCtl k body s4)
        else if kind = 0 || !((linkOf k s4).st = .up) then (none, s4)
        else if bitsN h 0 8 ≠ (linkOf k s4).rxSeq then (none, sendNack k s4)
        else
          let s5 := linkCount k .flitsRx 1 (modLink k (fun l => { l with rxSeq := (l.rxSeq + 1) % 256, ackValid := true, nackAt := none }) s4)
          let (p, s6) := dataFlit k (bitsN h 8 2) (bitN h 12) (bitN h 13) body s5
          (p, ackNow k s6)

/-- One TCLK edge passes: the time unit advances (R639), and each whole microsecond counts for the queues that are held. -/
def idleTick (s : State) : State :=
  let t := tclkEdge s
  holdCount (t.time.mono / 1000 - s.time.mono / 1000) t

/-- R378: no DATA flit of VC0 - VC2 is unacknowledged. -/
def stayDrained (s : State) : Bool := (List.range 12).all (fun k => (linkOf k s).replay.all (fun f => f.vc = 3))

/-- The record of Table 15.10. The partner's fields read 0xFF before an INIT has been received. -/
def stayStats (k : Nat) (s : State) : List Byte :=
  let l := linkOf k s
  let c (i : Nat) : Nat := Tab.get l.cnt i
  let p := l.partner.getD (0xFF, 0xFF)
  leBytes 8 (c 0) ++ leBytes 8 (c 1) ++ ((List.range 10).flatMap (fun i => leBytes 4 (c (i + 2)))) ++
    leBytes 1 l.st.code ++ leBytes 1 l.lanes.width ++ leBytes 1 p.1 ++ leBytes 1 p.2 ++ [0, 0, 0, 0]

end Sys2Proof.Machine
end

