-- ==== Sys2Proof/Machine/ShrSend.lean ====
section
/-! DEFINITION. Shroud's connections as senders: packets and their carriage, completion of operations, release of posted
operations, and what the timers send (spec/16_shroud.md). -/

namespace Sys2Proof.Machine

/-! ### Connections -/

/-- Change Shroud. -/
def modShr (f : Shroud → Shroud) (s : State) : State := { s with shr := f s.shr }

/-- Connection i. -/
def connOf (i : Nat) (s : State) : ShrConn := Tab.get s.shr.conns i

/-- Change connection i. -/
def modConn (i : Nat) (f : ShrConn → ShrConn) (s : State) : State := modShr (fun u => { u with conns := Tab.mod u.conns i f }) s

/-- The counters of Table 16.11. -/
inductive ShrCnt where
  | posted | ok | err | timedOut | lateCpl | retx | authFail | malformed | faultResp | pinned
  deriving DecidableEq, Repr, Inhabited

/-- The place of a counter. -/
def ShrCnt.idx : ShrCnt → Nat
  | .posted => 0 | .ok => 1 | .err => 2 | .timedOut => 3 | .lateCpl => 4 | .retx => 5 | .authFail => 6 | .malformed => 7
  | .faultResp => 8 | .pinned => 9

/-- A counter of a connection counts; it saturates. -/
def connCount (i : Nat) (k : ShrCnt) (s : State) : State :=
  modConn i (fun c => { c with cnt := Tab.mod c.cnt k.idx (satInc (if k.idx < 2 then 64 else 32)) }) s

/-- Shroud is RUNNING. -/
def shrRuns (s : State) : Bool := fnRunning 3 s

/-- The connection's carrier is Stay. -/
def ShrConn.onStay (c : ShrConn) : Bool :=
  match c.peer with
  | .stay _ => true
  | .udp _ _ => false

/-- The least TIMEOUT_US of a carrier (R194). -/
def minTimeout (onStay : Bool) : Nat := if onStay then 16 else 200

/-- The line rate of a carrier, in Mb/s (Congestion control). -/
def lineRate (c : ShrConn) : Nat := if c.onStay then 9600000 else 400000

/-- s of a connection (R440). -/
def shaperRate (c : ShrConn) (s : State) : Nat :=
  match c.peer with
  | .stay d => stayRate (usableLinks d 0 s) c.sys s
  | .udp p _ => udpRate p s

/-- A connection that a session may name: the system connections are invisible. -/
def connChecks (c : Cmd) (h : Nat) (s : State) : List (Bool × Status × Nat) :=
  let x := connOf (h % 65536) s
  objChecks c h 16384 x.gen (!(x.st = .free) && !x.sys) x.fn s

/-! ### Packets (Tables 16.1, 16.2, 16.5, R387) -/

/-- The 12-byte nonce (R387). -/
def nonceOf (dir txc : Nat) : List Byte := leBytes 1 dir ++ [0, 0, 0] ++ leBytes 8 txc

/-- The SACK field: bit i for PSN ACK_PSN + 1 + i. -/
def sackOf (c : ShrConn) : Nat :=
  (List.range 64).foldl (fun v i => v + (if c.ooo.any (fun g => g.psn = (c.ackPsn + 1 + i) % 2 ^ 32) then 2 ^ i else 0)) 0

/-- Internet checksum of bytes (RFC 1071), big-endian words. -/
def inetSum (bs : List Byte) : Nat :=
  let rec go : List Byte → Nat → Nat
    | [], n => n
    | [a], n => n + 256 * a.toNat
    | a :: b :: r, n => go r (n + 256 * a.toNat + b.toNat)
  let n := go bs 0
  let m := n % 65536 + n / 65536
  65535 - (m % 65536 + m / 65536) % 65536

/-- An IPv4 peer: an address mapped as ::ffff:a.b.c.d. -/
def isV4 (a : List Byte) : Bool := a.take 12 = [0, 0, 0, 0, 0, 0, 0, 0, 0, 0, 255, 255]

/-- The 16-byte address of this device on a port as a peer knows it: the IPv4 address, mapped, toward an IPv4 peer. -/
def ownAddr (port : Nat) (peer : List Byte) : List Byte :=
  let own := beBytes 16 (Config.portAddr port).toNat
  if isV4 peer then [0, 0, 0, 0, 0, 0, 0, 0, 0, 0, 255, 255] ++ own.drop 12 else own

/-- DIR of this end: 0 at the end with the lower identity (R387). -/
def shrDir (c : ShrConn) (s : State) : Nat :=
  match c.peer with
  | .stay d => if devNum s < d then 0 else 1
  | .udp p a => if beNat (ownAddr p a) < beNat a then 0 else 1

/-- The Ethernet frame of a Shroud packet over UDP (Table 16.5, R424). Fields the spec does not give are free (log entry 31). -/
def udpFrame (port : Nat) (addr : List Byte) (flow pcp dscp n : Nat) (packet : List Byte) : List Byte :=
  let own := ownAddr port addr
  let ulen := packet.length + 8
  let srcPort := 0xC000 ||| (flow % 0x4000)
  let v4 := isV4 addr
  let pseudo := if v4 then own.drop 12 ++ addr.drop 12 ++ [0, 17] ++ beBytes 2 ulen else own ++ addr ++ beBytes 4 ulen ++ [0, 0, 0, 17]
  let udp0 := beBytes 2 srcPort ++ beBytes 2 47130 ++ beBytes 2 ulen ++ [0, 0]
  let sum := inetSum (pseudo ++ udp0 ++ packet)
  let udp := udp0.take 6 ++ beBytes 2 (if sum = 0 then 0xFFFF else sum) ++ packet
  let ip :=
    if v4 then
      let h := beBytes 1 0x45 ++ beBytes 1 (dscp * 4) ++ beBytes 2 (ulen + 20) ++ beBytes 2 (Config.ipIdent n).toNat ++ [0x40, 0, 64, 17, 0, 0] ++
        own.drop 12 ++ addr.drop 12
      h.take 10 ++ beBytes 2 (inetSum h) ++ h.drop 12
    else beBytes 4 (6 * 2 ^ 28 + dscp * 2 ^ 22 + (Config.ipFlow n).toNat) ++ beBytes 2 ulen ++ [17, 64] ++ own ++ addr
  let f := beBytes 6 (Config.peerMac port addr).toNat ++ beBytes 6 (Config.portMac port).toNat ++ [0x81, 0x00] ++ beBytes 2 (pcp * 8192) ++
    (if v4 then [0x08, 0x00] else [0x86, 0xDD]) ++ ip ++ udp
  f ++ leBytes 4 (crc32 f)

/-- Send one packet of a connection: a new TXC, the acknowledgement fields as they stand, sealed (R385, R387, R388). -/
def sendPkt (i typ : Nat) (g : ShrSeg) (s : State) : State :=
  let c := connOf i s
  let seq : Bool := typ = 3 || typ = 4
  let flags := b2n seq + 2 * b2n g.first + 4 * b2n g.last + 8 * b2n g.resend
  let hdr := leBytes 1 1 ++ leBytes 1 typ ++ leBytes 1 flags ++ leBytes 1 g.opc ++ leBytes 2 (if typ = 1 then 0xFFFF else c.peerIdx) ++
    leBytes 2 i ++ leBytes 8 c.txc ++ leBytes 4 g.psn ++ leBytes 4 c.ackPsn ++ leBytes 8 (sackOf c) ++ leBytes 4 s.time.mono ++
    leBytes 4 c.tEcho ++ leBytes 4 g.opsn ++ leBytes 4 g.len ++ leBytes 8 g.addr ++ leBytes 4 g.off ++ leBytes 2 g.data.length ++ leBytes 2 g.aux
  let packet := hdr ++ Config.gcmSeal c.key (nonceOf (shrDir c s) c.txc) hdr g.data
  let flow := (i % 4096) * 16 + g.psn % 16
  let s1 := modConn i (fun c => { c with txc := c.txc + 1, ackDue := 0 }) s
  match c.peer with
  | .stay d => staySend d (if typ = 3 then 0 else if typ = 4 then 1 else 2) 1 flow packet c.sys s1
  | .udp p a => ethSend p (if seq then 3 else 6) (udpFrame p a flow (if seq then 3 else 6) (if seq then 24 else 48) c.txc packet) s1

/-- CONNECT and ACCEPT carry TENANT and CHAIN. -/
def sendOpening (i typ : Nat) (s : State) : State :=
  let c := connOf i s
  sendPkt i typ { data := padTo 16 (leBytes 2 c.tenant ++ leBytes 1 c.chain) } s

/-- A packet without payload: ACK, CLOSE, CLOSE_ACK. -/
def sendPlain (i typ : Nat) (s : State) : State := sendPkt i typ {} s

/-! ### Completion of operations (R411) -/

/-- How a Halyard sees a remote operation's end (Table 16.7): 0, or its fault code. -/
def ShrEnd.halCode : ShrEnd → Nat
  | .ostat 0 => 0
  | .ostat 1 => 0x02
  | .ostat 2 => 0x02
  | .ostat 3 => 0x07
  | _ => 0x08

/-- The DETAIL of a WEIGHTS_LOAD whose READ ended so: 1 for a transfer error, 2 for a timeout, 3 for a word the peer could not correct
(Tables 7.7, 13.2). -/
def ShrEnd.loadDetail : ShrEnd → Nat
  | .timedOut => 2
  | .ostat 3 => 3
  | _ => 1

/-- The slot of a STREAM_OUT's oldest popped word is released: its write is visible (R217). -/
def outReleased (f : Flight) (s : State) : State :=
  if fieldN f.desc 0 1 = 2 then
    modSheet (fieldN f.desc 2 1) (fieldN f.desc 3 1) (fun x => if x.st = .opened then { x with release := x.release + 1 } else x) s
  else s

/-- The remote operation of word w of a Halyard's descriptor q has ended: a read's word waits to be moved, a write is visible, and a
write that failed faults the Halyard (R215, R220, Table 16.7). -/
def halAnswer (h q w : Nat) (wr : Bool) (code : Nat) (bs : List Byte) (s : State) : State :=
  match (halOf h s).flights.find? (fun f => f.seq = q) with
  | none => s
  | some f =>
    let upd (g : Flight → Flight) (s : State) : State :=
      modHal h (fun u => { u with flights := u.flights.map (fun x => if x.seq = q then g x else x) }) s
    if !wr then upd (fun x => { x with got := x.got ++ [(w, bs, code)] }) s
    else if code ≠ 0 then halFault h code f.at_ s
    else outReleased f (upd (fun x => { x with acked := x.acked + 1 }) s)

/-- A READ of a WEIGHTS_LOAD has ended. -/
def loadAnswer (r : Nat × Nat) (e : ShrEnd) (s : State) : State :=
  modShr (fun u => { u with loads := u.loads.map (fun l =>
    if l.ref = r then { l with left := l.left - 1, bad := if e = .ostat 0 then l.bad else some (max e.loadDetail (l.bad.getD 0)) } else l) }) s

/-- A READ of a copy-on-write has ended. -/
def copyAnswer (k : Nat) (e : ShrEnd) (s : State) : State :=
  { s with furl := { s.furl with copies := s.furl.copies.map (fun x =>
    if x.id = k then { x with left := x.left - 1, bad := x.bad || !(e = .ostat 0) } else x) } }

/-- A message has been delivered, or a LOOKUP has not. -/
def messageAnswer (key : Option Nat) (e : ShrEnd) (s : State) : State :=
  match key with
  | some k => if e = .ostat 0 then s else { s with furl := { s.furl with failed := s.furl.failed ++ [k] } }
  | none => s

/-- The client's notice of an operation's end. -/
def tellClient (i : Nat) (o : ShrOp) (e : ShrEnd) (old : Nat) (s : State) : State :=
  match o.client with
  | .outside => emit (.shrDone i o.post.id e old) s
  | .halyard h q w wr => halAnswer h q w wr e.halCode o.got s
  | .load r => loadAnswer r e s
  | .copy k => copyAnswer k e s
  | .message k => messageAnswer k e s

/-- Complete a posted operation to its client: counters, the completion Cleat and the client's notice. -/
def opEnd (i : Nat) (o : ShrOp) (e : ShrEnd) (old : Nat) (s : State) : State :=
  let s1 := modConn i (fun c => { c with ops := c.ops.filter (fun p => !(p.post.id = o.post.id)) }) s
  let s2 := connCount i (if e = .ostat 0 then .ok else if e = .timedOut then .timedOut else .err) s1
  let s3 := if e = .timedOut then raise 0x135 s2 else s2
  let s4 := match o.post.done with
    | some n => if e = .ostat 0 then signalGlobal n 1 s3 else s3
    | none => s3
  tellClient i o e old s4

/-- Every posted operation ends alike. -/
def opsEnd (i : Nat) (e : ShrEnd) (s : State) : State := (connOf i s).ops.foldl (fun s o => opEnd i o e 0 s) s

/-! ### The end of a connection -/

/-- A connection becomes FREE: what is still posted ends as UNAVAIL (log entry 80), its windows go, its Cleats are freed, and
SHR_CONN_CLOSE completes (Table 16.6). -/
def connFree (i : Nat) (s0 : State) : State :=
  let s := opsEnd i .unavail s0
  let c := connOf i s
  let s1 := modShr (fun u => { u with
    maps := Tab.mapAll u.maps (fun _ m => if m.live && m.conn = i then { gen := nextGen m.gen } else m)
    conns := Tab.put u.conns i { gen := nextGen c.gen } }) s
  let s2 := { s1 with comp := { s1.comp with gcl := Tab.mapAll s1.comp.gcl (fun _ g => if g.owner = .conn i then g.freed else g) } }
  let s3 := s.shr.maps.foldl (fun s m => match m.2.unmap with
    | some r => if m.2.live && m.2.conn = i then finish r .ok 0 [] s else s
    | none => s) s2
  match c.closeRef with
  | some r => finish r .ok 0 [] s3
  | none => s3

/-- CLOSING with no posted operation left: CLOSE is sent. -/
def closeStep (i : Nat) (s : State) : State :=
  let c := connOf i s
  if c.st = .closing && c.ops.isEmpty && c.closes = 0 then sendPlain i 6 (modConn i (fun c => { c with closes := 1 }) s) else s

/-! ### Segments (R383, R384) -/

/-- Cut n bytes into segments of 4,096. -/
def segments (mk : Nat → Bool → Bool → List Byte → ShrSeg) : Nat → Nat → List Byte → List ShrSeg
  | 0, _, _ => []
  | fuel + 1, off, bs =>
    let now := bs.take 4096
    let rest := bs.drop 4096
    mk off (off = 0) rest.isEmpty now :: (if rest.isEmpty then [] else segments mk fuel (off + now.length) rest)

/-- The request segments of an operation. -/
def reqSegs (p : ShrPost) (opsn : Nat) (resend : Bool) (data : List Byte) : List ShrSeg :=
  let mk (off : Nat) (first last : Bool) (d : List Byte) : ShrSeg :=
    { opc := p.kind, first := first, last := last, resend := resend && first, opsn := opsn, len := p.len, addr := p.addr, off := off,
      aux := if p.kind = 3 then p.cleat % 4096 else 0, data := d }
  if p.kind = 1 then [mk 0 true true []] else segments mk (data.length / 4096 + 1) 0 data

/-! ### Release (R419 - R421) -/

/-- A condition holds. -/
def condMet (p : ShrPost) (s : State) : Bool :=
  match p.cond with
  | none => true
  | some (n, thr) => decide (thr ≤ (cleatOf true n s).count) && !(cleatOf true n s).ovf

/-- The data of an operation, read as it leaves: none where a word cannot be corrected. -/
def opData (p : ShrPost) (s : State) : Option (List Byte) × State :=
  if (p.kind = 2 || p.kind = 3) && p.data.isEmpty then memRead p.lcl p.len s else (some p.data, s)

/-- An operation leaves: OPSN, TIMEOUT_US, its source data, its segments (R412, R420). In QUARANTINE it completes NOROUTE on Stay
(R415); source data that cannot be read ends it with POISON (log entry 32). -/
def opLeave (i : Nat) (o : ShrOp) (s : State) : State :=
  let c := connOf i s
  if s.dev.mode = .quarantine && c.onStay then opEnd i o .noRoute 0 s
  else
    match opData o.post s with
    | (none, s1) => opEnd i o (.ostat 3) 0 s1
    | (some d, s1) =>
      modConn i (fun c => { c with
        opsn := (c.opsn + 1) % 2 ^ 32
        ops := c.ops.map (fun p => if p.post.id = o.post.id then
          { p with opsn := some c.opsn, tmo := if p.post.cond.isSome then c.timeout else p.tmo } else p)
        outq := c.outq ++ reqSegs o.post c.opsn false d }) s1

/-- The operations that may leave now, in order (Table 16.10). -/
def mayLeave (c : ShrConn) (s : State) : List ShrOp :=
  let w := c.ops.filter (fun o => o.opsn.isNone)
  if c.chain = 2 then w.filter (fun o => condMet o.post s)
  else w.takeWhile (fun o => condMet o.post s)

/-- Release what may leave on a connection. -/
def release (i : Nat) (s : State) : State :=
  let c := connOf i s
  if c.st = .opened || c.st = .closing then closeStep i ((mayLeave c s).foldl (fun s o => opLeave i o s) s) else s

/-- The fields of a post obey Table 16.3. -/
def postOk (p : ShrPost) : Bool :=
  if p.kind = 1 then 1 ≤ p.len && p.len ≤ 0x1000000
  else if p.kind = 2 || p.kind = 3 then 1 ≤ p.len && p.len ≤ 0x1000000 && (p.data.isEmpty || p.data.length = p.len) && p.cleat < 4096
  else if p.kind = 4 then p.len = 8 && p.data.length = 8
  else p.kind = 5 && 1 ≤ p.len && p.len ≤ 4096 && p.data.length = p.len && p.addr = 0

/-- A client posts an operation (R393, R411, R415, R419). -/
def opPostAs (client : ShrClient) (i : Nat) (p : ShrPost) (s : State) : State :=
  let c := connOf i s
  if c.st = .free || c.st = .opening || c.ops.any (fun o => o.post.id = p.id) then s
  else
    let s1 := connCount i .posted s
    let o : ShrOp := { post := p, client := client, tmo := c.timeout }
    let trig := (c.ops.filter (fun o => o.post.cond.isSome && o.opsn.isNone)).length
    if !postOk p || (p.cond.isSome && (c.chain = 0 || (c.chain = 2 && 256 ≤ trig))) then opEnd i o .inval 0 s1
    else if c.st = .broken then opEnd i o .broken 0 s1
    else if !(c.st = .opened) || !shrRuns s then opEnd i o .unavail 0 s1
    else if s.dev.mode = .quarantine && c.onStay then opEnd i o .noRoute 0 s1
    else release i (modConn i (fun c => { c with ops := c.ops ++ [o] }) s1)

/-- A client outside posts an operation. -/
def opPost (i : Nat) (p : ShrPost) (s : State) : State := opPostAs .outside i p s

/-- A client of the device's own posts an operation under a new number. On a connection that has gone it is UNAVAIL at once. -/
def clientPost (client : ShrClient) (i : Nat) (p : ShrPost) (s : State) : State :=
  let q : ShrPost := { p with id := s.shr.nextId }
  if (connOf i s).st = .free || (connOf i s).st = .opening then tellClient i { post := q, client := client } .unavail 0 s
  else opPostAs client i q (modShr (fun u => { u with nextId := u.nextId + 1 }) s)

/-- READs of at most 16 MiB each bring n bytes at an address of the other device to local memory (Table 16.3). -/
def postReads (client : ShrClient) (conn a loc n : Nat) : Nat → State → State
  | 0, s => s
  | k + 1, s =>
    let m := min 0x1000000 n
    postReads client conn (a + m) (loc + m) (n - m) k (clientPost client conn { id := 0, kind := 1, addr := a, len := m, lcl := loc } s)

/-- A message of Masthead's own leaves as an MSG on the system connection to a device (R424, Table 16.3). -/
def sysMessage (key : Option Nat) (dev : Nat) (bs : List Byte) (s : State) : State :=
  match (Tab.get s.rack.peers dev).sysConn with
  | some i => clientPost (.message key) i { id := 0, kind := 5, len := bs.length, data := bs } s
  | none => messageAnswer key .unavail s

/-! ### Sending and its timers -/

/-- The next sequenced packet leaves (R395, R416). -/
def pacedSend (i : Nat) (s : State) : State :=
  let c := connOf i s
  match c.outq with
  | [] => s
  | g :: gs =>
    if (c.st = .opened || c.st = .closing) && c.unacked.length < 1024 then
      let g1 := { g with psn := c.psn }
      sendPkt i (if g.resp then 4 else 3) g1
        (modConn i (fun c => { c with outq := gs, psn := (c.psn + 1) % 2 ^ 32, unacked := c.unacked ++ [g1] }) s)
    else s

/-- One RTO, later 1 ms, has passed since a packet was last sent (R398). -/
def retransmit (i psn : Nat) (s : State) : State :=
  let c := connOf i s
  match c.unacked.find? (fun g => g.psn = psn && !g.sacked) with
  | some g =>
    if c.st = .opened || c.st = .closing then
      raise 0x134 (connCount i .retx (sendPkt i (if g.resp then 4 else 3) g
        (modConn i (fun c => { c with unacked := c.unacked.map (fun x => if x.psn = psn then { x with tries := x.tries + 1 } else x) }) s)))
    else s
  | none => s

/-- The acknowledgement of received packets, if none has carried it yet (R397). -/
def ackTimer (i : Nat) (s : State) : State :=
  let c := connOf i s
  if 0 < c.ackDue && (c.st = .opened || c.st = .closing) then sendPlain i 5 s else s

/-- 100 ms without acknowledgement (R399). -/
def brokenTimeout (i : Nat) (s : State) : State :=
  let c := connOf i s
  if c.st = .opened && c.unacked.any (fun g => !g.sacked) then
    raise 0x136 (opsEnd i .broken (modConn i (fun c => { c with st := .broken }) s))
  else s

/-- An operation's timer expires (R412, R413). The timer of an operation with a condition starts when it leaves. -/
def opTimeout (i id : Nat) (s : State) : State :=
  match (connOf i s).ops.find? (fun o => o.post.id = id && (o.opsn.isSome || o.post.cond.isNone)) with
  | some o => closeStep i (opEnd i o .timedOut 0 s)
  | none => s

/-- CONNECT again. -/
def connectRetry (i : Nat) (s : State) : State := if (connOf i s).st = .opening then sendOpening i 1 s else s

/-- The triggered operations that have not fired end, without firing, as their connection leaves OPEN by SHR_CONN_CLOSE (R421): as
ABORTED (log entry 80). -/
def dropTriggered (i : Nat) (s : State) : State :=
  let c := connOf i s
  if c.chain = 2 then (c.ops.filter (fun o => o.post.cond.isSome && o.opsn.isNone)).foldl (fun s o => opEnd i o .aborted 0 s) s else s

/-- CLOSE again; after 1 ms, a hundred of them, the connection is FREE (Table 16.6). -/
def closeRetry (i : Nat) (s : State) : State :=
  let c := connOf i s
  if c.st = .closing && c.ops.isEmpty then
    if 100 ≤ c.closes then connFree i s else sendPlain i 6 (modConn i (fun c => { c with closes := c.closes + 1 }) s)
  else s

/-- How far an operation's OPSN lies after n, modulo 2^32. -/
def ShrOp.after (n : Nat) (o : ShrOp) : Nat := (o.opsn.getD n + 2 ^ 32 - n) % 2 ^ 32

/-- An operation takes its place among operations in OPSN order from n on. -/
def insertOp (n : Nat) (o : ShrOp) : List ShrOp → List ShrOp
  | [] => [o]
  | p :: ps => if o.after n < p.after n then o :: p :: ps else p :: insertOp n o ps

/-- RETRY x 10 us after a FAULT: the faulted operation and every later one sent goes again, in OPSN order (R410). The order in which
operations were posted is another one where they leave by triggers. -/
def resendDelay (i : Nat) (s : State) : State :=
  let c := connOf i s
  let sent := c.ops.filter (fun o => o.opsn.isSome)
  match sent.find? (fun o => o.resend) with
  | none => s
  | some f =>
    let n := f.opsn.getD 0
    let again := (sent.filter (fun o => o.after n < 2 ^ 31)).foldl (fun l o => insertOp n o l) []
    let ns := again.filterMap (fun o => o.opsn)
    let s1 := modConn i (fun c => { c with outq := c.outq.filter (fun g => g.resp || !ns.contains g.opsn)
                                           ops := c.ops.map (fun o => { o with resend := false }) }) s
    (again.foldl (fun (r : Bool × State) o =>
      match opData o.post r.2 with
      | (some d, s2) => (false, modConn i (fun c => { c with outq := c.outq ++ reqSegs o.post (o.opsn.getD 0) r.1 d }) s2)
      | (none, s2) => (r.1, opEnd i o (.ostat 3) 0 s2)) (true, s1)).2

/-! ### Congestion control (R416 - R418) -/

/-- The least sample of the current and previous 100 ms. -/
def baseRtt (c : ShrConn) : Nat :=
  match c.baseCur, c.basePrev with
  | some a, some b => min a b
  | some a, none => a
  | none, some b => b
  | none, none => 0

/-- An RTT sample. -/
def addSample (i rtt : Nat) (s : State) : State :=
  let w := s.time.mono / 100000000
  modConn i (fun c =>
    let c1 := if c.baseAt = w then c else
      { c with basePrev := if c.baseAt + 1 = w then c.baseCur else none, baseCur := none, baseAt := w }
    { c1 with sample := some (min rtt (c1.sample.getD rtt)), baseCur := some (min rtt (c1.baseCur.getD rtt)) }) s

/-- The update of r_cc, a fraction of Mb/s, and whether it was pinned. -/
def ccStep (u : Shroud) (line rate delay : Nat) (r : Nat × Nat) : (Nat × Nat) × Bool :=
  if u.target < delay then
    let n := (r.1 * (65536 * delay - u.md * (delay - u.target)), r.2 * (65536 * delay))
    if n.1 < u.minRate * n.2 then ((u.minRate, 1), true) else (n, false)
  else if rate * r.2 < r.1 then (r, true)
  else
    let n := (r.1 + u.ai * r.2, r.2)
    if line * n.2 < n.1 then ((line, 1), true) else (n, false)

/-- Every 8 us, per connection with a sample (R417, R418). -/
def ccPeriod (i : Nat) (s : State) : State :=
  let c := connOf i s
  match c.sample with
  | none => s
  | some v =>
    let (r, p) := ccStep s.shr (lineRate c) (shaperRate c s) (v - baseRtt c) c.rcc
    let s1 := modConn i (fun c => { c with rcc := r, sample := none }) s
    if p then connCount i .pinned s1 else s1

/-- START of Shroud: r_cc restarts at one eighth of the line rate. -/
def shrStart (s : State) : State :=
  modShr (fun u => { u with conns := Tab.mapAll u.conns (fun _ c => if c.st = .free then c else { c with rcc := (lineRate c / 8, 1) }) }) s

/-- R394 and Table 16.9. -/
def shrValid (s : State) : Bool :=
  let u := s.shr
  500 ≤ u.target && u.target ≤ 1000000 && 1 ≤ u.ai && u.ai ≤ 1000000 && 1 ≤ u.md && 1 ≤ u.minRate && u.minRate ≤ 400000

/-- FUNC_STOP of Shroud: every posted operation has ended. -/
def shrDrained (s : State) : Bool := s.shr.conns.all (fun c => c.2.ops.isEmpty)

/-- The record of Table 16.11, of a FREE connection too. -/
def connStats (i : Nat) (s : State) : List Byte :=
  let c := connOf i s
  let n (k : Nat) : Nat := Tab.get c.cnt k
  leBytes 8 (n 0) ++ leBytes 8 (n 1) ++ ((List.range 8).flatMap (fun k => leBytes 4 (n (k + 2)))) ++
    leBytes 4 (min (c.rcc.1 / c.rcc.2) (shaperRate c s)) ++ leBytes 4 (baseRtt c) ++ leBytes 1 c.st.code ++ leBytes 1 c.chain ++
    List.replicate 6 0

end Sys2Proof.Machine
end

