-- ==== Sys2Proof/Machine/Num.lean ====
section
/-! DEFINITION. Number formats, exact arithmetic and rounding (spec/12_quantisation.md, R287 - R300; the vector arithmetic
of spec/09_instruction_set.md, R233 - R235). A finite FP32 value is a whole number of units of 2^-149, so sums and products
are formed exactly in the integers and rounded once. -/

namespace Sys2Proof.Machine

/-! ### Rounding a positive rational into a binary format -/

/-- floor(log2 (num / den)) for positive num and den. -/
def floorLog2 (num den : Nat) : Int :=
  let k : Int := (num.log2 : Int) - (den.log2 : Int)
  let le := if 0 ≤ k then decide (den * 2 ^ k.toNat ≤ num) else decide (den ≤ num * 2 ^ (-k).toNat)
  if le then k else k - 1

/-- num / den to the nearest integer; a tie goes away from zero, or to even. -/
def roundDiv (away : Bool) (num den : Nat) : Nat :=
  let q := num / den
  let r := 2 * (num % den)
  if den < r || (r = den && (away || q % 2 = 1)) then q + 1 else q

/-- The magnitude code of num / den rounded into a format with `mb` mantissa bits and the least exponent `emin`: exponent field
and mantissa as one number, going on past the format's largest value. -/
def roundMag (away : Bool) (emin : Int) (mb num den : Nat) : Nat :=
  if num = 0 then 0
  else
    let e := max (floorLog2 num den) emin
    let u : Int := e - mb
    let r := if 0 ≤ u then roundDiv away num (den * 2 ^ u.toNat) else roundDiv away (num * 2 ^ (-u).toNat) den
    (e - emin).toNat * 2 ^ mb + r

/-! ### FP32 -/

/-- The canonical NaN. -/
def nan32 : W32 := 0x7FC00000#32
/-- NaN test. -/
def isNan (x : W32) : Bool := 0x7F800000 < x.toNat % 2 ^ 31
/-- Infinity test. -/
def isInf (x : W32) : Bool := x.toNat % 2 ^ 31 = 0x7F800000
/-- Sign bit. -/
def isNeg (x : W32) : Bool := x.getLsbD 31
/-- Zero of either sign. -/
def isZero (x : W32) : Bool := x.toNat % 2 ^ 31 = 0
/-- An infinity or a NaN. -/
def isSpecial (x : W32) : Bool := isNan x || isInf x

/-- The magnitude of a finite FP32 value in units of 2^-149. -/
def magUnits (x : W32) : Nat :=
  let e := bitsN x.toNat 23 8
  let m := x.toNat % 2 ^ 23
  if e = 0 then m else (2 ^ 23 + m) * 2 ^ (e - 1)

/-- A finite FP32 value in units of 2^-149. -/
def units (x : W32) : Int := if isNeg x then -(magUnits x : Int) else (magUnits x : Int)

/-- A signed FP32 word of a magnitude code. -/
def mk32 (neg : Bool) (mag : Nat) : W32 := BitVec.ofNat 32 (mag + if neg then 2 ^ 31 else 0)

/-- Round a non-zero exact value num / den of a sign to FP32, ties to even, overflow to infinity (vector arithmetic). -/
def rne32 (neg : Bool) (num den : Nat) : W32 := mk32 neg (min 0x7F800000 (roundMag false (-126) 23 num den))

/-- Round an exact value to FP32, ties away, saturating (conversions and the Sail); whether it saturated. -/
def rna32 (neg : Bool) (num den : Nat) : W32 × Bool :=
  let m := roundMag true (-126) 23 num den
  let top := (2 ^ 24 - 1) * 2 ^ 104
  (mk32 neg (min 0x7F7FFFFF m), decide (top * den < num))

/-- An exact value n / 2^k, ties to even; an exact zero takes the sign given. -/
def rneInt (zeroNeg : Bool) (n : Int) (k : Nat) : W32 :=
  if n = 0 then mk32 zeroNeg 0 else rne32 (n < 0) n.natAbs (2 ^ k)

/-- An FP32 or NaN: infinity of a sign. -/
def inf32 (neg : Bool) : W32 := mk32 neg 0x7F800000

/-- vA + vB. -/
def fAdd (a b : W32) : W32 :=
  if isNan a || isNan b then nan32
  else if isInf a then (if isInf b && isNeg a != isNeg b then nan32 else a)
  else if isInf b then b
  else rneInt (isNeg a && isNeg b) (units a + units b) 149

/-- Flip the sign bit. -/
def fNeg (a : W32) : W32 := a ^^^ 0x80000000#32

/-- Clear the sign bit. -/
def fAbs (a : W32) : W32 := a &&& 0x7FFFFFFF#32

/-- vA - vB. -/
def fSub (a b : W32) : W32 := if isNan b then nan32 else fAdd a (fNeg b)

/-- vA * vB. -/
def fMul (a b : W32) : W32 :=
  let neg := isNeg a != isNeg b
  if isNan a || isNan b then nan32
  else if isInf a || isInf b then (if isZero a || isZero b then nan32 else inf32 neg)
  else rneInt neg (units a * units b) 298

/-- vA * vB + vC with one rounding. -/
def fFma (a b c : W32) : W32 :=
  let neg := isNeg a != isNeg b
  if isNan a || isNan b || isNan c then nan32
  else if isInf a || isInf b then
    (if isZero a || isZero b || (isInf c && isNeg c != neg) then nan32 else inf32 neg)
  else if isInf c then c
  else rneInt (neg && isNeg c) (units a * units b + units c * 2 ^ 149) 298

/-- A key that orders the non-NaN FP32 values, -0 below +0. -/
def ordKey (a : W32) : Int := if isNeg a then -((a.toNat % 2 ^ 31 : Nat) : Int) - 1 else ((a.toNat % 2 ^ 31 : Nat) : Int)

/-- VFMIN. -/
def fMin (a b : W32) : W32 :=
  if isNan a then (if isNan b then nan32 else b) else if isNan b then a else if ordKey a ≤ ordKey b then a else b

/-- VFMAX. -/
def fMax32 (a b : W32) : W32 :=
  if isNan a then (if isNan b then nan32 else b) else if isNan b then a else if ordKey a ≤ ordKey b then b else a

/-- The numeric order of two non-NaN values, where -0 equals +0. -/
def numKey (a : W32) : Int := if isNeg a then -((a.toNat % 2 ^ 31 : Nat) : Int) else ((a.toNat % 2 ^ 31 : Nat) : Int)

/-- VFCEQ, VFCLT, VFCLE. -/
def fEq (a b : W32) : Bool := !(isNan a || isNan b) && numKey a = numKey b
def fLt (a b : W32) : Bool := !(isNan a || isNan b) && numKey a < numKey b
def fLe (a b : W32) : Bool := !(isNan a || isNan b) && numKey a ≤ numKey b

/-- 1 / x (Table 9.15). -/
def fRcp (x : W32) : W32 :=
  if isNan x then nan32 else if isZero x then inf32 (isNeg x) else if isInf x then mk32 (isNeg x) 0
  else rne32 (isNeg x) (2 ^ 149) (magUnits x)

/-- floor(sqrt n) by trial bits from 2^k down. -/
def isqrtLoop (n : Nat) : Nat → Nat → Nat
  | 0, r => r
  | k + 1, r => isqrtLoop n k (if (r + 2 ^ k) * (r + 2 ^ k) ≤ n then r + 2 ^ k else r)

/-- floor(sqrt n). -/
def isqrt (n : Nat) : Nat := isqrtLoop n (n.log2 / 2 + 1) 0

/-- 1 / sqrt x (Table 9.15). The root is taken to 200 fraction bits with a sticky bit, which decides every rounding. -/
def fRsq (x : W32) : W32 :=
  if isNan x then nan32 else if isZero x then inf32 (isNeg x) else if isNeg x then nan32
  else if isInf x then mk32 false 0
  else
    let n := magUnits x
    let sq := 2 ^ 749 / n
    let r := isqrt sq
    let exact := r * r = sq && 2 ^ 749 % n = 0
    rne32 false (2 * r + b2n (!exact)) (2 ^ 301)

/-- The product of the roots 2^(2^-j) that the fraction bits select, at 256 bits, from bit 2^-1 down. -/
def exp2Loop (f : Nat) : Nat → Nat → Nat → Nat
  | 0, _, acc => acc
  | j + 1, root, acc =>
    let r := isqrt (root * 2 ^ 256)
    exp2Loop f j r (if bitN f j then acc * r / 2 ^ 256 else acc)

/-- 2^x (Table 9.15), formed to 256 bits and rounded once (log entry 7). -/
def fExp2 (x : W32) : W32 :=
  if isNan x then nan32 else if isZero x then 0x3F800000#32
  else if isInf x then (if isNeg x then 0#32 else inf32 false)
  else
    let n := units x
    let i := n / (2 ^ 149 : Int)
    let f := (n % (2 ^ 149 : Int)).toNat
    if 128 ≤ i then inf32 false
    else if i < -151 then 0#32
    else
      let acc := if f = 0 then 2 ^ 256 else exp2Loop f 149 (2 ^ 257) (2 ^ 256)
      rne32 false ((2 * acc + b2n (!(f = 0))) * 2 ^ (i + 151).toNat) (2 ^ (257 + 151))

/-- Binary digits of log2 of y / 2^512 in [1, 2), `k` of them. -/
def log2Loop : Nat → Nat → Nat → Nat
  | 0, _, acc => acc
  | k + 1, y, acc =>
    let q := y * y / 2 ^ 512
    if 2 ^ 513 ≤ q then log2Loop k (q / 2) (2 * acc + 1) else log2Loop k q (2 * acc)

/-- log2 x (Table 9.15), formed to 160 fraction bits and rounded once (log entry 7). -/
def fLog2 (x : W32) : W32 :=
  if isNan x then nan32 else if isZero x then inf32 true else if isNeg x then nan32
  else if isInf x then inf32 false
  else
    let n := magUnits x
    let e : Int := (n.log2 : Int) - 149
    let y := n * 2 ^ (512 - n.log2)
    let fr := if n = 2 ^ n.log2 then 0 else 2 * log2Loop 160 y 0 + 1
    rneInt false (e * 2 ^ 161 + fr) 161

/-! ### BF16 -/

/-- A BF16 element as FP32. -/
def bf32 (h : Nat) : W32 := BitVec.ofNat 32 (h % 2 ^ 16 * 2 ^ 16)

/-- Round an exact value to BF16, ties to even, overflow to infinity. -/
def rneBf (zeroNeg : Bool) (n : Int) (k : Nat) : Nat :=
  let s := if (if n = 0 then zeroNeg else n < 0) then 2 ^ 15 else 0
  s + if n = 0 then 0 else min 0x7F80 (roundMag false (-126) 7 n.natAbs (2 ^ k))

/-- One packed BF16 element of VBADD, VBMUL, VBFMA. -/
def bfAdd (a b : Nat) : Nat :=
  let x := bf32 a
  let y := bf32 b
  if isNan x || isNan y then 0x7FC0
  else if isInf x then (if isInf y && isNeg x != isNeg y then 0x7FC0 else a)
  else if isInf y then b
  else rneBf (isNeg x && isNeg y) (units x + units y) 149

def bfMul (a b : Nat) : Nat :=
  let x := bf32 a
  let y := bf32 b
  let neg := isNeg x != isNeg y
  let inf := 0x7F80 + if neg then 2 ^ 15 else 0
  if isNan x || isNan y then 0x7FC0
  else if isInf x || isInf y then (if isZero x || isZero y then 0x7FC0 else inf)
  else rneBf neg (units x * units y) 298

def bfFma (a b c : Nat) : Nat :=
  let x := bf32 a
  let y := bf32 b
  let z := bf32 c
  let neg := isNeg x != isNeg y
  if isNan x || isNan y || isNan z then 0x7FC0
  else if isInf x || isInf y then
    (if isZero x || isZero y || (isInf z && isNeg z != neg) then 0x7FC0 else 0x7F80 + if neg then 2 ^ 15 else 0)
  else if isInf z then c
  else rneBf (neg && isNeg z) (units x * units y + units z * 2 ^ 149) 298

/-- Both elements of a lane. -/
def bfLane (f : Nat → Nat → Nat) (a b : W32) : W32 :=
  BitVec.ofNat 32 (f (a.toNat % 2 ^ 16) (b.toNat % 2 ^ 16) + f (a.toNat / 2 ^ 16) (b.toNat / 2 ^ 16) * 2 ^ 16)

/-- Both elements of a lane, three operands. -/
def bfLane3 (f : Nat → Nat → Nat → Nat) (a b c : W32) : W32 :=
  BitVec.ofNat 32 (f (a.toNat % 2 ^ 16) (b.toNat % 2 ^ 16) (c.toNat % 2 ^ 16) +
    f (a.toNat / 2 ^ 16) (b.toNat / 2 ^ 16) (c.toNat / 2 ^ 16) * 2 ^ 16)

/-! ### Conversions (Table 12.5, R291 - R293) -/

/-- FP32 to BF16. -/
def cvtFB (x : W32) : Nat :=
  let s := if isNeg x then 2 ^ 15 else 0
  if isNan x then 0x7FC0 else if isInf x then s + 0x7F7F
  else s + if isZero x then 0 else min 0x7F7F (roundMag true (-126) 7 (magUnits x) (2 ^ 149))

/-- BF16 to FP32. -/
def cvtBF (h : Nat) : W32 :=
  let x := bf32 h
  if isNan x then nan32 else if isInf x then mk32 (isNeg x) 0x7F7FFFFF else x

/-- FP32 to INT32. -/
def cvtFI (x : W32) : W32 :=
  if isNan x then 0 else if isInf x then (if isNeg x then 0x80000000#32 else 0x7FFFFFFF#32)
  else
    let m := roundDiv true (magUnits x) (2 ^ 149)
    if isNeg x then BitVec.ofInt 32 (-(min m (2 ^ 31) : Nat)) else BitVec.ofNat 32 (min m (2 ^ 31 - 1))

/-- INT32 to FP32. -/
def cvtIF (x : W32) : W32 :=
  if x = 0 then 0 else (rna32 (x.toInt < 0) x.toInt.natAbs 1).1

/-! ### VF8, VF4, VS8 (Tables 12.1 - 12.3, R287, R288) -/

/-- The magnitude of a VF8 or VS8 code [6:0] in units of 2^-9. -/
def vf8Mag (c : Nat) : Nat :=
  let e := bitsN c 3 4
  let m := c % 8
  if e = 0 then m else (8 + m) * 2 ^ (e - 1)

/-- A VF8 value in units of 2^-9; 0x80 is the NaN and is excluded by the callers. -/
def vf8Val (c : Nat) : Int := if bitN c 7 then -(vf8Mag (c % 128) : Int) else vf8Mag (c % 128)

/-- A VF4 value in units of 2^-1. -/
def vf4Val (c : Nat) : Int :=
  let e := bitsN c 1 2
  let m := c % 2
  let v : Nat := if e = 0 then m else (2 + m) * 2 ^ (e - 1)
  if bitN c 3 then -(v : Int) else v

/-- The two VF formats. -/
inductive Vf where
  | vf8 | vf4
  deriving DecidableEq, Repr, Inhabited

/-- FMAX. -/
def Vf.fmax : Vf → Nat
  | .vf8 => 480 | .vf4 => 6

/-- The NaN element of a format's data: VF4 has none and writes zero. -/
def Vf.nanCode : Vf → Nat
  | .vf8 => 0x80 | .vf4 => 0

/-- rnd of a non-zero num / den into a format, the sign kept; a result that rounds to zero is the zero code (R292). -/
def Vf.round (f : Vf) (neg : Bool) (num den : Nat) : Nat :=
  let m := match f with
    | .vf8 => min 0x7F (roundMag true (-6) 3 num den)
    | .vf4 => min 7 (roundMag true 0 1 num den)
  if m = 0 then 0 else m + if neg then (match f with | .vf8 => 0x80 | .vf4 => 8) else 0

/-- The value of an element code as a fraction with denominator 2^9. -/
def Vf.val (f : Vf) (c : Nat) : Int := match f with
  | .vf8 => vf8Val c | .vf4 => vf4Val c * 256

/-- The largest magnitude among non-NaN elements, as a magnitude code: an infinity is above every finite value. -/
def maxMag (xs : List W32) : Nat := xs.foldl (fun m x => if isNan x then m else max m (x.toNat % 2 ^ 31)) 0

/-- quantise_block: the VS8 code and the element codes (R294, R295). -/
def quantise (f : Vf) (xs : List W32) (s2 : W32) : Nat × List Nat :=
  if isSpecial s2 || isNeg s2 || isZero s2 then (0, xs.map (fun _ => f.nanCode))
  else
    let m := maxMag xs
    let u := magUnits s2
    let code :=
      if m = 0 then 0 else if m = 0x7F800000 then 0x7E
      else min 0x7E (roundMag true (-6) 3 (magUnits (BitVec.ofNat 32 m)) (f.fmax * u))
    (code, xs.map (fun x =>
      if isNan x then f.nanCode
      else if code = 0 then 0
      else if isInf x then f.round (isNeg x) (f.fmax * 2) 1
      else if isZero x then 0
      else f.round (isNeg x) (magUnits x * 2 ^ 9) (vf8Mag code * u)))

/-- One element of dequantise_block (R296). -/
def dequantise (f : Vf) (q code : Nat) (s2 : W32) : W32 :=
  if (f = .vf8 && q = 0x80) || code % 128 = 0x7F || isSpecial s2 then nan32
  else
    let v := f.val q * (vf8Mag (code % 128) : Int) * units s2
    if v = 0 then 0 else
      let r := (rna32 (v < 0) v.natAbs (2 ^ (9 + 9 + 149))).1
      if isZero r then 0 else r

/-! ### Sail (R298 - R300) -/

/-- One rounding step of the Sail: ties away, saturating, every zero +0.0; and whether it saturated. -/
def sailRound (n : Int) (k : Nat) : W32 × Bool :=
  if n = 0 then (0, false)
  else
    let (r, sat) := rna32 (n < 0) n.natAbs (2 ^ k)
    (if isZero r then 0 else r, sat)

/-- sail_kblock over the exact sum p of value(a) * value(b) in units of 2^-18; `nan` tells that an element or scale is NaN. -/
def sailKblock (acc : W32) (nan : Bool) (p : Int) (acode bcode : Nat) (sa sb : W32) : W32 × Bool :=
  if isNan acc || nan || acode % 128 = 0x7F || bcode % 128 = 0x7F || isSpecial sa || isSpecial sb then (nan32, false)
  else
    let (t, s1) := sailRound (p * (vf8Mag (acode % 128) : Int) * (vf8Mag (bcode % 128) : Int) * units sa * units sb) (18 + 9 + 9 + 298)
    let (r, s2) := sailRound (units acc + units t) 149
    (r, s1 || s2)

/-- sail_kblock_bf16 over the exact sum in units of 2^-298. -/
def sailKblockBf (acc : W32) (nan : Bool) (p : Int) : W32 × Bool :=
  if isNan acc || nan then (nan32, false)
  else
    let (t, s1) := sailRound p 298
    let (r, s2) := sailRound (units acc + units t) 149
    (r, s1 || s2)

end Sys2Proof.Machine
end

