-- ==== Sys2Proof/Machine/Operands.lean ====
section
/-! DEFINITION. The instruction word of a tile, its operand fields and what each row allows in them (Tables 9.1 - 9.13,
R223 - R226), the register files, and the issue of an instruction (R227, R228). -/

namespace Sys2Proof.Machine

/-- The fields of an instruction word (Table 9.1). -/
structure Fields where
  op : Nat
  pg : Nat
  d : Nat
  a : Nat
  b : Nat
  c : Nat
  imm : Nat
  deriving DecidableEq, Repr, Inhabited

/-- Cut a word into its fields. -/
def fieldsOf (w : W64) : Fields :=
  let v := w.toNat
  { op := bitsN v 56 8, pg := bitsN v 52 4, d := bitsN v 47 5, a := bitsN v 42 5, b := bitsN v 37 5, c := bitsN v 32 5,
    imm := bitsN v 0 32 }

/-- What a register field may hold: nothing (zero), a register or Sheet number, a predicate, an accumulator. -/
inductive Reg where
  | none | any | pred | acc
  deriving DecidableEq, Repr, Inhabited

/-- What IMM may hold. -/
inductive Imm where
  | zero | any
  /-- A number below n. -/
  | below (n : Nat)
  /-- 1 to 1,024 words. -/
  | count
  | cleat | csrRead | csrWrite | smma | sscl | sdrain
  deriving DecidableEq, Repr, Inhabited

/-- The operand form of a row. -/
structure Form where
  pg : Bool := false
  d : Reg := .none
  a : Reg := .none
  b : Reg := .none
  c : Reg := .none
  imm : Imm := .zero
  deriving DecidableEq, Repr, Inhabited

/-- The form of every OP the Vyoft lists (Tables 9.3 - 9.12); none is reserved. -/
def formOf (op : Nat) : Option Form :=
  if op = 0x01 ∨ op = 0x02 then some {}
  else if op = 0x03 then some { imm := .below 8192 }
  else if 0x04 ≤ op ∧ op ≤ 0x09 then some { a := .any, b := .any, imm := .below 8192 }
  else if op = 0x0A then some { d := .any, imm := .below 8192 }
  else if op = 0x0B then some { a := .any }
  else if op = 0x0C ∨ op = 0x0D then some { a := .pred, imm := .below 8192 }
  else if 0x10 ≤ op ∧ op ≤ 0x24 then some { d := .any, a := .any, b := .any }
  else if op = 0x26 ∨ op = 0x27 then some { d := .any, imm := .any }
  else if 0x28 ≤ op ∧ op ≤ 0x2B ∨ op = 0x2F then some { d := .any, a := .any, imm := .any }
  else if 0x2C ≤ op ∧ op ≤ 0x2E then some { d := .any, a := .any, imm := .below 64 }
  else if 0x30 ≤ op ∧ op ≤ 0x36 then some { d := .any, a := .any, imm := .any }
  else if 0x38 ≤ op ∧ op ≤ 0x3B then some { a := .any, b := .any, imm := .any }
  else if op = 0x53 then some { pg := true, d := .any, a := .any, b := .any, c := .any }
  else if 0x56 ≤ op ∧ op ≤ 0x5B then some { pg := true, d := .any, a := .any }
  else if 0x50 ≤ op ∧ op ≤ 0x55 then some { pg := true, d := .any, a := .any, b := .any }
  else if 0x5C ≤ op ∧ op ≤ 0x5E then some { pg := true, d := .pred, a := .any, b := .any }
  else if op = 0x6B then some { pg := true, d := .pred, a := .any, b := .any, imm := .below 3 }
  else if op = 0x6E then some { pg := true, d := .any, a := .any, b := .any, c := .any }
  else if op = 0x6F then some { d := .any, a := .any, b := .any, c := .pred }
  else if 0x60 ≤ op ∧ op ≤ 0x6D then some { pg := true, d := .any, a := .any, b := .any }
  else if op = 0x70 then some { pg := true, d := .any, a := .any, imm := .any }
  else if op = 0x71 then some { pg := true, a := .any, b := .any, imm := .any }
  else if op = 0x72 ∨ op = 0x73 then some { pg := true, d := .any, a := .any }
  else if op = 0x74 ∨ op = 0x75 then some { d := .any, a := .any, b := .any }
  else if op = 0x76 then some { pg := true, d := .any }
  else if op = 0x77 then some { pg := true, d := .any, a := .any, b := .any }
  else if 0x78 ≤ op ∧ op ≤ 0x7A then some { pg := true, d := .any, a := .any }
  else if op = 0x7B then some { d := .pred, a := .pred, b := .pred, imm := .below 4 }
  else if op = 0x7C then some { d := .pred, a := .pred }
  else if op = 0x7D then some { d := .any, a := .pred }
  else if op = 0x7E then some { d := .pred, a := .any }
  else if op = 0x7F then some { d := .pred, imm := .below 2 }
  else if op = 0x80 then some { pg := true, d := .any, a := .any, b := .any }
  else if op = 0x81 then some { pg := true, d := .any, a := .any, imm := .below 2 }
  else if op = 0x82 ∨ op = 0x83 then some { pg := true, d := .any, a := .any }
  else if 0x88 ≤ op ∧ op ≤ 0x8B then some { d := .any, a := .any, b := .any }
  else if op = 0x90 then some { d := .acc, a := .any, b := .any, imm := .smma }
  else if op = 0x91 then some { a := .any, imm := .sscl }
  else if op = 0x92 then some { d := .acc }
  else if op = 0x93 then some { d := .acc, a := .any, imm := .sdrain }
  else if op = 0xA4 ∨ op = 0xA5 then some { d := .any, c := .any, imm := .count }
  else if op = 0xA6 ∨ op = 0xA7 then some { a := .any, c := .any, imm := .count }
  else if op = 0xA8 ∨ op = 0xA9 ∨ op = 0xAB then some { c := .any }
  else if op = 0xAA then some { c := .any, imm := .count }
  else if op = 0xAC ∨ op = 0xAD then some { d := .any, c := .any }
  else if op = 0xAE then some { a := .any, c := .any }
  else if op = 0xAF then some { d := .any, c := .any, imm := .below 2 }
  else if op = 0xB4 ∨ op = 0xB5 ∨ op = 0xB7 then some { b := .any, imm := .cleat }
  else if op = 0xB6 then some { d := .any, imm := .cleat }
  else if op = 0xC0 then some { d := .any, imm := .csrRead }
  else if op = 0xC1 then some { a := .any, imm := .csrWrite }
  else none

/-- A register field's value is allowed. -/
def Reg.ok : Reg → Nat → Bool
  | .none, v => v = 0
  | .any, _ => true
  | .pred, v => v < 8
  | .acc, v => v < 4

/-- CSR numbers Table 9.13 lists. -/
def csrListed (n : Nat) : Bool := n ≤ 5 || (0x10 ≤ n && n ≤ 0x17)

/-- CSRs of type RW. -/
def csrWritable (n : Nat) : Bool := n = 3 || n = 4

/-- IMM and the fields a source bit switches off hold allowed values. -/
def Imm.ok : Imm → Fields → Bool
  | .zero, f => f.imm = 0
  | .any, _ => true
  | .below n, f => f.imm < n
  | .count, f => 1 ≤ f.imm && f.imm ≤ 1024
  | .cleat, f => f.imm < 8192 && (bitN f.imm 12 || f.imm < 32)
  | .csrRead, f => csrListed f.imm
  | .csrWrite, f => csrWritable f.imm
  | .smma, f =>
    f.imm < 2 ^ 14 && !(bitsN f.imm 0 2 = 0) && (if bitN f.imm 2 then f.a = 0 else bitsN f.imm 4 5 = 0) &&
      (if bitN f.imm 3 then f.b = 0 else bitsN f.imm 9 5 = 0)
  | .sscl, f =>
    f.imm < 2 ^ 9 && bitsN f.imm 0 2 = 0 && !bitN f.imm 3 && (if bitN f.imm 2 then f.a = 0 else bitsN f.imm 4 5 = 0)
  | .sdrain, f => f.imm < 2 ^ 9 && !bitN f.imm 3 && (if bitN f.imm 2 then f.a = 0 else bitsN f.imm 4 5 = 0)

/-- The word's fields hold only what its row allows (R224, R226). -/
def legal (f : Fields) : Bool :=
  match formOf f.op with
  | none => false
  | some m =>
    (if m.pg then f.pg = 0 || 8 ≤ f.pg else f.pg = 0) && m.d.ok f.d && m.a.ok f.a && m.b.ok f.b && m.c.ok f.c && m.imm.ok f

/-! ### Register files (Table 9.2) -/

/-- gN; g0 reads zero (R225). -/
def gReg (u : Tile) (n : Nat) : W64 := if n = 0 then 0 else Tab.get u.g n

/-- Write gN; a write to g0 is discarded. -/
def setG (n : Nat) (v : W64) (u : Tile) : Tile := if n = 0 then u else { u with g := Tab.put u.g n v }

/-- pN. -/
def pReg (u : Tile) (n : Nat) : W64 := Tab.get u.p n

/-- Write pN. -/
def setP (n : Nat) (v : W64) (u : Tile) : Tile := { u with p := Tab.put u.p n v }

/-- Lane i of vN. -/
def lane (u : Tile) (n i : Nat) : W32 := Tab.get u.v (64 * n + i)

/-- The active lanes of a guard (R213, R226). -/
def active (u : Tile) (pg i : Nat) : Bool := pg = 0 || (pReg u (pg - 8)).getLsbD i

/-- Write the active lanes below n of vN. -/
def setLanes (r pg : Nat) (f : Nat → W32) (old : Tile) : Nat → Tab W32 → Tab W32
  | 0, t => t
  | n + 1, t =>
    let t1 := setLanes r pg f old n t
    if active old pg n then Tab.put t1 (64 * r + n) (f n) else t1

/-- Write vN under a guard. -/
def setV (r pg : Nat) (f : Nat → W32) (u : Tile) : Tile := { u with v := setLanes r pg f u 64 u.v }

/-- The bits below n of a predicate, under a guard: an inactive lane keeps its bit. -/
def setBits (pg : Nat) (f : Nat → Bool) (u : Tile) : Nat → W64 → W64
  | 0, v => v
  | n + 1, v =>
    let v1 := setBits pg f u n v
    if active u pg n then setBit v1 n (f n) else v1

/-- Write pN under a guard. -/
def setPBits (r pg : Nat) (f : Nat → Bool) (u : Tile) : Tile := setP r (setBits pg f u 64 (pReg u r)) u

/-- IMM sign-extended to 64 bits. -/
def immS (f : Fields) : W64 := (BitVec.ofNat 32 f.imm).signExtend 64

/-! ### Issue -/

/-- What an attempt to issue came to: the next state with the PC going on or elsewhere, no issue (the state may hold a new
registration), or a fault. -/
inductive Try where
  | adv (s : State)
  | jump (pc : Nat) (s : State)
  | stall (s : State)
  | fault (code : Nat) (s : State)

/-- Set the PC after an issue. -/
def setPc (t pc : Nat) (s : State) : State := modTile t (fun u => { u with pc := pc % 8192, stalled := false }) s

/-- The word at a tile's PC. -/
def wordAt (t : Nat) (s : State) : W64 := Tab.get (tileOf t s).imem (tileOf t s).pc

/-- The tile issues: it is RUNNING, has not reached END, and its YCLK runs. -/
def tileIssues (t : Nat) (s : State) : Bool :=
  (tileOf t s).st = .running && !(tileOf t s).atEnd && t < 128 && !domainLost (tileDie t) s && !(s.dev.mode = .safe)

/-- A tile meets the instruction `op` at its PC: encoding first (0x08), then what the row's body answers (R227, R228). A word
with another OP is another row's. -/
def issue (op : Nat) (body : Nat → Fields → State → Try) (t : Nat) (s : State) : State :=
  let f := fieldsOf (wordAt t s)
  let pc := (tileOf t s).pc
  if !tileIssues t s || f.op ≠ op then s
  else if !legal f then tileFault t 0x08 pc s
  else match body t f s with
    | .adv s1 => setPc t (pc + 1) s1
    | .jump q s1 => setPc t q s1
    | .stall s1 => modTile t (fun u => { u with stalled := true }) s1
    | .fault code s1 => tileFault t code pc s1

/-- A body that only changes the tile's own registers. -/
def regBody (f : Fields → Tile → Tile) (t : Nat) (x : Fields) (s : State) : Try := .adv (modTile t (f x) s)

/-- A branch on a test of the tile's registers. -/
def brBody (p : Fields → Tile → Bool) (t : Nat) (x : Fields) (s : State) : Try :=
  if p x (tileOf t s) then .jump x.imm s else .adv s

/-- The word at the PC is reserved: an OP not listed, or a field its row does not allow (R224). -/
def reservedHere (t : Nat) (s : State) : State :=
  if tileIssues t s && !legal (fieldsOf (wordAt t s)) then tileFault t 0x08 (tileOf t s).pc s else s

/-- The stall watchdog (R231): the scalar unit has been unable to issue for the dispatch's limit. -/
def watchdog (t : Nat) (s : State) : State :=
  let u := tileOf t s
  if u.st = .running && (u.stalled || (u.atEnd && (!u.queue.isEmpty || u.drain.isSome))) then tileFault t 0x0A u.pc s else s

/-- A tile-memory access of n bytes at an offset lies inside tile memory (D8). -/
def inTmem (off n : Nat) : Bool := off + n ≤ 0x200000

end Sys2Proof.Machine
end

