-- ==== Sys2Proof/Machine/TileScalar.lean ====
section
/-! DEFINITION. Control, scalar ALU and scalar tile-memory instructions (Tables 9.4 - 9.6). -/

namespace Sys2Proof.Machine

/-- An ALU row over two registers. -/
def alu (f : W64 → W64 → W64) : Nat → Fields → State → Try :=
  regBody (fun x u => setG x.d (f (gReg u x.a) (gReg u x.b)) u)

/-- An ALU row over a register and the immediate. -/
def aluImm (f : W64 → W64 → W64) : Nat → Fields → State → Try :=
  regBody (fun x u => setG x.d (f (gReg u x.a) (immS x)) u)

/-- A comparison's 1 or 0. -/
def flag64 (b : Bool) : W64 := if b then 1 else 0

/-- The high half of a 128-bit product. -/
def mulHigh (a b : W64) : W64 := BitVec.ofNat 64 (a.toNat * b.toNat / 2 ^ 64)

/-- The high half of a signed 128-bit product. -/
def mulHighS (a b : W64) : W64 := BitVec.ofInt 64 (a.toInt * b.toInt / 2 ^ 64)

/-- DIV, DIVU, REM, REMU (Table 9.5, R236). -/
def divS (a b : W64) : W64 := if b = 0 then BitVec.allOnes 64 else BitVec.ofInt 64 (a.toInt.tdiv b.toInt)
def divU (a b : W64) : W64 := if b = 0 then BitVec.allOnes 64 else BitVec.ofNat 64 (a.toNat / b.toNat)
def remS (a b : W64) : W64 := if b = 0 then a else BitVec.ofInt 64 (a.toInt.tmod b.toInt)
def remU (a b : W64) : W64 := if b = 0 then a else BitVec.ofNat 64 (a.toNat % b.toNat)

/-- Signed minimum and maximum, unsigned minimum and maximum. -/
def minS (a b : W64) : W64 := if a.toInt ≤ b.toInt then a else b
def maxS (a b : W64) : W64 := if a.toInt ≤ b.toInt then b else a
def minU (a b : W64) : W64 := if a.toNat ≤ b.toNat then a else b
def maxU (a b : W64) : W64 := if a.toNat ≤ b.toNat then b else a

/-- Shifts by the low 6 bits. -/
def sll (a b : W64) : W64 := a <<< (b.toNat % 64)
def srl (a b : W64) : W64 := a >>> (b.toNat % 64)
def sra (a b : W64) : W64 := a.sshiftRight (b.toNat % 64)

/-! ### Tile memory -/

/-- The offset of a scalar or vector access: gA + imm modulo 2^64 (D8). -/
def accOff (x : Fields) (u : Tile) : Nat := (gReg u x.a + immS x).toNat

/-- Bytes an SMMA operand occupies: 64 bytes a word (Table 8.3). -/
def smmaWords (fmt : Nat) (b : Bool) : Nat :=
  if fmt = 1 then (if b then 66 else 33) else if fmt = 3 then (if b then 68 else 34) else (if b then 128 else 64)

/-- Bytes a drain writes. -/
def drainBytes (bf : Bool) : Nat := if bf then 16384 else 32768

/-- The operands a queued Sail instruction still has to read: each with its words in all and those had. -/
def SailOp.operands (q : SailOp) : List (SailSrc × Nat × Nat) :=
  if q.executed then []
  else match q.kind with
    | .smma _ fmt a b => [(a, smmaWords fmt false, q.gotA.length / 64), (b, smmaWords fmt true, q.gotB.length / 64)]
    | .sscl a => [(a, 12, q.gotA.length / 64)]
    | _ => []

/-- The target a queued SDRAIN still has to write. -/
def SailOp.targets (q : SailOp) : List (SailSrc × Nat × Nat) :=
  match q.kind with
  | .sdrain _ bf _ a => [(a, drainBytes bf / 64, 0)]
  | _ => []

/-- The target of the drain path. -/
def drainTarget (u : Tile) : List (SailSrc × Nat × Nat) :=
  match u.drain with
  | some d => [(d.tgt, drainBytes d.bf / 64, d.pushed)]
  | none => []

/-- Where a list of accesses, one after another, lies in tile memory. The words of a Sheet follow those of earlier accesses to it, from
the position `pos` gives on (R209, R251). -/
def accessRanges (sh : Nat → Sheet) : (Nat → Nat) → List (SailSrc × Nat × Nat) → List (Nat × Nat)
  | _, [] => []
  | pos, (.mem o, n, _) :: r => (o, 64 * n) :: accessRanges sh pos r
  | pos, (.sheet k, n, got) :: r =>
    (sh k).ranges (pos k) (n - got) ++ accessRanges sh (fun j => if j = k then pos k + (n - got) else pos j) r

/-- The ranges of tile memory that queued and executing SMMAs and SSCLs will read. -/
def sailReads (t : Nat) (s : State) : List (Nat × Nat) :=
  accessRanges (fun n => sheetOf t n s) (fun n => (sheetOf t n s).read) ((tileOf t s).queue.flatMap SailOp.operands)

/-- The ranges of tile memory that the drain path and queued SDRAINs will write. -/
def sailWrites (t : Nat) (s : State) : List (Nat × Nat) :=
  accessRanges (fun n => sheetOf t n s) (fun n => (sheetOf t n s).write) (drainTarget (tileOf t s) ++ (tileOf t s).queue.flatMap SailOp.targets)

/-- Two ranges share a byte. -/
def overlap (o n : Nat) (r : Nat × Nat) : Bool := decide (o < r.1 + r.2) && decide (r.1 < o + n)

/-- R209: a queued or executing SMMA or SSCL will read a byte of the range. -/
def sailWillRead (t o n : Nat) (s : State) : Bool := (sailReads t s).any (overlap o n)

/-- R209: a queued or executing SDRAIN will write a byte of the range. -/
def sailWillWrite (t o n : Nat) (s : State) : Bool := (sailWrites t s).any (overlap o n)

/-- A store to a range waits: the Sail still has to read it (R209), or an earlier SDRAIN still has to write it (R197). -/
def storeWaits (t o n : Nat) (s : State) : Bool := sailWillRead t o n s || sailWillWrite t o n s

/-- A scalar load of n bytes. -/
def load (n : Nat) (signed : Bool) (t : Nat) (x : Fields) (s : State) : Try :=
  let u := tileOf t s
  let o := accOff x u
  if !inTmem o n then .fault 0x01 s
  else if sailWillWrite t o n s then .stall s
  else match tileRead t o n s with
    | (some bs, s1) =>
      let v : W64 := if signed then BitVec.ofInt 64 (signedN n (leNat bs)) else BitVec.ofNat 64 (leNat bs)
      .adv (modTile t (setG x.d v) s1)
    | (none, s1) => .fault 0x0B s1

/-- A scalar store of n bytes. -/
def store (n : Nat) (t : Nat) (x : Fields) (s : State) : Try :=
  let u := tileOf t s
  let o := accOff x u
  if !inTmem o n then .fault 0x01 s
  else if storeWaits t o n s then .stall s
  else .adv (memWrite (tileBase t + o) (leBytes n (gReg u x.b).toNat) s)

/-- END: the program ends once the Sail is empty (D9, R211); the tile issues nothing more. -/
def endBody (t : Nat) (_x : Fields) (s : State) : Try := .jump (tileOf t s).pc (modTile t (fun u => { u with atEnd := true }) s)

/-- JAL. -/
def jalBody (t : Nat) (x : Fields) (s : State) : Try :=
  .jump x.imm (modTile t (fun u => setG x.d (BitVec.ofNat 64 ((u.pc + 1) % 8192)) u) s)

/-- JR. -/
def jrBody (t : Nat) (x : Fields) (s : State) : Try := .jump ((gReg (tileOf t s) x.a).toNat % 8192) s

/-! ### Rows -/

/-- NOP. -/
def execTNop (t : Nat) (s : State) : Host.Outcome State Fault Refusal :=
  .next (issue 0x01 (regBody (fun _ u => u)) t s)

/-- END. -/
def execTEnd (t : Nat) (s : State) : Host.Outcome State Fault Refusal :=
  .next (issue 0x02 (endBody) t s)

/-- BR. -/
def execTBr (t : Nat) (s : State) : Host.Outcome State Fault Refusal :=
  .next (issue 0x03 (brBody (fun _ _ => true)) t s)

/-- BEQ. -/
def execTBeq (t : Nat) (s : State) : Host.Outcome State Fault Refusal :=
  .next (issue 0x04 (brBody (fun x u => gReg u x.a = gReg u x.b)) t s)

/-- BNE. -/
def execTBne (t : Nat) (s : State) : Host.Outcome State Fault Refusal :=
  .next (issue 0x05 (brBody (fun x u => !(gReg u x.a = gReg u x.b))) t s)

/-- BLT. -/
def execTBlt (t : Nat) (s : State) : Host.Outcome State Fault Refusal :=
  .next (issue 0x06 (brBody (fun x u => decide ((gReg u x.a).toInt < (gReg u x.b).toInt))) t s)

/-- BGE. -/
def execTBge (t : Nat) (s : State) : Host.Outcome State Fault Refusal :=
  .next (issue 0x07 (brBody (fun x u => decide ((gReg u x.b).toInt ≤ (gReg u x.a).toInt))) t s)

/-- BLTU. -/
def execTBltu (t : Nat) (s : State) : Host.Outcome State Fault Refusal :=
  .next (issue 0x08 (brBody (fun x u => decide ((gReg u x.a).toNat < (gReg u x.b).toNat))) t s)

/-- BGEU. -/
def execTBgeu (t : Nat) (s : State) : Host.Outcome State Fault Refusal :=
  .next (issue 0x09 (brBody (fun x u => decide ((gReg u x.b).toNat ≤ (gReg u x.a).toNat))) t s)

/-- JAL. -/
def execTJal (t : Nat) (s : State) : Host.Outcome State Fault Refusal :=
  .next (issue 0x0A (jalBody) t s)

/-- JR. -/
def execTJr (t : Nat) (s : State) : Host.Outcome State Fault Refusal :=
  .next (issue 0x0B (jrBody) t s)

/-- BPANY. -/
def execTBpany (t : Nat) (s : State) : Host.Outcome State Fault Refusal :=
  .next (issue 0x0C (brBody (fun x u => !(pReg u x.a = 0))) t s)

/-- BPNONE. -/
def execTBpnone (t : Nat) (s : State) : Host.Outcome State Fault Refusal :=
  .next (issue 0x0D (brBody (fun x u => pReg u x.a = 0)) t s)

/-- ADD. -/
def execTAdd (t : Nat) (s : State) : Host.Outcome State Fault Refusal :=
  .next (issue 0x10 (alu (fun a b => a + b)) t s)

/-- SUB. -/
def execTSub (t : Nat) (s : State) : Host.Outcome State Fault Refusal :=
  .next (issue 0x11 (alu (fun a b => a - b)) t s)

/-- MUL. -/
def execTMul (t : Nat) (s : State) : Host.Outcome State Fault Refusal :=
  .next (issue 0x12 (alu (fun a b => a * b)) t s)

/-- MULHU. -/
def execTMulhu (t : Nat) (s : State) : Host.Outcome State Fault Refusal :=
  .next (issue 0x13 (alu (fun a b => mulHigh a b)) t s)

/-- MULH. -/
def execTMulh (t : Nat) (s : State) : Host.Outcome State Fault Refusal :=
  .next (issue 0x14 (alu (fun a b => mulHighS a b)) t s)

/-- DIV. -/
def execTDiv (t : Nat) (s : State) : Host.Outcome State Fault Refusal :=
  .next (issue 0x15 (alu (fun a b => divS a b)) t s)

/-- DIVU. -/
def execTDivu (t : Nat) (s : State) : Host.Outcome State Fault Refusal :=
  .next (issue 0x16 (alu (fun a b => divU a b)) t s)

/-- REM. -/
def execTRem (t : Nat) (s : State) : Host.Outcome State Fault Refusal :=
  .next (issue 0x17 (alu (fun a b => remS a b)) t s)

/-- REMU. -/
def execTRemu (t : Nat) (s : State) : Host.Outcome State Fault Refusal :=
  .next (issue 0x18 (alu (fun a b => remU a b)) t s)

/-- AND. -/
def execTAnd (t : Nat) (s : State) : Host.Outcome State Fault Refusal :=
  .next (issue 0x19 (alu (fun a b => a &&& b)) t s)

/-- OR. -/
def execTOr (t : Nat) (s : State) : Host.Outcome State Fault Refusal :=
  .next (issue 0x1A (alu (fun a b => a ||| b)) t s)

/-- XOR. -/
def execTXor (t : Nat) (s : State) : Host.Outcome State Fault Refusal :=
  .next (issue 0x1B (alu (fun a b => a ^^^ b)) t s)

/-- SLL. -/
def execTSll (t : Nat) (s : State) : Host.Outcome State Fault Refusal :=
  .next (issue 0x1C (alu (fun a b => sll a b)) t s)

/-- SRL. -/
def execTSrl (t : Nat) (s : State) : Host.Outcome State Fault Refusal :=
  .next (issue 0x1D (alu (fun a b => srl a b)) t s)

/-- SRA. -/
def execTSra (t : Nat) (s : State) : Host.Outcome State Fault Refusal :=
  .next (issue 0x1E (alu (fun a b => sra a b)) t s)

/-- SLT. -/
def execTSlt (t : Nat) (s : State) : Host.Outcome State Fault Refusal :=
  .next (issue 0x1F (alu (fun a b => flag64 (decide (a.toInt < b.toInt)))) t s)

/-- SLTU. -/
def execTSltu (t : Nat) (s : State) : Host.Outcome State Fault Refusal :=
  .next (issue 0x20 (alu (fun a b => flag64 (decide (a.toNat < b.toNat)))) t s)

/-- MIN. -/
def execTMin (t : Nat) (s : State) : Host.Outcome State Fault Refusal :=
  .next (issue 0x21 (alu (fun a b => minS a b)) t s)

/-- MAX. -/
def execTMax (t : Nat) (s : State) : Host.Outcome State Fault Refusal :=
  .next (issue 0x22 (alu (fun a b => maxS a b)) t s)

/-- MINU. -/
def execTMinu (t : Nat) (s : State) : Host.Outcome State Fault Refusal :=
  .next (issue 0x23 (alu (fun a b => minU a b)) t s)

/-- MAXU. -/
def execTMaxu (t : Nat) (s : State) : Host.Outcome State Fault Refusal :=
  .next (issue 0x24 (alu (fun a b => maxU a b)) t s)

/-- LI. -/
def execTLi (t : Nat) (s : State) : Host.Outcome State Fault Refusal :=
  .next (issue 0x26 (regBody (fun x u => setG x.d (immS x) u)) t s)

/-- LIH. -/
def execTLih (t : Nat) (s : State) : Host.Outcome State Fault Refusal :=
  .next (issue 0x27 (regBody (fun x u => setG x.d (BitVec.ofNat 64 (x.imm * 2 ^ 32 + (gReg u x.d).toNat % 2 ^ 32)) u)) t s)

/-- ADDI. -/
def execTAddi (t : Nat) (s : State) : Host.Outcome State Fault Refusal :=
  .next (issue 0x28 (aluImm (fun a b => a + b)) t s)

/-- SLTI. -/
def execTSlti (t : Nat) (s : State) : Host.Outcome State Fault Refusal :=
  .next (issue 0x2F (aluImm (fun a b => flag64 (decide (a.toInt < b.toInt)))) t s)

/-- ANDI. -/
def execTAndi (t : Nat) (s : State) : Host.Outcome State Fault Refusal :=
  .next (issue 0x29 (aluImm (fun a b => a &&& b)) t s)

/-- ORI. -/
def execTOri (t : Nat) (s : State) : Host.Outcome State Fault Refusal :=
  .next (issue 0x2A (aluImm (fun a b => a ||| b)) t s)

/-- XORI. -/
def execTXori (t : Nat) (s : State) : Host.Outcome State Fault Refusal :=
  .next (issue 0x2B (aluImm (fun a b => a ^^^ b)) t s)

/-- SLLI. -/
def execTSlli (t : Nat) (s : State) : Host.Outcome State Fault Refusal :=
  .next (issue 0x2C (aluImm sll) t s)

/-- SRLI. -/
def execTSrli (t : Nat) (s : State) : Host.Outcome State Fault Refusal :=
  .next (issue 0x2D (aluImm srl) t s)

/-- SRAI. -/
def execTSrai (t : Nat) (s : State) : Host.Outcome State Fault Refusal :=
  .next (issue 0x2E (aluImm sra) t s)

/-- LB. -/
def execTLb (t : Nat) (s : State) : Host.Outcome State Fault Refusal :=
  .next (issue 0x30 (load 1 true) t s)

/-- LBU. -/
def execTLbu (t : Nat) (s : State) : Host.Outcome State Fault Refusal :=
  .next (issue 0x31 (load 1 false) t s)

/-- LH. -/
def execTLh (t : Nat) (s : State) : Host.Outcome State Fault Refusal :=
  .next (issue 0x32 (load 2 true) t s)

/-- LHU. -/
def execTLhu (t : Nat) (s : State) : Host.Outcome State Fault Refusal :=
  .next (issue 0x33 (load 2 false) t s)

/-- LW. -/
def execTLw (t : Nat) (s : State) : Host.Outcome State Fault Refusal :=
  .next (issue 0x34 (load 4 true) t s)

/-- LWU. -/
def execTLwu (t : Nat) (s : State) : Host.Outcome State Fault Refusal :=
  .next (issue 0x35 (load 4 false) t s)

/-- LD. -/
def execTLd (t : Nat) (s : State) : Host.Outcome State Fault Refusal :=
  .next (issue 0x36 (load 8 false) t s)

/-- SB. -/
def execTSb (t : Nat) (s : State) : Host.Outcome State Fault Refusal :=
  .next (issue 0x38 (store 1) t s)

/-- SH. -/
def execTSh (t : Nat) (s : State) : Host.Outcome State Fault Refusal :=
  .next (issue 0x39 (store 2) t s)

/-- SW. -/
def execTSw (t : Nat) (s : State) : Host.Outcome State Fault Refusal :=
  .next (issue 0x3A (store 4) t s)

/-- SD. -/
def execTSd (t : Nat) (s : State) : Host.Outcome State Fault Refusal :=
  .next (issue 0x3B (store 8) t s)

end Sys2Proof.Machine
end

