-- ==== Sys2Proof/Machine/Sail.lean ====
section
/-! DEFINITION. The Sail: its queue, its drain path, operand blocks and evaluation (Tables 8.3, 9.11, R204 - R211,
R298 - R300). -/

namespace Sys2Proof.Machine

/-! ### Operand blocks (Table 8.3) -/

/-- Element k of row (or column) i of a block, `data` bytes of elements before the codes. -/
def blockElem (fmt : Nat) (bs : List Byte) (i k : Nat) : Nat :=
  if fmt = 1 then fieldN bs (32 * i + k) 1
  else if fmt = 3 then bitsN (fieldN bs (32 * i + k / 2) 1) (4 * (k % 2)) 4
  else fieldN bs (64 * i + 2 * k) 2

/-- The scale code of K-block h of row (or column) i; `data` is where the codes begin. -/
def blockCode (fmt data : Nat) (bs : List Byte) (i h : Nat) : Nat :=
  if fmt = 1 then fieldN bs (data + i) 1 else fieldN bs (data + 2 * i + h) 1

/-- The exact sum of the products of K-block h, in units of 2^-18 (VF) or 2^-298 (BF16), and whether an element is NaN. -/
def blockSum (fmt : Nat) (a b : List Byte) (i j h : Nat) : Nat → Int × Bool
  | 0 => (0, false)
  | k + 1 =>
    let (p, nan) := blockSum fmt a b i j h k
    let x := blockElem fmt a i (32 * h + k)
    let y := blockElem fmt b j (32 * h + k)
    if fmt = 2 then (p + units (bf32 x) * units (bf32 y), nan || isSpecial (bf32 x) || isSpecial (bf32 y))
    else
      let f : Vf := if fmt = 1 then .vf8 else .vf4
      (p + f.val x * f.val y, nan || (fmt = 1 && (x = 0x80 || y = 0x80)))

/-- One K-block into one element. -/
def kblock (fmt : Nat) (a b : List Byte) (i j h : Nat) (sa sb : W32) (acc : W32) : W32 × Bool :=
  let (p, nan) := blockSum fmt a b i j h 32
  if fmt = 2 then sailKblockBf acc nan p
  else sailKblock acc nan p (blockCode fmt 2048 a i h) (blockCode fmt 4096 b j h) sa sb

/-- One element of an SMMA: the VF4 form applies two K-blocks in ascending K. -/
def smmaElem (fmt : Nat) (a b : List Byte) (u : Tile) (acc i j : Nat) : W32 × Bool :=
  let sa := Tab.get u.sa i
  let sb := Tab.get u.sb j
  let (r, s1) := kblock fmt a b i j 0 sa sb (Tab.get u.acc (8192 * acc + 128 * i + j))
  if fmt = 3 then
    let (r2, s2) := kblock fmt a b i j 1 sa sb r
    (r2, s1 || s2)
  else (r, s1)

/-- An SMMA's effect on the tile (R205, R207). -/
def smmaApply (acc fmt : Nat) (a b : List Byte) (u : Tile) : Tile :=
  let e := fun n => smmaElem fmt a b u acc (n / 128) (n % 128)
  { u with acc := Tab.putRange u.acc (8192 * acc) 8192 (fun n => (e (n - 8192 * acc)).1)
           satf := u.satf || (List.range 8192).any (fun n => (e n).2) }

/-- An SSCL's effect: SA, then SB. -/
def ssclApply (bs : List Byte) (u : Tile) : Tile :=
  { u with sa := Tab.putRange u.sa 0 64 (byteWord bs), sb := Tab.putRange u.sb 0 128 (fun j => byteWord bs (64 + j)) }
where
  byteWord (bs : List Byte) (i : Nat) : W32 := BitVec.ofNat 32 (fieldN bs (4 * i) 4)

/-- SZERO. -/
def szeroApply (acc : Nat) (u : Tile) : Tile :=
  { u with acc := Tab.dropIf u.acc (fun k _ => decide (8192 * acc ≤ k) && decide (k < 8192 * acc + 8192)) }

/-- The bytes an SDRAIN writes, row by row. -/
def drainData (acc : Nat) (bf : Bool) (u : Tile) : Nat → Nat → List Byte
  | _, 0 => []
  | e, n + 1 =>
    let v := Tab.get u.acc (8192 * acc + e)
    (if bf then leBytes 2 (cvtFB v) else leBytes 4 v.toNat) ++ drainData acc bf u (e + 1) n

/-! ### Issue -/

/-- What an instruction meets at a Sheet it names: use it, wait (held), or fault 0x02 (R242, R250). -/
inductive SheetUse where
  | ok | held | bad
  deriving DecidableEq, Repr, Inhabited

/-- A use of Sheet n that Table 10.4 permits for the DIRs of `dirs`. -/
def sheetUse (t n : Nat) (dirs : List Nat) (s : State) : SheetUse :=
  let h := sheetOf t n s
  match h.st with
  | .unconfigured => .bad
  | .held => .held
  | .opened => if dirs.contains h.dir then .ok else .bad

/-- DIRs from which a tile consumes, and into which it produces (Table 10.4). -/
def popDirs : List Nat := [0, 2]
def pushDirs : List Nat := [1, 2]

/-- How an operand's Sheet may be used; a tile-memory operand names none. -/
def srcUse (t : Nat) (dirs : List Nat) (x : SailSrc) (s : State) : SheetUse :=
  match x with
  | .mem _ => .ok
  | .sheet n => sheetUse t n dirs s

/-- A tile-memory operand of n bytes leaves tile memory (0x01), or is misaligned (0x09). -/
def srcOut (n : Nat) : SailSrc → Bool
  | .mem o => !inTmem o n
  | .sheet _ => false

def srcMisaligned : SailSrc → Bool
  | .mem o => o % 64 ≠ 0
  | .sheet _ => false

/-- Put an instruction into the Sail queue of 4. -/
def sailIssue (k : SailKind) (t : Nat) (s : State) : Try :=
  let u := tileOf t s
  if 4 ≤ u.queue.length then .stall s
  else .adv (modTile t (fun u => { u with queue := u.queue ++ [{ kind := k, pc := u.pc }] }) s)

/-- An operand by its source bit. -/
def sailSrc (u : Tile) (sheet : Bool) (n reg : Nat) : SailSrc := if sheet then .sheet n else .mem (gReg u reg).toNat

/-- SMMA. -/
def smmaBody (t : Nat) (x : Fields) (s : State) : Try :=
  let u := tileOf t s
  let fmt := bitsN x.imm 0 2
  let a := sailSrc u (bitN x.imm 2) (bitsN x.imm 4 5) x.a
  let b := sailSrc u (bitN x.imm 3) (bitsN x.imm 9 5) x.b
  let ua := srcUse t popDirs a s
  let ub := srcUse t popDirs b s
  if ua = .bad || ub = .bad then .fault 0x02 s
  else if srcOut (64 * smmaWords fmt false) a || srcOut (64 * smmaWords fmt true) b then .fault 0x01 s
  else if srcMisaligned a || srcMisaligned b then .fault 0x09 s
  else if ua = .held || ub = .held then .stall s
  else sailIssue (.smma x.d fmt a b) t s

/-- SSCL. -/
def ssclBody (t : Nat) (x : Fields) (s : State) : Try :=
  let a := sailSrc (tileOf t s) (bitN x.imm 2) (bitsN x.imm 4 5) x.a
  let ua := srcUse t popDirs a s
  if ua = .bad then .fault 0x02 s
  else if srcOut 768 a then .fault 0x01 s
  else if srcMisaligned a then .fault 0x09 s
  else if ua = .held then .stall s
  else sailIssue (.sscl a) t s

/-- SZERO. -/
def szeroBody (t : Nat) (x : Fields) (s : State) : Try := sailIssue (.szero x.d) t s

/-- SDRAIN. -/
def sdrainBody (t : Nat) (x : Fields) (s : State) : Try :=
  let bf := bitN x.imm 0
  let a := sailSrc (tileOf t s) (bitN x.imm 2) (bitsN x.imm 4 5) x.a
  let ua := srcUse t pushDirs a s
  if ua = .bad then .fault 0x02 s
  else if srcOut (drainBytes bf) a then .fault 0x01 s
  else if srcMisaligned a then .fault 0x09 s
  else if ua = .held then .stall s
  else sailIssue (.sdrain x.d bf (bitN x.imm 1) a) t s

/-! ### Execution -/

/-- The accumulator an instruction names. -/
def SailKind.names : SailKind → Option Nat
  | .smma a _ _ _ => some a
  | .sscl _ => none
  | .szero a => some a
  | .sdrain a _ _ _ => some a

/-- An operand of the instruction lies in what the drain path still has to write (R197). Where operand and target are one Sheet, its
words order them. -/
def drainOverlaps (t : Nat) (q : SailOp) (s : State) : Bool :=
  let at_ (pos : Sheet → Nat) (x : SailSrc × Nat × Nat) : List (Nat × Nat) :=
    accessRanges (fun n => sheetOf t n s) (fun n => pos (sheetOf t n s)) [x]
  (drainTarget (tileOf t s)).any (fun w => q.operands.any (fun x =>
    (match x.1 with | .sheet _ => decide (x.1 ≠ w.1) | .mem _ => true) &&
      (at_ Sheet.write w).any (fun r => (at_ Sheet.read x).any (overlap r.1 r.2))))

/-- The instruction waits for the drain path (R204), or for what it still has to write (R197). -/
def drainBlocks (t : Nat) (q : SailOp) (s : State) : Bool :=
  match (tileOf t s).drain with
  | none => false
  | some d => (match q.kind with | .sdrain _ _ _ _ => true | _ => false) || q.kind.names = some d.acc || drainOverlaps t q s

/-- Pop the words of a Sheet operand that are present, up to `need` in all (R251): the words had, and whether one could not be
corrected. -/
def gather (t : Nat) (src : SailSrc) (need : Nat) (got : List Byte) (s : State) : List Byte × Bool × State :=
  match src with
  | .mem _ => (got, false, s)
  | .sheet n =>
    let h := sheetOf t n s
    let k := min h.present (need - got.length / 64)
    if !(h.st = .opened) || k = 0 then (got, false, s)
    else match sheetRead t h k h.read s with
      | (some ws, s1) => (got ++ ws, false, modSheet t n (fun h => { h with read := h.read + k }) s1)
      | (none, s1) => (got, true, s1)

/-- The operand's words: those of a Sheet when all are had, or those of tile memory now; true when uncorrectable. -/
def operand (t : Nat) (src : SailSrc) (need : Nat) (got : List Byte) (s : State) : Option (List Byte) × Bool × State :=
  match src with
  | .sheet _ => (if got.length = 64 * need then some got else none, false, s)
  | .mem o =>
    match tileRead t o (64 * need) s with
    | (some bs, s1) => (some bs, false, s1)
    | (none, s1) => (none, true, s1)

/-- Replace the head of the queue. -/
def setHead (t : Nat) (q : SailOp) (s : State) : State :=
  modTile t (fun u => { u with queue := q :: u.queue.drop 1 }) s

/-- Words of a Sheet operand are as if they had not been popped. -/
def unpop (t : Nat) (src : SailSrc) (got : List Byte) (s : State) : State :=
  match src with
  | .sheet n => modSheet t n (fun h => { h with read := h.read - got.length / 64 }) s
  | .mem _ => s

/-- The instruction at the head meets a word that cannot be corrected: it ends, and the tile faults as at that instruction, with nothing
of it done (R228). -/
def sailBad (t : Nat) (q : SailOp) (s : State) : State :=
  tileFault t 0x0B q.pc (modTile t (fun u => { u with queue := u.queue.drop 1 }) s)

/-- One operand of a Sail instruction that reads A only (SSCL), or A and B (SMMA): it takes what words are there, and when it has
all it executes. -/
def sailRun (t : Nat) (q : SailOp) (a : SailSrc) (na : Nat) (b : Option (SailSrc × Nat))
    (apply_ : List Byte → List Byte → Tile → Tile) (s : State) : State :=
  let (ga, bad, s1) := gather t a na q.gotA s
  let hold : Bool := match b with | some (.sheet n, _) => decide (a = .sheet n) && decide (ga.length < 64 * na) | _ => false
  let (gb, bad2, s2) := match b with
    | some (src, nb) => if hold then (q.gotB, false, s1) else gather t src nb q.gotB s1
    | none => (q.gotB, false, s1)
  let s3 := setHead t { q with gotA := ga, gotB := gb, begun := true } s2
  let undo (s : State) : State :=
    sailBad t q (match b with | some (src, _) => unpop t src gb (unpop t a ga s) | none => unpop t a ga s)
  if bad || bad2 then undo s3
  else
    match operand t a na ga s3 with
    | (none, true, s4) => undo s4
    | (none, false, _) => s3
    | (some wa, _, s4) =>
      match b with
      | none => setHead t { q with begun := true, executed := true } (modTile t (apply_ wa []) s4)
      | some (src, nb) =>
        match operand t src nb gb s4 with
        | (none, true, s5) => undo s5
        | (none, false, _) => s3
        | (some wb, _, s5) => setHead t { q with begun := true, executed := true } (modTile t (apply_ wa wb) s5)

/-- The Sail of a tile may start instructions: the tile runs, or an instruction had begun when it faulted (R229). -/
def sailRuns (u : Tile) (q : SailOp) : Bool := u.st = .running || q.begun

/-- SAIL_EXECUTE: the instruction at the head of the queue starts once its operands and the drain path allow (R204 - R206). -/
def sailExecute (t : Nat) (s : State) : State :=
  let u := tileOf t s
  match u.queue with
  | [] => s
  | q :: _ =>
    if q.executed || drainBlocks t q s || !sailRuns u q || domainLost (tileDie t) s || s.dev.mode = .safe then s
    else match q.kind with
      | .smma acc fmt a b => sailRun t q a (smmaWords fmt false) (some (b, smmaWords fmt true)) (smmaApply acc fmt) s
      | .sscl a => sailRun t q a 12 none (fun bs _ => ssclApply bs) s
      | .szero acc => setHead t { q with begun := true, executed := true } (modTile t (szeroApply acc) s)
      | .sdrain acc bf zero tgt =>
        modTile t (fun u => { u with queue := u.queue.drop 1, drain := some { acc := acc, bf := bf, zero := zero, tgt := tgt } }) s

/-- SAIL_INSTRUCTION_DONE: the executed instruction at the head frees its slot. -/
def sailDone (t : Nat) (s : State) : State :=
  match (tileOf t s).queue with
  | q :: _ => if q.executed then modTile t (fun u => { u with queue := u.queue.drop 1 }) s else s
  | [] => s

/-- The drain ends: the accumulator is cleared where ZERO says so, and the path is free. -/
def drainEnd (t : Nat) (d : Drain) (s : State) : State :=
  modTile t (fun u => { (if d.zero then szeroApply d.acc u else u) with drain := none }) s

/-- SAIL_DRAIN_DONE: a drain to tile memory finishes; a drain into a Sheet pushes one word for each free credit and finishes
with the last (R204, R251). -/
def drainStep (t : Nat) (s : State) : State :=
  let u := tileOf t s
  match u.drain with
  | none => s
  | some d =>
    let bs := drainData d.acc d.bf u 0 8192
    match d.tgt with
    | .mem o => drainEnd t d (memWrite (tileBase t + o) bs s)
    | .sheet n =>
      let h := sheetOf t n s
      if !(h.st = .opened) then s
      else
        let total := drainBytes d.bf / 64
        let k := min h.credits (total - d.pushed)
        let s1 := sheetPush t n (words64 k (bs.drop (64 * d.pushed))) s
        if d.pushed + k = total then drainEnd t d s1
        else modTile t (fun u => { u with drain := some { d with pushed := d.pushed + k } }) s1

/-- A halt finishes the Sail queue; what waits on a held Sheet ends without effect (Tables 8.9 and 10.5). -/
def sailFinish (t : Nat) : Nat → State → State
  | 0, s => modTile t (fun u => { u with queue := [], drain := none }) s
  | n + 1, s =>
    let s1 := drainStep t s
    let s2 := modTile t (fun u => { u with drain := none }) s1
    match (tileOf t s2).queue with
    | [] => s2
    | _ :: _ =>
      let s3 := sailExecute t s2
      let k := if (tileOf t s3).queue.length < (tileOf t s2).queue.length then 0 else 1
      sailFinish t n (modTile t (fun u => { u with queue := u.queue.drop k }) s3)

/-! ### Rows -/

/-- SMMA. -/
def execTSmma (t : Nat) (s : State) : Host.Outcome State Fault Refusal := .next (issue 0x90 smmaBody t s)

/-- SSCL. -/
def execTSscl (t : Nat) (s : State) : Host.Outcome State Fault Refusal := .next (issue 0x91 ssclBody t s)

/-- SZERO. -/
def execTSzero (t : Nat) (s : State) : Host.Outcome State Fault Refusal := .next (issue 0x92 szeroBody t s)

/-- SDRAIN. -/
def execTSdrain (t : Nat) (s : State) : Host.Outcome State Fault Refusal := .next (issue 0x93 sdrainBody t s)

/-- SAIL_EXECUTE, with upsets that have come to words of memory since they were last read (R201). -/
def execSailExecute (r : SailRun) (s : State) : Host.Outcome State Fault Refusal := .next (sailExecute r.tile (strike r.ups s))

/-- SAIL_DRAIN_DONE. -/
def execSailDrainDone (t : Nat) (s : State) : Host.Outcome State Fault Refusal := .next (drainStep t s)

/-- SAIL_INSTRUCTION_DONE. -/
def execSailInstructionDone (t : Nat) (s : State) : Host.Outcome State Fault Refusal := .next (sailDone t s)

end Sys2Proof.Machine
end

