-- ==== Sys2Proof/Machine/TileSheet.lean ====
section
/-! DEFINITION. Sheet, Cleat and CSR instructions of a tile (Tables 9.10 and 9.13, D3, D11), and the releases of registered
waits (R264, R265). -/

namespace Sys2Proof.Machine

/-- R210: an earlier Sail instruction of the tile names the Sheet and has not finished with it. -/
def sailNames (u : Tile) (n : Nat) : Bool :=
  u.queue.any (fun q => match q.kind with
    | .smma _ _ a b => a = .sheet n || b = .sheet n
    | .sscl a => a = .sheet n
    | .szero _ => false
    | .sdrain _ _ _ a => a = .sheet n) ||
  (match u.drain with | some d => d.tgt = .sheet n | none => false)

/-- A Sheet instruction: the Sheet's use is checked (0x02), earlier Sail instructions that name it are awaited, then its effect. -/
def sheetBody (dirs : List Nat) (k : Nat → Fields → State → Try) (t : Nat) (x : Fields) (s : State) : Try :=
  match sheetUse t x.c dirs s with
  | .bad => .fault 0x02 s
  | .held => .stall s
  | .ok => if sailNames (tileOf t s) x.c then .stall s else k t x s

/-- SHPOP and SHPOPNW. -/
def popBody (wait : Bool) : Nat → Fields → State → Try :=
  sheetBody popDirs (fun t x s =>
    let h := sheetOf t x.c s
    if h.present < x.imm then (if wait then .stall s else .fault 0x03 s)
    else match sheetRead t h x.imm h.read s with
      | (some _, s1) =>
        .adv (modTile t (setG x.d (BitVec.ofNat 64 (h.slot h.read))) (modSheet t x.c (fun h => { h with read := h.read + x.imm }) s1))
      | (none, s1) => .fault 0x0B s1)

/-- SHPUSH and SHPUSHNW: the source range is checked before anything waits (0x01). The push waits for an SDRAIN that writes its source
(R209), and, as a store does, for what the Sail still has to read or write in its slots (R197). -/
def pushBody (wait : Bool) (t : Nat) (x : Fields) (s : State) : Try :=
  let o := (gReg (tileOf t s) x.a).toNat
  let n := x.imm
  if sheetUse t x.c pushDirs s = .bad then .fault 0x02 s
  else if !inTmem o (64 * n) || o % 64 ≠ 0 then .fault 0x01 s
  else sheetBody pushDirs (fun t x s =>
    let h := sheetOf t x.c s
    if sailWillWrite t o (64 * n) s || (h.ranges h.write n).any (fun r => storeWaits t r.1 r.2 s) then .stall s
    else if h.credits < n then (if wait then .stall s else .fault 0x06 s)
    else match tileRead t o (64 * n) s with
      | (some bs, s1) => .adv (sheetPush t x.c (words64 n bs) s1)
      | (none, s1) => .fault 0x0B s1) t x s

/-- SHMARK. -/
def markBody : Nat → Fields → State → Try :=
  sheetBody popDirs (fun t x s => .adv (modSheet t x.c (fun h => { h with mark := h.read }) s))

/-- SHRWD. -/
def rewindBody : Nat → Fields → State → Try :=
  sheetBody popDirs (fun t x s =>
    let h := sheetOf t x.c s
    if h.mark < h.release then .fault 0x05 s else .adv (modSheet t x.c (fun h => { h with read := h.mark }) s))

/-- SHREL. -/
def releaseBody : Nat → Fields → State → Try :=
  sheetBody popDirs (fun t x s =>
    let h := sheetOf t x.c s
    if h.read < h.release + x.imm then .fault 0x04 s
    else .adv (modSheet t x.c (fun h => { h with release := h.release + x.imm }) s))

/-- SHRELR. -/
def releaseAllBody : Nat → Fields → State → Try :=
  sheetBody popDirs (fun t x s => .adv (modSheet t x.c (fun h => { h with release := h.read }) s))

/-- SHLVL, SHCRD: a number of the Sheet into gD. -/
def levelBody (f : Sheet → Nat) : Nat → Fields → State → Try :=
  sheetBody [0, 1, 2] (fun t x s => .adv (modTile t (setG x.d (BitVec.ofNat 64 (f (sheetOf t x.c s)))) s))

/-- SHFILL (R254). -/
def fillBody : Nat → Fields → State → Try :=
  sheetBody [0, 1, 2] (fun t x s => .adv (modSheet t x.c (fun h => { h with fill := (gReg (tileOf t s) x.a).toNat % 2048 }) s))

/-- SHCE (R256). -/
def ceBody : Nat → Fields → State → Try :=
  sheetBody [0, 1, 2] (fun t x s =>
    let s1 := modTile t (setG x.d (BitVec.ofNat 64 (sheetOf t x.c s).ce)) s
    .adv (if x.imm = 1 then modSheet t x.c (fun h => { h with ce := 0 }) s1 else s1))

/-! ### Cleats -/

/-- The Cleat IMM names, for a tile: global or not, and its index. -/
def cleatNamed (t : Nat) (x : Fields) : Bool × Nat :=
  if bitN x.imm 12 then (true, x.imm % 4096) else (false, 32 * t + x.imm % 4096)

/-- Access the dispatch gives the tile: none, wait-only (false) or full (true). -/
def cleatAccess (t : Nat) (x : Fields) (s : State) : Option Bool :=
  let (g, i) := cleatNamed t x
  if g then Tab.get (tileOf t s).gcl i else if (cleatOf false i s).active then some (cleatOf false i s).full else none

/-- The low word of gB. -/
def gbWord (t : Nat) (x : Fields) (s : State) : Nat := (gReg (tileOf t s) x.b).toNat % 2 ^ 32

/-- CLSIG: a tile-local counter is added to at once; a global one by an entry on its way (R230). -/
def clsigBody (t : Nat) (x : Fields) (s : State) : Try :=
  let (g, i) := cleatNamed t x
  let v := gbWord t x s
  if !(cleatAccess t x s = some true) then .fault 0x02 s
  else if g then .adv (sendSig { glob := true, idx := i, v := v, src := some (t, (tileOf t s).pc, (tileOf t s).disp) } s)
  else
    let c := cleatOf false i s
    if c.ovf then .adv s
    else if 2 ^ 32 ≤ c.count + v then .fault 0x07 s
    else .adv (modCleat false i (fun c => releaseWaits { c with count := c.count + v }) s)

/-- The tile's own registration with a Cleat has been released. -/
def waitReleased (who : Waiter) (c : Cleat) : Bool := c.waits.any (fun w => w.who = who && w.released)

/-- CLWAIT: it issues when the counter is at or above the threshold or its registration was released (R259), else registers. -/
def clwaitBody (t : Nat) (x : Fields) (s : State) : Try :=
  let (g, i) := cleatNamed t x
  let c := cleatOf g i s
  let thr := gbWord t x s
  if (cleatAccess t x s).isNone then .fault 0x02 s
  else if c.active && (thr ≤ c.count || waitReleased (.tile t) c) then .adv (dropWaits (.tile t) s)
  else .stall (registerWait g i (.tile t) thr s)

/-- CLRD. -/
def clrdBody (t : Nat) (x : Fields) (s : State) : Try :=
  let (g, i) := cleatNamed t x
  if (cleatAccess t x s).isNone then .fault 0x02 s
  else .adv (modTile t (setG x.d (BitVec.ofNat 64 (cleatOf g i s).count)) s)

/-- CLSET. -/
def clsetBody (t : Nat) (x : Fields) (s : State) : Try :=
  let (g, i) := cleatNamed t x
  let v := gbWord t x s
  if !(cleatAccess t x s = some true) then .fault 0x02 s
  else if g then .adv (sendSig { glob := true, idx := i, set := true, v := v } s)
  else .adv (cleatSet false i v s)

/-! ### CSRs (Table 9.13) -/

/-- A CSR that earlier Sail instructions may still change is read or written once they are done (R197). -/
def csrWaits (n : Nat) (u : Tile) : Bool := (n = 3 || n = 4) && (!u.queue.isEmpty || u.drain.isSome)

/-- CSRR. CYCLE reads a free value (log entry 10). -/
def csrrBody (t : Nat) (x : Fields) (s : State) : Try :=
  let u := tileOf t s
  let n := x.imm
  let put := fun (v : Nat) => Try.adv (modTile t (setG x.d (BitVec.ofNat 64 v)) s)
  if csrWaits n u then .stall s
  else if n = 0 then put (t + tileDie t * 2 ^ 7 + (t % 64 / 8) * 2 ^ 8 + (t % 8) * 2 ^ 11)
  else if n = 1 then put (devNum s)
  else if n = 2 then
    let (v, s1) := drawFree s
    .adv (modTile t (setG x.d v) s1)
  else if n = 3 then put (b2n u.satf)
  else if n = 4 then put u.tmemCe
  else if n = 5 then put u.wdog
  else put (Tab.get u.args (n - 0x10)).toNat

/-- CSRW: SATF clears on a write of 0 and ignores other values of bit 0; any write clears TMEM_CE. -/
def csrwBody (t : Nat) (x : Fields) (s : State) : Try :=
  let u := tileOf t s
  if csrWaits x.imm u then .stall s
  else if x.imm = 3 then .adv (modTile t (fun u => { u with satf := u.satf && (gReg u x.a).getLsbD 0 }) s)
  else .adv (modTile t (fun u => { u with tmemCe := 0 }) s)

/-- A tile's registered wait that was released issues its CLWAIT. -/
def tileWaitRelease (t : Nat) (s : State) : State :=
  let x := fieldsOf (wordAt t s)
  let (g, i) := cleatNamed t x
  if x.op = 0xB5 && waitReleased (.tile t) (cleatOf g i s) then issue 0xB5 clwaitBody t s else s

/-- TILE_PROGRAM_END: a tile at END whose Sail is empty returns to LOADED (R211, Table 8.9). -/
def programEnd (t : Nat) (s : State) : State :=
  let u := tileOf t s
  if u.st = .running && u.atEnd && u.queue.isEmpty && u.drain.isNone then
    modTile t (fun u => { u with st := .loaded, atEnd := false, stalled := false }) s
  else s

/-! ### Rows -/

/-- SHPOP. -/
def execTShpop (t : Nat) (s : State) : Host.Outcome State Fault Refusal :=
  .next (issue 0xA4 (popBody true) t s)

/-- SHPOPNW. -/
def execTShpopnw (t : Nat) (s : State) : Host.Outcome State Fault Refusal :=
  .next (issue 0xA5 (popBody false) t s)

/-- SHPUSH. -/
def execTShpush (t : Nat) (s : State) : Host.Outcome State Fault Refusal :=
  .next (issue 0xA6 (pushBody true) t s)

/-- SHPUSHNW. -/
def execTShpushnw (t : Nat) (s : State) : Host.Outcome State Fault Refusal :=
  .next (issue 0xA7 (pushBody false) t s)

/-- SHMARK. -/
def execTShmark (t : Nat) (s : State) : Host.Outcome State Fault Refusal :=
  .next (issue 0xA8 markBody t s)

/-- SHRWD. -/
def execTShrwd (t : Nat) (s : State) : Host.Outcome State Fault Refusal :=
  .next (issue 0xA9 rewindBody t s)

/-- SHREL. -/
def execTShrel (t : Nat) (s : State) : Host.Outcome State Fault Refusal :=
  .next (issue 0xAA releaseBody t s)

/-- SHRELR. -/
def execTShrelr (t : Nat) (s : State) : Host.Outcome State Fault Refusal :=
  .next (issue 0xAB releaseAllBody t s)

/-- SHLVL. -/
def execTShlvl (t : Nat) (s : State) : Host.Outcome State Fault Refusal :=
  .next (issue 0xAC (levelBody Sheet.present) t s)

/-- SHCRD. -/
def execTShcrd (t : Nat) (s : State) : Host.Outcome State Fault Refusal :=
  .next (issue 0xAD (levelBody Sheet.credits) t s)

/-- SHFILL. -/
def execTShfill (t : Nat) (s : State) : Host.Outcome State Fault Refusal :=
  .next (issue 0xAE fillBody t s)

/-- SHCE. -/
def execTShce (t : Nat) (s : State) : Host.Outcome State Fault Refusal :=
  .next (issue 0xAF ceBody t s)

/-- CLSIG. -/
def execTClsig (t : Nat) (s : State) : Host.Outcome State Fault Refusal :=
  .next (issue 0xB4 clsigBody t s)

/-- CLWAIT. -/
def execTClwait (t : Nat) (s : State) : Host.Outcome State Fault Refusal :=
  .next (issue 0xB5 clwaitBody t s)

/-- CLRD. -/
def execTClrd (t : Nat) (s : State) : Host.Outcome State Fault Refusal :=
  .next (issue 0xB6 clrdBody t s)

/-- CLSET. -/
def execTClset (t : Nat) (s : State) : Host.Outcome State Fault Refusal :=
  .next (issue 0xB7 clsetBody t s)

/-- CSRR. -/
def execTCsrr (t : Nat) (s : State) : Host.Outcome State Fault Refusal :=
  .next (issue 0xC0 csrrBody t s)

/-- CSRW. -/
def execTCsrw (t : Nat) (s : State) : Host.Outcome State Fault Refusal :=
  .next (issue 0xC1 csrwBody t s)

/-- TILE_PROGRAM_END. -/
def execTileProgramEnd (t : Nat) (s : State) : Host.Outcome State Fault Refusal := .next (programEnd t s)

/-- STALL_WATCHDOG. -/
def execStallWatchdog (t : Nat) (s : State) : Host.Outcome State Fault Refusal := .next (watchdog t s)

/-- TILE_RESERVED_OPCODE. -/
def execTileReservedOpcode (t : Nat) (s : State) : Host.Outcome State Fault Refusal := .next (reservedHere t s)

/-- CLEAT_SIGNAL. -/
def execCleatSignal (n : Nat) (s : State) : Host.Outcome State Fault Refusal := .next (sigsArrive n s)

end Sys2Proof.Machine
end

