-- ==== Sys2Proof/Machine/Halyard.lean ====
section
/-! DEFINITION. Halyards: descriptors, their checks, issue, data movement, completion and faults (Tables 8.5 - 8.8,
R214 - R222, R704). -/

namespace Sys2Proof.Machine

/-- A descriptor's fields (Table 8.5). -/
structure Desc where
  op : Nat
  opHi : Nat
  flags : Nat
  tile : Nat
  tileHi : Bool
  sheet : Nat
  sheetHi : Nat
  cleat : Nat
  glob : Bool
  cleatMid : Nat
  toff : Nat
  toffHi : Bool
  addr : Nat
  /-- Bytes 16-19: ROW_BYTES, ADD, THRESHOLD or COUNT; bytes 20-23: ROWS or BACK. -/
  n16 : Nat
  n20 : Nat
  stride : Int
  dest : Nat
  deriving DecidableEq, Repr, Inhabited

/-- The fields of 32 bytes. -/
def descOf (b : List Byte) : Desc :=
  let o := fieldN b 0 1
  let t := fieldN b 2 1
  let h := fieldN b 3 1
  let c := fieldN b 4 2
  let f := fieldN b 6 2
  { op := o % 16, opHi := o / 16, flags := fieldN b 1 1, tile := t % 128, tileHi := 128 ≤ t, sheet := h % 32, sheetHi := h / 32,
    cleat := c % 4096, glob := bitN c 15, cleatMid := bitsN c 12 3, toff := f % 2 ^ 15, toffHi := bitN f 15, addr := fieldN b 8 8,
    n16 := fieldN b 16 4, n20 := fieldN b 20 4, stride := fieldS b 24 8, dest := fieldN b 24 8 }

/-- STREAM_IN .. COPY. -/
def Desc.isData (d : Desc) : Bool := 1 ≤ d.op && d.op ≤ 5

/-- Words of 64 bytes a data descriptor moves. -/
def Desc.words (d : Desc) : Nat := d.n16 * d.n20 / 64

/-- The rack global address of word w, with the offset its loops give. -/
def Desc.wordAddr (d : Desc) (off : Int) (w : Nat) : Int :=
  d.addr + off + (64 * w / d.n16 : Nat) * (if d.op = 5 then 0 else d.stride) + (64 * w % d.n16 : Nat)

/-- A COPY's destination of word w. -/
def Desc.wordDest (d : Desc) (off : Int) (w : Nat) : Int := d.dest + off + (64 * w : Nat)

/-- The Cleat a descriptor names, as an entry's index. -/
def Desc.cleatIdx (d : Desc) : Nat := if d.glob then d.cleat else 32 * d.tile + d.cleat

/-- The bytes of descriptor i of a Halyard's program. -/
def descBytes (u : Halyard) (i : Nat) (s : State) : List Byte := rawRead (u.prog + 32 * i) 32 s

/-- The offset that the loops in progress whose bodies hold the next descriptor give: the sum of m x STEP. -/
def loopOff (u : Halyard) (s : State) : List (Nat × Nat) → Int
  | [] => 0
  | (l, m) :: r =>
    let d := descOf (descBytes u l s)
    (if l ≤ u.idx + d.n20 && u.idx < l then (m : Int) * d.stride else 0) + loopOff u s r

/-- How deep a LOOP nests, counting itself, up to `fuel` levels. -/
def loopDepth (u : Halyard) (s : State) : Nat → Nat → Nat
  | 0, _ => 0
  | fuel + 1, i =>
    let d := descOf (descBytes u i s)
    if d.op = 8 then
      1 + ((List.range (min d.n20 i)).foldl (fun m k => max m (loopDepth u s fuel (i - 1 - k))) 0)
    else 0

/-! ### Checks (R704) -/

/-- A word address lies in the region table, with write access where `wr`. -/
def inRegions (rs : List Region) (wr : Bool) (a : Int) : Bool :=
  rs.any (fun r => decide ((r.lo : Int) ≤ a) && decide (a + 64 ≤ (r.lo + r.len : Nat)) && !(wr && r.ro))

/-- The device number of a rack global address. -/
def devOf (a : Int) : Nat := bitsN a.toNat 45 7

/-- The first fault that applies to descriptor i, if any. -/
def descFault (h i : Nat) (d : Desc) (s : State) : Option Nat :=
  let u := halOf h s
  let off := loopOff u s u.loops
  let usesCleat := d.op = 6 || d.op = 7 || bitN d.flags 0
  let usesTile := (1 ≤ d.op && d.op ≤ 4) || (usesCleat && !d.glob)
  let tl := tileOf d.tile s
  let sh := sheetOf d.tile d.sheet s
  let ws := List.range d.words
  if !(d.opHi = 0) || 9 ≤ d.op || 4 ≤ d.flags || d.tileHi || !(d.sheetHi = 0) || !(d.cleatMid = 0) || d.toffHi then some 0x01
  else if d.isData && (2 ^ 52 ≤ d.addr || d.n16 < 64 || 0x7FFFFFC0 < d.n16 || d.n20 = 0 || (d.op = 5 && !(d.n20 = 1))) then some 0x01
  else if d.op = 8 && (d.n16 = 0 || d.n20 = 0 || 4096 < d.n20 || i < d.n20) then some 0x01
  else if d.isData && (((d.addr : Int) + off) % 64 ≠ 0 || d.n16 % 64 ≠ 0 || (d.stride + (if d.op = 5 then off else 0)) % 64 ≠ 0) then some 0x09
  else if d.op = 8 && 4 < loopDepth u s 5 i then some 0x05
  else if usesTile && (tileDie d.tile ≠ halDie h || tl.st = .fenced || tl.disp.isNone || tl.disp ≠ u.disp) then some 0x03
  else if (d.op = 1 || d.op = 2) &&
    (sh.st = .unconfigured || sh.dir ≠ d.op - 1 || !(sh.bound = none || sh.bound = some h)) then some 0x04
  else if (d.op = 3 || d.op = 4) && 0x200000 < 64 * d.toff + d.n16 * d.n20 then some 0x0A
  else if d.isData && !(ws.all (fun w => inRegions u.regions (d.op = 2 || d.op = 4) (d.wordAddr off w))) then some 0x02
  else if d.op = 5 && !(ws.all (fun w => inRegions u.regions true (d.wordDest off w))) then some 0x02
  else if d.isData && !((ws.map (fun w => devOf (d.wordAddr off w)) ++ (if d.op = 5 then ws.map (fun w => devOf (d.wordDest off w)) else [])).all
      (fun n => n = devNum s || u.conns.any (fun c => c.1 = n))) then some 0x06
  else none

/-! ### Issue -/

/-- A Halyard can do its work: its die's clock runs and the device is not SAFE. -/
def halRuns (h : Nat) (s : State) : Bool := h < 64 && !domainLost (halDie h) s && !(s.dev.mode = .safe)

/-- Completion signals are delivered in program order (R218), none after a descriptor that ended without effect; a drained Halyard is
IDLE (Table 8.7). -/
def retire (h : Nat) : Nat → State → State
  | 0, s => s
  | n + 1, s =>
    let u := halOf h s
    match u.flights with
    | f :: r =>
      if f.done then
        let d := descOf f.desc
        let s1 := modHal h (fun u => { u with flights := r }) s
        if f.void then retire h n (modHal h (fun u => { u with mute := true }) s1)
        else retire h n (if bitN d.flags 0 && !u.mute then sendSig { glob := d.glob, idx := d.cleatIdx, v := 1 } s1 else s1)
      else s
    | [] => if u.st = .draining then modHal h (fun u => { u with st := .idle, loops := [] }) s else s

/-- Deliver what can be delivered. -/
def retireAll (h : Nat) (s : State) : State := retire h ((halOf h s).flights.length + 1) s

/-- Go on to another descriptor; a DONE_SIGNAL of one that moves nothing takes its place in the order. -/
def halGo (h next : Nat) (f : Flight) (s : State) : State :=
  retireAll h (modHal h (fun u => { u with idx := next, flights := if bitN (descOf f.desc).flags 0 then u.flights ++ [f] else u.flights }) s)

/-- What a descriptor's issue does, given its bytes' flight and fields. -/
abbrev HalBody := Nat → Flight → Desc → State → State

/-- A Halyard meets the descriptor `op` at its index: fetched (0x02, 0x07), held by the limit of 8 and by FENCE (R216, R222),
checked (R704), then issued. A program whose next descriptor cannot be read or is reserved faults whichever row runs. -/
def halIssue (op : Nat) (body : HalBody) (h : Nat) (s : State) : State :=
  let u := halOf h s
  let a := u.prog + 32 * u.idx
  if !(u.st = .running) || !halRuns h s then s
  else if u.len ≤ u.idx then halFault h 0x02 a s
  else match memRead a 32 s with
    | (none, s1) => halFault h 0x07 a s1
    | (some b, s1) =>
      let d := descOf b
      if !(d.op = op) && d.op < 9 then s
      else if 8 ≤ (u.flights.filter (fun f => !f.done)).length || (bitN d.flags 1 && !u.flights.isEmpty) then s
      else match descFault h u.idx d s1 with
        | some c => halFault h c a s1
        | none => body h { at_ := a, desc := b, off := loopOff u s u.loops, total := if d.isData then d.words else 0, done := !d.isData } d s1

/-- END. -/
def hEnd : HalBody := fun h f _ s =>
  retireAll h (modHal h (fun u => { u with
    st := .draining, flights := if bitN (descOf f.desc).flags 0 then u.flights ++ [f] else u.flights }) s)

/-! ### Reads and writes of words -/

/-- The connection that Masthead bound to a Halyard's program for a device. -/
def boundConn (u : Halyard) (dev : Nat) : Option Nat := (u.conns.find? (fun c => c.1 = dev)).map (·.2)

/-- Words of reads that a Halyard has outstanding (R222). -/
def readsOut (u : Halyard) : Nat := (u.flights.map (fun f => f.asked - f.moved)).sum

/-- An earlier descriptor in flight still has words of the same Sheet to go, by some measure of how far it has come. -/
def sheetEarlier (u : Halyard) (k : Nat) (d : Desc) (n : Flight → Nat) : Bool :=
  (u.flights.take k).any (fun f =>
    let e := descOf f.desc
    (e.op = 1 || e.op = 2) && e.tile = d.tile && e.sheet = d.sheet && !f.done && n f < f.total)

/-- A descriptor that reads memory: STREAM_IN, TILE_IN or COPY. -/
def Desc.reads (d : Desc) : Bool := d.op = 1 || d.op = 3 || d.op = 5

/-- Flight k may issue the read of its next word: within 512 words of the Halyard's, and, for a STREAM_IN, with a slot to reserve for it
(R217, R222, Position arithmetic). -/
def mayAsk (u : Halyard) (k : Nat) (f : Flight) (s : State) : Bool :=
  let d := descOf f.desc
  let x := sheetOf d.tile d.sheet s
  d.reads && !f.done && f.asked < f.total && readsOut u < 512 &&
  (!(d.op = 1) || (x.st = .opened && !sheetEarlier u k d (fun g => g.asked) && x.resv < x.release + x.depth && x.resv - x.write < 512))

/-- Word w of a descriptor goes through Shroud, on the connection bound for its device: one READ or WRITE of 64 bytes at the address that
the other device knows (R215, R302). -/
def halPost (h : Nat) (f : Flight) (w : Nat) (a : Int) (bs : Option (List Byte)) (s : State) : State :=
  clientPost (.halyard h f.seq w bs.isSome) ((boundConn (halOf h s) (devOf a)).getD 0)
    { id := 0, kind := if bs.isSome then 2 else 1, addr := bitsN a.toNat 0 45, len := 64, data := bs.getD [] } s

/-- Flight k issues the reads it may, at most n of them. A read of local memory is served when its word moves on. -/
def askReads (h k : Nat) : Nat → State → State
  | 0, s => s
  | n + 1, s =>
    let u := halOf h s
    match u.flights[k]? with
    | none => s
    | some f =>
      if !mayAsk u k f s then s
      else
        let d := descOf f.desc
        let a := d.wordAddr f.off f.asked
        let s1 := modHal h (fun u => { u with flights := u.flights.modify k (fun f => { f with asked := f.asked + 1 }) }) s
        let s2 := if d.op = 1 then modSheet d.tile d.sheet (fun x => { x with resv := x.resv + 1 }) s1 else s1
        askReads h k n (if devOf a = devNum s then s2 else halPost h f f.asked a none s2)

/-- A data descriptor goes in flight and issues its first reads; a stream binds its Sheet and starts its reservation at write (R219). -/
def hData : HalBody := fun h f d s =>
  let s1 := if d.op = 1 || d.op = 2 then
    modSheet d.tile d.sheet (fun x => if x.bound = none then { x with bound := some h, resv := x.write } else x) s else s
  let u := halOf h s1
  askReads h u.flights.length 512
    (modHal h (fun u => { u with idx := u.idx + 1, nextSeq := u.nextSeq + 1, flights := u.flights ++ [{ f with seq := u.nextSeq }] }) s1)

/-- SIGNAL: after every earlier descriptor has completed. -/
def hSig : HalBody := fun h f d s =>
  if (halOf h s).flights.isEmpty then
    halGo h ((halOf h s).idx + 1) f (sendSig { glob := d.glob, idx := d.cleatIdx, v := d.n16 } s)
  else s

/-- WAIT: goes on at or above the threshold, else the Halyard is WAITING and registered. -/
def hWaitBody : HalBody := fun h f d s =>
  let c := cleatOf d.glob d.cleatIdx s
  if c.active && d.n16 ≤ c.count then halGo h ((halOf h s).idx + 1) f s
  else registerWait d.glob d.cleatIdx (.halyard h) d.n16 (modHal h (fun u => { u with st := .waiting }) s)

/-- LOOP: iteration m of COUNT is over; back to the body for m + 1, or on. -/
def hLoopBody : HalBody := fun h f d s =>
  let u := halOf h s
  let (m, rest) := match u.loops with
    | (l, m) :: r => if l = u.idx then (m + 1, r) else (1, u.loops)
    | [] => (1, [])
  if m < d.n16 then modHal h (fun v => { v with loops := (u.idx, m) :: rest, idx := u.idx - d.n20 }) s
  else halGo h (u.idx + 1) f (modHal h (fun v => { v with loops := rest }) s)

/-- A Halyard's registered wait that was released resumes issue (R264, R265). -/
def halWaitRelease (h : Nat) (s : State) : State :=
  let u := halOf h s
  let b := descBytes u u.idx s
  let d := descOf b
  if u.st = .waiting && d.op = 7 && waitReleased (.halyard h) (cleatOf d.glob d.cleatIdx s) then
    halGo h (u.idx + 1) { at_ := u.prog + 32 * u.idx, desc := b, done := true }
      (modHal h (fun u => { u with st := .running }) (dropWaits (.halyard h) s))
  else s

/-! ### Data -/

/-- A source word at hand: its bytes, or the fault code of one that cannot be had; or it has still to come. -/
inductive WordIn where
  | wait
  | word (b : List Byte) (s : State)
  | bad (code : Nat) (s : State)

/-- The source word of flight f that moves next: local memory, once its controller runs, or what the other device has answered. -/
def wordIn (f : Flight) (a : Int) (s : State) : WordIn :=
  if devOf a = devNum s then
    let l := bitsN a.toNat 0 45
    if !rangeRuns l 64 s then .wait
    else match memRead l 64 s with
      | (some b, s1) => .word b (readUse l 64 s1)
      | (none, s1) => .bad 0x07 s1
  else match f.got.find? (fun g => g.1 = f.moved) with
    | none => .wait
    | some (_, b, c) => if c = 0 then .word (padTo 64 (b.take 64)) s else .bad c s

/-- Flight k has moved one more word on; `seen` when its write is visible already. -/
def flightMoved (h k : Nat) (seen : Bool) (s : State) : State :=
  modHal h (fun u => { u with flights := u.flights.modify k (fun f =>
    { f with moved := f.moved + 1, acked := f.acked + b2n seen, got := f.got.filter (fun g => g.1 ≠ f.moved) }) }) s

/-- The destination of a word can be written now: local memory whose controller runs, a STREAM_OUT's only behind visible writes; or the
other device. -/
def wordOutRuns (f : Flight) (a : Int) (s : State) : Bool :=
  !(devOf a = devNum s) || (rangeRuns (bitsN a.toNat 0 45) 64 s && (!(fieldN f.desc 0 1 = 2) || f.acked = f.moved))

/-- The word that flight k moves goes to its destination: local memory, where it is visible at once, or the other device. -/
def wordOut (h k : Nat) (f : Flight) (a : Int) (b : List Byte) (s : State) : State :=
  if devOf a = devNum s then flightMoved h k true (outReleased f (memWrite (bitsN a.toNat 0 45) b s))
  else halPost h f f.moved a (some b) (flightMoved h k false s)

/-- One word of flight k moves (R217, R220, R257). -/
def moveWord (h k : Nat) (s0 : State) : State :=
  if !halRuns h s0 || (halOf h s0).st = .idle || (halOf h s0).st = .fault then s0
  else
    let s := askReads h k 512 s0
    let u := halOf h s
    match u.flights[k]? with
    | none => s
    | some f =>
      let d := descOf f.desc
      let a := d.wordAddr f.off f.moved
      let x := sheetOf d.tile d.sheet s
      if f.done || f.total ≤ f.moved || (d.reads && f.asked ≤ f.moved) then s
      else if (d.op = 1 || d.op = 2) && (!(x.st = .opened) || sheetEarlier u k d (fun g => g.moved)) then s
      else if d.op = 2 || d.op = 4 then
        if (d.op = 2 && x.present = 0) || !wordOutRuns f a s then s
        else match tileRead d.tile (if d.op = 2 then x.slot x.read else 64 * (d.toff + f.moved)) 64 s with
          | (none, s1) => halFault h 0x07 f.at_ s1
          | (some b, s1) =>
            wordOut h k f a b (if d.op = 2 then modSheet d.tile d.sheet (fun x => { x with read := x.read + 1 }) s1 else s1)
      else if d.op = 5 && !wordOutRuns f (d.wordDest f.off f.moved) s then s
      else match wordIn f a s with
        | .wait => s
        | .bad c s1 => halFault h c f.at_ s1
        | .word b s1 =>
          if d.op = 1 then flightMoved h k true (sheetPush d.tile d.sheet [b] s1)
          else if d.op = 3 then flightMoved h k true (memWrite (tileBase d.tile + 64 * (d.toff + f.moved)) b s1)
          else wordOut h k f (d.wordDest f.off f.moved) b s1

/-- Every write of flight k is visible: it completes (R218). -/
def flightDone (h k : Nat) (s : State) : State :=
  match (halOf h s).flights[k]? with
  | none => s
  | some f =>
    if f.acked < f.total || !halRuns h s then s
    else retireAll h (modHal h (fun u => { u with flights := u.flights.set k { f with done := true } }) s)

/-- Masthead stops a Halyard (Table 8.7): it issues nothing further, what waits on its held Sheets ends without effect (Table 10.5), and
other work already issued goes on. -/
def halStop (h : Nat) (s : State) : State :=
  let u := halOf h s
  if u.st = .running || u.st = .waiting || u.st = .draining then
    retireAll h (modHal h (fun u => { u with
      st := .draining
      flights := u.flights.map (fun f => if !f.done && (fieldN f.desc 0 1 = 1 || fieldN f.desc 0 1 = 2) then { f with done := true, void := true } else f) })
      (dropWaits (.halyard h) s))
  else s

/-! ### The end of a dispatch -/

/-- A dispatch has ended: its tiles and Halyards are released, its Cleats return to FREE (R266, R284), its Sheets and tile-local Cleats
are no longer configured (R242), and its area is given back. -/
def freeDispatch (d : Nat) (s : State) : State :=
  let x := dispOf d s
  let s1 := x.tiles.foldl (fun s t =>
    let s1 := modTile t (fun u => { u with
      st := if u.st = .fenced then .fenced else if u.st = .faulted then .idle else .loaded
      disp := none, stalled := false, atEnd := false, gcl := [] }) (dropWaits (.tile t) s)
    { s1 with comp := { s1.comp with
      sheets := Tab.dropIf s1.comp.sheets (fun i _ => i / 32 = t)
      lcl := Tab.mapAll s1.comp.lcl (fun i c => if i / 32 = t then c.freed else c) } }) s
  let s2 := x.hals.foldl (fun s h => modHal h (fun u => { nextSeq := u.nextSeq }) (dropWaits (.halyard h) s)) s1
  let s3 := x.gcl.foldl (fun s c => modCleat true c Cleat.freed s) s2
  modSrv (fun v => { v with dispatches := Tab.put v.dispatches d {} }) s3

/-- A halted dispatch whose Halyards have all drained, or faulted, ends. -/
def endIfDrained (d : Nat) (s : State) : State :=
  let x := dispOf d s
  if x.live && x.ending && x.hals.all (fun h => (halOf h s).st = .idle || (halOf h s).st = .fault) then freeDispatch d s else s

/-- Masthead halts a dispatch (R221, R272): its Sheets are held, each tile stops issuing and finishes its Sail queue, each Halyard is
stopped, and registered waits are dropped. Its tiles and Halyards are free again, and its Cleats FREE, once its Halyards have drained. -/
def stopDispatch (d : Nat) (s : State) : State :=
  let x := dispOf d s
  if !x.live || x.ending then s
  else
    let s1 := x.tiles.foldl (fun s t =>
      let s1 := dropWaits (.tile t) (if (tileOf t s).st = .running then sailFinish t 8 s else s)
      modTile t (fun u => { u with st := if u.st = .running then .loaded else u.st, stalled := false, atEnd := false, queue := [], drain := none }) s1)
      (holdSheets (some d) s)
    let s2 := x.hals.foldl (fun s h => halStop h s) s1
    endIfDrained d (modSrv (fun v => { v with dispatches := Tab.mod v.dispatches d (fun x => { x with ending := true }) }) s2)

/-- Every halted dispatch that has drained ends. -/
def endDispatches (s : State) : State := s.srv.dispatches.foldl (fun s d => if d.2.live && d.2.ending then endIfDrained d.1 s else s) s

/-! ### Rows -/

/-- Descriptor END. -/
def execHHalyardEnd (h : Nat) (s : State) : Host.Outcome State Fault Refusal := .next (halIssue 0 hEnd h s)

/-- STREAM_IN. -/
def execHStreamIn (h : Nat) (s : State) : Host.Outcome State Fault Refusal := .next (halIssue 1 hData h s)

/-- STREAM_OUT. -/
def execHStreamOut (h : Nat) (s : State) : Host.Outcome State Fault Refusal := .next (halIssue 2 hData h s)

/-- TILE_IN. -/
def execHTileIn (h : Nat) (s : State) : Host.Outcome State Fault Refusal := .next (halIssue 3 hData h s)

/-- TILE_OUT. -/
def execHTileOut (h : Nat) (s : State) : Host.Outcome State Fault Refusal := .next (halIssue 4 hData h s)

/-- COPY. -/
def execHCopy (h : Nat) (s : State) : Host.Outcome State Fault Refusal := .next (halIssue 5 hData h s)

/-- SIGNAL. -/
def execHSignal (h : Nat) (s : State) : Host.Outcome State Fault Refusal := .next (halIssue 6 hSig h s)

/-- WAIT. -/
def execHWait (h : Nat) (s : State) : Host.Outcome State Fault Refusal := .next (halIssue 7 hWaitBody h s)

/-- LOOP. -/
def execHLoop (h : Nat) (s : State) : Host.Outcome State Fault Refusal := .next (halIssue 8 hLoopBody h s)

/-- HALYARD_READ_DATA, with upsets that have come to words of memory since they were last read (R201, R307). -/
def execHalyardReadData (h k : Nat) (ups : List (Nat × Upset)) (s : State) : Host.Outcome State Fault Refusal :=
  .next (endDispatches (moveWord h k (strike ups s)))

/-- DESCRIPTOR_COMPLETE. -/
def execDescriptorComplete (h k : Nat) (s : State) : Host.Outcome State Fault Refusal :=
  .next (endDispatches (flightDone h k s))

/-- CLEAT_WAIT_RELEASE. -/
def execCleatWaitRelease (halyard : Bool) (n : Nat) (s : State) : Host.Outcome State Fault Refusal :=
  .next (if halyard then halWaitRelease n s else tileWaitRelease n s)

end Sys2Proof.Machine
end

