-- ==== Sys2Proof/Machine/NvmeOps.lean ====
section
/-! DEFINITION. The NVMe root port's transfers: drives, areas, runs and the I/O commands it submits (spec/18_host_storage.md,
R463 - R472). -/

namespace Sys2Proof.Machine

/-- Drive d, and a change of it. -/
def driveOf (d : Nat) (s : State) : Drive := if d = 0 then s.nvme.d0 else s.nvme.d1

def modDrive (d : Nat) (f : Drive → Drive) (s : State) : State :=
  { s with nvme := if d = 0 then { s.nvme with d0 := f s.nvme.d0 } else { s.nvme with d1 := f s.nvme.d1 } }

/-- The SPILL and REEF flags of NVME_CFG, by drive. -/
def spillOn (d : Nat) (s : State) : Bool := bitN s.nvme.flags d

def reefOn (d : Nat) (s : State) : Bool := bitN s.nvme.flags (2 + d)

/-- The port holds drive d's media key (Table 21.2, R563). -/
def mediaHeld (d : Nat) (s : State) : Bool := s.sec.lock ≠ .opened && (if d = 0 then s.sec.media0 else s.sec.media1).isSome

/-- Drive d takes transfers (R472, R563). -/
def driveUp (d : Nat) (s : State) : Bool :=
  fnRunning 0x08 s && (driveOf d s).st = .ready && mediaHeld d s && !domainLost 8 s && !(s.dev.mode = .safe)

/-- Logical blocks of a length in bytes. -/
def lbasOf (n : Nat) : Nat := (n + 4095) / 4096

/-- The largest command, in logical blocks (R463). -/
def maxLbas (u : Drive) : Nat := max 1 (min 262144 u.maxBytes / 4096)

/-- Cut a transfer into commands (R463). -/
def cutCmds (kind : NvKind) (cl : NvClient) (mx : Nat) : Nat → Nat → Nat → Nat → Nat → List NvCmd
  | 0, _, _, _, _ => []
  | fuel + 1, cid, lba, left, loc =>
    if left = 0 then []
    else
      let n := min left mx
      { cid := cid, kind := kind, lba := lba, nlb := n, loc := loc, client := cl } ::
        cutCmds kind cl mx fuel (cid + 1) (lba + n) (left - n) (loc + 4096 * n)

/-- Submit a transfer of n logical blocks between the drive and an HBM address. -/
def nvSubmit (d : Nat) (kind : NvKind) (cl : NvClient) (lba n loc : Nat) (s : State) : State :=
  let cs := cutCmds kind cl (if kind = .dealloc then max 1 n else maxLbas (driveOf d s)) n (driveOf d s).nextCid lba n loc
  modDrive d (fun u =>
    let k := cs.length
    let u1 := { u with cmds := u.cmds ++ cs, nextCid := u.nextCid + k }
    match kind with
    | .read => { u1 with readCmds := min (2 ^ 32 - 1) (u1.readCmds + k) }
    | .write => { u1 with writeCmds := min (2 ^ 32 - 1) (u1.writeCmds + k) }
    | .dealloc => { u1 with deallocCmds := min (2 ^ 32 - 1) (u1.deallocCmds + k) }
    | .flush => u1) (cs.foldl (fun s c => emit (.nvIo d c.cid c.kind c.lba c.nlb) s) s)

/-! ### Media encryption (R465) -/

/-- The media key of drive d, of the label GEN it was derived for (Table 21.2). -/
def mediaKeyOf (d : Nat) (s : State) : List Byte :=
  Config.mediaKey s.sec.fuse.secret d ((if d = 0 then s.sec.media0 else s.sec.media1).getD 0)

/-- What the drive's logical block `lba` holds of 4,096 bytes: LBA 0 is unencrypted, every other one stands under the media key with
the LBA as tweak. -/
def toMedia (d lba : Nat) (b : List Byte) (s : State) : List Byte :=
  if lba = 0 then b else Config.xtsEnc (mediaKeyOf d s) (leBytes 16 lba) b

/-- The bytes that logical block `lba` of a drive stands for. -/
def ofMedia (d lba : Nat) (b : List Byte) (s : State) : List Byte :=
  if lba = 0 then b else Config.xtsDec (mediaKeyOf d s) (leBytes 16 lba) b

/-- The data of a read command as its client gets it: each logical block through the media key. -/
def mediaRead (d : Nat) (c : NvCmd) (data : List Byte) (s : State) : List Byte :=
  (List.range c.nlb).flatMap (fun i => padTo 4096 ((ofMedia d (c.lba + i) (padTo 4096 (slice data (4096 * i) 4096)) s).take 4096))

/-- A run of n logical blocks from `a` on meets none of the runs. -/
def runFree (rs : List SpillRun) (a n : Nat) : Bool := rs.all (fun r => decide (a + n ≤ r.first) || decide (r.first + r.lbas ≤ a))

/-- First fit in an area: the lowest start among the area's own and the ends of the runs. -/
def firstFit (rs : List SpillRun) (lo len n : Nat) : Option Nat :=
  let starts := (lo :: rs.map (fun r => r.first + r.lbas)).filter (fun a => decide (lo ≤ a) && decide (a + n ≤ lo + len) && runFree rs a n)
  starts.foldl (fun m a => match m with | none => some a | some b => some (min a b)) none

/-- A drive and a run that can take a spilled block of n logical blocks: the lowest drive first. -/
def spillPlace (n : Nat) (s : State) : Option (Nat × Nat) :=
  let try_ := fun (d : Nat) =>
    if driveUp d s && spillOn d s then
      (firstFit (driveOf d s).runs (driveOf d s).label.spillFirst (driveOf d s).label.spillLbas n).map (fun a => (d, a))
    else none
  match try_ 0 with
  | some r => some r
  | none => try_ 1

/-- Take a run for a key, and give a key's run back with a deallocation. -/
def takeRun (d key a n : Nat) (s : State) : State := modDrive d (fun u => { u with runs := u.runs ++ [{ key := key, first := a, lbas := n }] }) s

def dropRun (d key : Nat) (s : State) : State :=
  match (driveOf d s).runs.find? (fun r => r.key = key) with
  | some r =>
    let s1 := modDrive d (fun u => { u with runs := u.runs.filter (fun x => !(x.key = key)) }) s
    if driveUp d s then nvSubmit d .dealloc .none r.first r.lbas 0 s1 else s1
  | none => s

/-- Every command of a client is over at both drives. -/
def clientIdle (cl : NvClient) (s : State) : Bool :=
  (s.nvme.d0.cmds ++ s.nvme.d1.cmds).all (fun c => !(c.client = cl))

/-- The commands of a client no longer serve it. -/
def dropClient (cl : NvClient) (s : State) : State :=
  let f := fun (u : Drive) => { u with cmds := u.cmds.map (fun c => if c.client = cl then { c with client := .none } else c) }
  modDrive 1 f (modDrive 0 f s)

end Sys2Proof.Machine
end

