-- ==== Sys2Proof/Machine/FurlHome.lean ====
section
/-! DEFINITION. Furl as home of a shard and as owner of a pool: keys, directory, claims, tiers and eviction
(spec/14_furl.md, R323 - R349, R352, R353). -/

namespace Sys2Proof.Machine

/-! ### Membership (Active members, R674) -/

/-- Device e is an active member. -/
def activeMember (e : Nat) (s : State) : Bool :=
  let p := Tab.get s.rack.peers e
  e ≠ devNum s && e < 72 && s.rack.view.members.getLsbD e && !p.left && (Tab.get s.stay.maps e).dataReady &&
  match p.ann with
  | some a =>
    a.fresh && (a.mstate = 1 || a.mstate = 2) && (a.state = 2 || a.state = 3) &&
    (a.epoch = s.rack.view.epoch || (s.rack.oldWindow && decide (a.epoch < s.rack.view.epoch)))
  | none => false

/-- Without the rack manager for more than 30 s, or never told of an epoch (R677). -/
def rmuGone (s : State) : Bool := s.rack.rmuLost || s.rack.mstate = .unset

/-- Lookups to a home leave the requester (R351, R678). -/
def homeUp (e : Nat) (s : State) : Bool :=
  s.dev.mode ≠ .quarantine && (e = devNum s || (activeMember e s && !rmuGone s))

/-! ### Keys (R323, R324) -/

/-- The key message of Table 14.1. -/
def keyMessage (tag pdom parent : Nat) (toks : List Nat) : List Byte :=
  [0x46, 0x52, 0x4C, 0x31] ++ leBytes 8 tag ++ leBytes 2 pdom ++ leBytes 2 0 ++ leBytes 16 parent ++ toks.flatMap (leBytes 4)

/-- K_i, as the little-endian number of its bytes k[0..15]. -/
def blockKey (tag pdom parent : Nat) (toks : List Nat) : Nat := leNat ((sha256 (keyMessage tag pdom parent toks)).take 16)

/-- The keys of n full blocks of a token sequence from a parent on. -/
def keyChain (tag pdom : Nat) : Nat → Nat → List Nat → List Nat
  | 0, _, _ => []
  | n + 1, parent, toks =>
    let k := blockKey tag pdom parent (toks.take 32)
    k :: keyChain tag pdom n k (toks.drop 32)

/-- Home device, and set. -/
def homeOf (key : Nat) : Nat := key % 2 ^ 64 % 72

def setOf (key : Nat) : Nat := key / 2 ^ 64 % 2 ^ 32 % 262144

/-! ### State -/

/-- Change Furl's state. -/
def modFurl (f : Furl → Furl) (s : State) : State := { s with furl := f s.furl }

/-- Add 1 to counter i of Table 14.6. -/
def countFurl (i : Nat) (s : State) : State := modFurl (fun u => { u with stats := Tab.mod u.stats i (fun n => wrapInc 64 n) }) s

/-- A local millisecond clock. -/
def nowMs (s : State) : Nat := s.time.mono / 1000000

/-- The bytes of a message as Shroud carries them. -/
def FurlMsg.bytes (m : FurlMsg) : List Byte := (List.range ((Config.furlLen m).toNat + 1)).map (Config.furlByte m)

/-- The key of a LOOKUP. -/
def FurlMsg.lookupKey : FurlMsg → Option Nat
  | .lookup key _ _ _ _ _ _ _ => some key
  | _ => none

/-- A message to a device: in place for the device itself, on the system connection to a member (Messages). -/
def furlSend (dev : Nat) (m : FurlMsg) (s : State) : State :=
  if dev = devNum s then modFurl (fun u => { u with selfq := u.selfq ++ [m] }) s
  else if activeMember dev s && s.dev.mode ≠ .quarantine then sysMessage m.lookupKey dev m.bytes (emit (.furl dev m) s) else s

def dirOf (e : Nat) (s : State) : DirEntry := Tab.get s.furl.dir e

def modDir (e : Nat) (f : DirEntry → DirEntry) (s : State) : State := modFurl (fun u => { u with dir := Tab.mod u.dir e f }) s

/-- The entry of a key at this home. -/
def findEntry (key : Nat) (s : State) : Option Nat :=
  firstIdx (fun e => let d := dirOf e s; d.st ≠ .free && d.key = key) (8 * setOf key) 8

/-! ### Pool slots of this device -/

/-- Pages of a slot for a block of some bytes. -/
def slotPages (bytes : Nat) : Nat := (roundUp 4096 bytes + 0x1FFFFF) / 0x200000

/-- Give n pages from p on to a user. -/
def takePages (use : PageUse) (tenant : Option Nat) (zero : Bool) (p n : Nat) (s : State) : State :=
  (List.range n).foldl (fun s i => takePage use tenant zero (p + i) s) s

def dropPages (p n : Nat) (s : State) : State := (List.range n).foldl (fun s i => dropPage (p + i) s) s

/-- HBM pages. -/
def hbmPages : Nat := 196608

/-- The first free run of n pages. -/
def freeRun (n : Nat) (s : State) : Option Nat := if n = 0 then none else findRun (fun p => pageFree p s) n hbmPages 0 0

/-- Reserve a slot of the pool for a block of a prefix domain: its first page. Page 0 is never one, since OFFER 0 is none. -/
def reserveSlot (pdom tag bytes : Nat) (s : State) : Option Nat × State :=
  let n := slotPages bytes
  match (if n = 0 then none else findRun (fun p => pageFree p s) n hbmPages 1 0) with
  | some p =>
    (some p, modFurl (fun u => { u with pool := Tab.put u.pool p { live := true, pages := n, bytes := roundUp 4096 bytes, pdom := pdom, tag := tag, lastUse := s.time.mono } })
      (takePages (.pool pdom) none false p n s))
  | none => (none, s)

/-- Free a slot. -/
def freeSlot (p : Nat) (s : State) : State :=
  let x := Tab.get s.furl.pool p
  if x.live then modFurl (fun u => { u with pool := Tab.put u.pool p default }) (dropPages p x.pages s) else s

/-- The slot of this device that holds a key for its home. A key of a home that was lost may stand in an orphaned slot as well. -/
def slotOfKey (key : Nat) (s : State) : Option Nat :=
  (s.furl.pool.find? (fun c => c.2.live && c.2.key = key && key ≠ 0 && !c.2.orphaned)).map (·.1)

/-- The slot in which a key has outlived its home (R352). -/
def orphanOfKey (key : Nat) (s : State) : Option Nat :=
  (s.furl.pool.find? (fun c => c.2.live && c.2.key = key && key ≠ 0 && c.2.orphaned)).map (·.1)

/-- The local address of a slot. -/
def slotAddr (p : Nat) : Nat := p * 0x200000

def modSlot (p : Nat) (f : PoolSlot → PoolSlot) (s : State) : State := modFurl (fun u => { u with pool := Tab.mod u.pool p f }) s

def modSpilled (key : Nat) (f : Spilled → Spilled) (s : State) : State :=
  modFurl (fun u => { u with spilled := Tab.mod u.spilled key f }) s

/-- Drop the NVMe copy of a key. -/
def dropSpilled (key : Nat) (s : State) : State :=
  let x := Tab.get s.furl.spilled key
  if x.live then dropRun x.drive key (modFurl (fun u => { u with spilled := Tab.put u.spilled key default }) s) else s

/-- LOC_ADDR of a spilled block. -/
def nvmeLoc (drive lba : Nat) : Nat := drive * 2 ^ 63 + lba

/-! ### Home -/

/-- The waiters of an entry, oldest first. -/
def waitersOf (e : Nat) (s : State) : List FurlWaiter := s.furl.waiters.filter (fun w => w.entry = e)

def dropWaitersOf (e : Nat) (s : State) : State := modFurl (fun u => { u with waiters := u.waiters.filter (fun w => !(w.entry = e)) }) s

/-- LOC_DEV is this device or a member. -/
def locUp (dev : Nat) (s : State) : Bool := dev = devNum s || activeMember dev s

/-- An entry returns to FREE and LOC_DEV releases the slot. -/
def freeEntry (e : Nat) (s : State) : State :=
  let d := dirOf e s
  furlSend d.locDev (.evictAck d.key 4 true) (dropWaitersOf e (modDir e (fun _ => {}) s))

/-- The builder's role is dropped (R335): to the oldest waiter, else the entry is FREE. -/
def passClaim (e : Nat) (s : State) : State :=
  let d := dirOf e s
  match waitersOf e s with
  | w :: _ =>
    let s1 := modFurl (fun u => { u with waiters := u.waiters.filter (fun x => !(x = w)) }) s
    let s2 := modDir e (fun d => { d with builderDev := w.dev, builderCtx := w.ctx, lease := nowMs s }) (countFurl 10 s1)
    furlSend w.dev (.notify d.key 1 (if locUp d.locDev s then d.locDev else 0xFFFF) d.locAddr w.ctx) s2
  | [] => freeEntry e s

/-- The fields of a lookup equal the entry's (R326). -/
def verified (d : DirEntry) (parent tag pdom : Nat) (toks : List Nat) : Bool :=
  d.tag = tag && d.pdom = pdom && d.parent = parent && d.toks = toks

/-- A lookup of a block this device's pool holds is a use of it. -/
def useSlot (key : Nat) (s : State) : State :=
  match slotOfKey key s with
  | some p => modSlot p (fun x => { x with lastUse := s.time.mono }) s
  | none => modSpilled key (fun x => if x.live then { x with at_ := s.time.mono } else x) s

/-- The answer of Table 14.3 with the location of an entry. -/
def sayAnswer (src key code : Nat) (d : DirEntry) (n : Nat) (s : State) : State :=
  furlSend src (.answer key code d.locDev d.nvme d.locAddr d.child n) s

/-- Leading tokens that two lists share. -/
def leading : List Nat → List Nat → Nat
  | a :: as, b :: bs => if a = b then leading as bs + 1 else 0
  | _, _ => 0

/-- LOOKUP at the home (R326 - R331, R333; Table 14.5). `mode` 1 compares (R340): it answers how many leading tokens agree and
holds a block of which at least 8 do. -/
def homeLookup (src key parent tag pdom : Nat) (toks : List Nat) (ctx offer mode : Nat) (s : State) : State :=
  match findEntry key s with
  | some e =>
    let d := dirOf e s
    let have_ := d.st = .ready || d.st = .moving
    if mode = 1 then
      let n := if have_ && d.tag = tag && d.pdom = pdom && d.parent = parent then leading d.toks toks else 0
      if 8 ≤ n then
        sayAnswer src key 0 d n (useSlot key (modDir e (fun d => { d with holders := setBit d.holders src true }) s))
      else sayAnswer src key 4 d n s
    else if mode = 3 then
      sayAnswer src key (if !verified d parent tag pdom toks then 3 else if have_ then 0 else if d.st = .evicting then 5 else 4) d 0 s
    else if !verified d parent tag pdom toks then sayAnswer src key 3 d 0 s
    else if have_ then
      sayAnswer src key 0 d 0 (useSlot key (modDir e (fun d => { d with holders := setBit d.holders src true }) s))
    else if offer = 0 then sayAnswer src key 4 d 0 s
    else if d.st = .evicting then sayAnswer src key 5 d 0 s
    else if 65536 ≤ s.furl.waiters.length then sayAnswer src key 4 d 0 s
    else
      sayAnswer src key 1 d 0 (modFurl (fun u => { u with waiters := u.waiters ++ [{ dev := src, ctx := ctx, entry := e }] })
        (modDir e (fun d => { d with holders := setBit d.holders src true }) s))
  | none =>
    if offer = 0 then sayAnswer src key 4 {} 0 s
    else
      let claim := fun (e : Nat) (s : State) =>
        let d : DirEntry := { st := .building, key := key, parent := parent, tag := tag, pdom := pdom, locDev := src, locAddr := offer,
                              builderDev := src, builderCtx := ctx, lease := nowMs s, holders := setBit 0 src true, toks := toks }
        sayAnswer src key 2 d 0 (modDir e (fun _ => d) s)
      match firstIdx (fun e => (dirOf e s).st = .free) (8 * setOf key) 8 with
      | some e => claim e s
      | none =>
        match firstIdx (fun e => (dirOf e s).st = .ready && (dirOf e s).holders = 0) (8 * setOf key) 8 with
        | some e => claim e (freeEntry e s)
        | none => sayAnswer src key 4 {} 0 s

/-- A holder bit goes; a lost block without holders is freed by its owner (R349). -/
def clearHolder (e src : Nat) (s : State) : State :=
  let s1 := modDir e (fun d => { d with holders := setBit d.holders src false }) s
  let d := dirOf e s1
  if d.st = .evicting && d.lost && d.holders = 0 then furlSend d.locDev (.evictAck d.key 0 true) s1 else s1

/-- UNHOLD. -/
def homeUnhold (src key : Nat) (s : State) : State :=
  match findEntry key s with
  | some e => clearHolder e src s
  | none => s

/-- Device src builds, or waits on, a BUILDING entry. -/
def buildsOrWaits (e src : Nat) (s : State) : Bool := (dirOf e s).builderDev = src || (waitersOf e s).any (fun w => w.dev = src)

/-- ABANDON (R335, R338): the builder's role, or the waiter record of the context; a device with neither left on a BUILDING entry
holds no reference there any more, and loses its holder bit (Table 14.4). -/
def homeAbandon (src key ctx : Nat) (s : State) : State :=
  match findEntry key s with
  | some e =>
    let d := dirOf e s
    let s1 := if d.st = .building && d.builderDev = src && d.builderCtx = ctx then passClaim e s
      else modFurl (fun u => { u with waiters := u.waiters.filter (fun w => !(w = { dev := src, ctx := ctx, entry := e })) }) s
    if (dirOf e s1).st = .building && !buildsOrWaits e src s1 then clearHolder e src s1 else s1
  | none => s

/-- RENEW. -/
def homeRenew (src : Nat) (keys : List Nat) (s : State) : State :=
  keys.foldl (fun s key =>
    match findEntry key s with
    | some e => modDir e (fun d => if d.st = .building && d.builderDev = src then { d with lease := nowMs s } else d) s
    | none => s) s

/-- A LEASE 500 ms old (R334). -/
def leaseExpiry (e : Nat) (s : State) : State :=
  let d := dirOf e s
  if d.st = .building && d.lease + 500 ≤ nowMs s then passClaim e (raise 0x139 (countFurl 11 s)) else s

/-- A message to each of some devices, once each. -/
def sendEach (m : FurlMsg) (devs : List Nat) (s : State) : State := devs.eraseDups.foldl (fun s d => furlSend d m s) s

/-- PUBLISH (R337). -/
def homePublish (src key : Nat) (s : State) : State :=
  match findEntry key s with
  | some e =>
    let d := dirOf e s
    if d.st = .building && d.builderDev = src then
      let ws := (waitersOf e s).map (·.dev)
      let s1 := dropWaitersOf e (modDir e (fun d => { d with st := .ready, builderDev := 0xFFFF, builderCtx := 0 }) s)
      let s2 := sendEach (.notify key 0 d.locDev d.locAddr 0) ws s1
      if d.parent = 0 then s2 else furlSend (homeOf d.parent) (.child d.parent key) s2
    else s
  | none => s

/-- CHILD at the parent's home. -/
def homeChild (parent key : Nat) (s : State) : State :=
  match findEntry parent s with
  | some e => modDir e (fun d => { d with child := key }) s
  | none => s

/-- EVICT at the home (R343, R349): a drop, a spill, or the owner's word that the block is lost, which the devices that wait for it, or for
its restore, learn at once (R27, R345). -/
def homeEvict (src key op : Nat) (s : State) : State :=
  match findEntry key s with
  | some e =>
    let d := dirOf e s
    if op = 2 then
      if d.locDev = src then
        let ws := d.askers ++ (waitersOf e s).map (·.dev)
        let s1 := dropWaitersOf e (modDir e (fun d => { d with st := .evicting, restoring := false, askers := [], lost := true }) s)
        let s2 := sendEach (.notify key 3 src 0 0) ws s1
        if d.holders = 0 then furlSend src (.evictAck key 0 true) s2 else s2
      else s
    else if d.st = .ready && d.holders = 0 && d.locDev = src && (op = 0 || !d.nvme) then
      furlSend src (.evictAck key op true)
        (modDir e (fun d => if op = 1 then { d with st := .moving, restoring := false } else { d with st := .evicting }) s)
    else furlSend src (.evictAck key op false) s
  | none => furlSend src (.evictAck key op false) s

/-- RESTORE at the home: to MOVING, forwarded to the owner. A block that is gone cannot be restored (R345). -/
def homeRestore (src key : Nat) (s : State) : State :=
  match findEntry key s with
  | some e =>
    let d := dirOf e s
    if d.st = .ready && d.nvme then
      furlSend d.locDev (.restoreOwn key) (modDir e (fun d => { d with st := .moving, restoring := true, askers := [src] }) s)
    else if d.st = .moving && d.restoring then modDir e (fun d => { d with askers := d.askers ++ [src] }) s
    else if d.st = .ready then furlSend src (.notify key 0 d.locDev d.locAddr 0) s
    else furlSend src (.notify key 3 d.locDev 0 0) s
  | none => furlSend src (.notify key 3 0 0 0) s

/-- MOVED at the home: the end of MOVING or EVICTING (Table 14.5, R344, R349, R471), or the new location of a builder where the old one
has left (R335, R342). -/
def homeMoved (src key : Nat) (nvme : Bool) (loc : Nat) (s : State) : State :=
  match findEntry key s with
  | some e =>
    let d := dirOf e s
    if d.st = .moving && d.locDev = src then
      if d.restoring then
        let s1 := modDir e (fun d => { d with st := .ready, restoring := false, nvme := nvme, locAddr := loc, askers := [] }) s
        sendEach (.notify key (if nvme then 3 else 0) src loc 0) d.askers s1
      else if nvme then
        if d.holders = 0 then
          furlSend src (.evictAck key 3 true) (modDir e (fun d => { d with st := .ready, nvme := true, locAddr := loc }) s)
        else furlSend src (.evictAck key 3 false) (modDir e (fun d => { d with st := .ready }) s)
      else modDir e (fun d => { d with st := .ready, locAddr := loc }) s
    else if d.st = .evicting && d.locDev = src && (!d.lost || d.holders = 0) then modDir e (fun _ => {}) s
    else if d.st = .building && d.builderDev = src && !locUp d.locDev s then
      sendEach (.notify key 2 src loc 0) ((waitersOf e s).map (·.dev)) (modDir e (fun d => { d with locDev := src, locAddr := loc }) s)
    else s
  | none => s

/-- A device is no longer a member: its holder bits and waiter records go; its claims go with their leases. -/
def homeLoseDevice (dev : Nat) (s : State) : State :=
  let s1 := modFurl (fun u => { u with waiters := u.waiters.filter (fun w => !(w.dev = dev)) }) s
  (s1.furl.dir.map (·.1)).foldl (fun s e => clearHolder e dev s) s1

/-- The directory is discarded (R353). -/
def discardDirectory (s : State) : State := modFurl (fun u => { u with dir := [], waiters := [] }) s

/-! ### Owner -/

/-- Bytes of NVMe that spilled blocks hold. -/
def spilledBytes (s : State) : Nat := s.furl.spilled.foldl (fun n c => n + c.2.bytes) 0

/-- HBM in use, in pages: regions, private KV areas, the pool and Reef's data. -/
def usedPages (s : State) : Nat := (s.mem.pages.filter (fun c => !(c.2.use = .free) && !(c.2.use = .retired))).length

/-- HBM use has reached a percentage. -/
def useAtLeast (pct : Nat) (s : State) : Bool := decide (pct * hbmPages ≤ 100 * usedPages s)

/-- References that this device's contexts, pins and snapshots hold on a block. -/
def refsOf (key : Nat) (s : State) : Nat := Tab.get s.furl.refs key

/-- Where a candidate stands in the order of eviction: closed domains, unloaded models, the rest. -/
def evictClass (x : PoolSlot) (s : State) : Nat :=
  if !(Tab.get s.furl.doms x.pdom).opened then 0
  else if !s.srv.models.any (fun c => c.2.live && c.2.tag = x.tag) then 1 else 2

/-- One candidate comes before another. -/
def evictBefore (s : State) (a b : Nat × PoolSlot) : Bool :=
  let ca := evictClass a.2 s
  let cb := evictClass b.2 s
  decide (ca < cb) || (ca = cb && (decide (a.2.lastUse < b.2.lastUse) || (a.2.lastUse = b.2.lastUse && decide (a.1 < b.1))))

/-- The next candidate of eviction. -/
def candidate (s : State) : Option (Nat × PoolSlot) :=
  (s.furl.pool.filter (fun c => c.2.live && c.2.key ≠ 0 && !c.2.evictAsked && !c.2.moving)).foldl
    (fun m c => match m with | none => some c | some b => if evictBefore s c b then some c else some b) none

/-- The spilled block with the oldest use that has not been asked for. -/
def oldestSpilled (s : State) : Option Nat :=
  ((s.furl.spilled.filter (fun c => c.2.live && !c.2.evictAsked && c.2.restoreTo.isNone)).foldl
    (fun m c => match m with
      | none => some c
      | some b => if c.2.at_ < b.2.at_ then some c else some b) (none : Option (Nat × Spilled))).map (·.1)

/-- Eviction ends: what was refused may be asked for again. -/
def endEviction (s : State) : State :=
  modFurl (fun u => { u with evicting := false, pool := Tab.mapAll u.pool (fun _ x => { x with evictAsked := false })
                             spilled := Tab.mapAll u.spilled (fun _ x => { x with evictAsked := false }) }) s

/-- One step of eviction: the next EVICT, or an orphaned block that no device holds, freed (R346, R347, R352). True while no answer is
awaited, so that another step follows. -/
def evictStep (s : State) : Bool × State :=
  if !s.furl.evicting then (false, s)
  else if decide (100 * usedPages s ≤ s.furl.lowPct * hbmPages) then (false, endEviction s)
  else match candidate s with
    | none => (false, endEviction s)
    | some (p, x) =>
      let n := lbasOf x.bytes
      let room := decide (spilledBytes s + 4096 * n ≤ s.furl.quotaGib * 2 ^ 30)
      let mark (s : State) : State := modSlot p (fun x => { x with evictAsked := true }) s
      let ask (op : Nat) : Bool × State := (!locUp (homeOf x.key) s, furlSend (homeOf x.key) (.evict x.key op) (mark s))
      if x.orphaned then (true, if x.orphans = 0 && refsOf x.key s = 0 then freeSlot p s else mark s)
      else if s.furl.quotaGib = 0 then ask 0
      else if room then ask (if (spillPlace n s).isSome then 1 else 0)
      else match oldestSpilled s with
        | some k => (!locUp (homeOf k) s, furlSend (homeOf k) (.evict k 0) (modSpilled k (fun x => { x with evictAsked := true }) s))
        | none => ask 0

/-- Eviction goes on until an answer is awaited or it ends; every step marks or frees a block. -/
def evictRun : Nat → State → State
  | 0, s => s
  | n + 1, s => match evictStep s with
    | (true, s1) => evictRun n s1
    | (false, s1) => s1

/-- Go on evicting. -/
def evictNext (s : State) : State := evictRun (s.furl.pool.length + s.furl.spilled.length + 1) s

/-- A pool owner whose HBM use reaches HIGH_PCT starts evicting (R346); blocks of purged domains are asked for again. -/
def evictionStart (s : State) : State :=
  let s1 := if useAtLeast s.furl.highPct s && !s.furl.evicting then evictNext (modFurl (fun u => { u with evicting := true }) s) else s
  s1.furl.purging.foldl (fun s (q : Nat × Bool) =>
    let ks := (s.furl.pool.filter (fun c => c.2.live && c.2.key ≠ 0 && c.2.pdom = q.1)).map (fun c => c.2.key) ++
      (if q.2 then (s.furl.spilled.filter (fun c => c.2.live && c.2.pdom = q.1)).map (·.1) else [])
    ks.foldl (fun s k => furlSend (homeOf k) (.evict k 0) s) s) s1

/-- The owner tells the home that a block is lost (R349, R470). -/
def reportLost (key : Nat) (s : State) : State := furlSend (homeOf key) (.evict key 2) s

/-- Slots whose block holds a poisoned word that has not been reported. -/
def newlyLost (s : State) : List (Nat × Nat) :=
  (s.furl.pool.filter (fun c => c.2.live && c.2.key ≠ 0 && !c.2.lost &&
    (badWords (slotAddr c.1) c.2.bytes s.mem).any (fun w => Tab.get s.mem.ecc w = .poisoned))).map (fun c => (c.1, c.2.key))

/-- The owner has found poisoned words in blocks of its pool: their homes learn it (R349, Table 13.2). -/
def lostBlocks (s : State) : State :=
  (newlyLost s).foldl (fun s c => reportLost c.2 (modSlot c.1 (fun x => { x with lost := true }) s)) s

/-- Drop a key's copies on this device. -/
def dropCopies (key : Nat) (s : State) : State :=
  let s1 := match slotOfKey key s with | some p => freeSlot p s | none => s
  dropSpilled key s1

/-- A granted spill begins (R343): a block with a word that cannot be corrected is lost; without room, quota or a drive the move ends
with the block in HBM (R347, R471), and eviction goes on. -/
def startSpill (key : Nat) (s : State) : State :=
  match slotOfKey key s with
  | none => s
  | some p =>
    let x := Tab.get s.furl.pool p
    let n := lbasOf x.bytes
    match memRead (slotAddr p) x.bytes s with
    | (none, s1) => evictNext (reportLost key (modSlot p (fun x => { x with lost := true }) s1))
    | (some _, s1) =>
      let may : Bool := decide (spilledBytes s + 4096 * n ≤ s.furl.quotaGib * 2 ^ 30) && !(Tab.get s.furl.spilled key).live
      match if may then spillPlace n s1 else none with
      | some (d, a) =>
        nvSubmit d .write (.spill key) a n (slotAddr p) (takeRun d key a n (modSlot p (fun x => { x with moving := true }) s1))
      | none => evictNext (furlSend (homeOf key) (.moved key false (slotAddr p)) s1)

/-- EVICT_ACK at the owner. -/
def ownerAck (src key op : Nat) (granted : Bool) (s : State) : State :=
  if op = 4 then dropCopies key s
  else if op = 3 then
    if granted then match slotOfKey key s with | some p => evictNext (freeSlot p s) | none => s
    else evictNext (dropSpilled key (match slotOfKey key s with | some p => modSlot p (fun x => { x with moving := false }) s | none => s))
  else if !granted then evictNext s
  else if op = 1 then startSpill key s
  else evictNext (furlSend src (.moved key false 0) (countFurl 12 (dropCopies key s)))

/-- The last command of a spill is over. A block that was freed, or found lost, meanwhile leaves no NVMe copy (R349). -/
def spillEnded (key : Nat) (ok : Bool) (s : State) : State :=
  let d := if (driveOf 0 s).runs.any (fun r => r.key = key) then 0 else 1
  match slotOfKey key s, (driveOf d s).runs.find? (fun r => r.key = key) with
  | none, _ => dropRun d key s
  | some _, none => s
  | some p, some r =>
    let x := Tab.get s.furl.pool p
    let stay (s : State) : State := modSlot p (fun x => { x with moving := false }) (dropRun d key s)
    if x.lost then evictNext (stay s)
    else if ok then
      furlSend (homeOf key) (.moved key true (nvmeLoc d r.first)) (countFurl 13
        (modSpilled key (fun _ => { live := true, drive := d, lba := r.first, bytes := 4096 * r.lbas, pdom := x.pdom, tag := x.tag,
                                    at_ := x.lastUse }) s))
    else evictNext (furlSend (homeOf key) (.moved key false (slotAddr p)) (stay s))

/-- What the owner tells of the end of a restore: its home, or, where that is lost, this device alone, which holds the block as an
orphan (R18, R352). -/
def restoreTold (key : Nat) (orphaned : Bool) (m : FurlMsg) (ev addr : Nat) (s : State) : State :=
  if orphaned then furlSend (devNum s) (.notify key ev (devNum s) addr 0) s else furlSend (homeOf key) m s

/-- A restore ends without the block in HBM: the source rises and the home ends MOVING on NVMe (R345). -/
def restoreFailed (key : Nat) (s : State) : State :=
  let x := Tab.get s.furl.spilled key
  let s1 := match x.restoreTo with | some p => freeSlot p s | none => s
  restoreTold key x.orphaned (.moved key true (nvmeLoc x.drive x.lba)) 3 0 (raise 0x13A (modSpilled key (fun x => { x with restoreTo := none }) s1))

/-- RESTORE forwarded to the owner. A block that has been lost meanwhile is reported again (R470); one whose home was lost as its
restore ended is in HBM already, or gone. -/
def ownerRestore (key : Nat) (s : State) : State :=
  let x := Tab.get s.furl.spilled key
  if !x.live then
    match orphanOfKey key s with
    | some p => furlSend (devNum s) (.notify key 0 (devNum s) (slotAddr p) 0) s
    | none => if locUp (homeOf key) s then reportLost key s else furlSend (devNum s) (.notify key 3 (devNum s) 0 0) s
  else if x.restoreTo.isSome then s
  else if !driveUp x.drive s then restoreFailed key s
  else match reserveSlot x.pdom x.tag x.bytes s with
    | (some p, s1) =>
      nvSubmit x.drive .read (.restore key) x.lba (lbasOf x.bytes) (slotAddr p) (modSpilled key (fun x => { x with restoreTo := some p }) s1)
    | (none, s1) => restoreFailed key s1

/-- The last command of a restore is over. -/
def restoreEnded (key : Nat) (ok : Bool) (s : State) : State :=
  let x := Tab.get s.furl.spilled key
  if !ok then restoreFailed key s
  else match x.restoreTo with
    | some p =>
      restoreTold key x.orphaned (.moved key false (slotAddr p)) 0 (slotAddr p) (countFurl 14
        (dropSpilled key (modSlot p (fun y => { y with key := key, orphaned := x.orphaned, orphans := x.orphans }) s)))
    | none => s

/-- ORPHAN_HOLD at LOC_DEV (R352). -/
def ownerOrphan (src key : Nat) (hold : Bool) (s : State) : State :=
  match (match orphanOfKey key s with | some p => some p | none => slotOfKey key s) with
  | some p =>
    let s1 := modSlot p (fun x => { x with orphaned := true, orphans := setBit x.orphans src hold }) s
    if !hold && (Tab.get s1.furl.pool p).orphans = 0 then freeSlot p s1 else s1
  | none =>
    if (Tab.get s.furl.spilled key).live then
      let s1 := modSpilled key (fun x => { x with orphaned := true, orphans := setBit x.orphans src hold }) s
      if !hold && (Tab.get s1.furl.spilled key).orphans = 0 then dropSpilled key s1 else s1
    else s

/-- Every spilled block of a drive is lost (R470). -/
def driveLost (d : Nat) (s : State) : State :=
  let ks := (s.furl.spilled.filter (fun c => c.2.live && c.2.drive = d)).map (·.1)
  ks.foldl (fun s k =>
    let x := Tab.get s.furl.spilled k
    let s1 := match x.restoreTo with | some p => freeSlot p s | none => s
    reportLost k (modFurl (fun u => { u with spilled := Tab.put u.spilled k default }) s1))
    (modDrive d (fun u => { u with runs := [] }) s)

end Sys2Proof.Machine
end

