-- ==== Sys2Proof/Machine/Image.lean ====
section
/-! DEFINITION. The VXE image: its tables, kernel records, relocations and the checks of the loader (Tables 11.4 - 11.11,
11.14, R273 - R276, R708). Where a field out of its table has no code in Table 11.11, 0x0004 reports it (log entry 12). -/

namespace Sys2Proof.Machine

/-! ### Sections -/

/-- Entry i of the section table: TYPE, FLAGS, ALIGN_LOG2, FILE_OFF, FILE_LEN, MEM_LEN. -/
structure SectHdr where
  typ : Nat
  flags : Nat
  align : Nat
  off : Nat
  len : Nat
  memLen : Nat
  deriving DecidableEq, Repr, Inhabited

/-- The section table entry at a byte offset. -/
def sectHdr (img : List Byte) (o : Nat) : SectHdr :=
  { typ := fieldN img o 1, flags := fieldN img (o + 1) 1, align := fieldN img (o + 2) 1, off := fieldN img (o + 4) 4,
    len := fieldN img (o + 8) 4, memLen := fieldN img (o + 16) 8 }

/-- The number of sections, and the section table's offset. -/
def nSects (img : List Byte) : Nat := fieldN img 6 2

def sectTable (img : List Byte) : Nat := fieldN img 28 4

/-- The section headers of an image. -/
def sectHdrs (img : List Byte) : List SectHdr := (List.range (nSects img)).map (fun i => sectHdr img (sectTable img + 32 * i))

/-- CODE and DATA are placed in HBM. -/
def placed (t : Nat) : Bool := t = 1 || t = 6

/-- The size that a section's content is made of. -/
def entrySize (t : Nat) : Nat :=
  if t = 1 then 8 else if t = 2 then 32 else if t = 3 ∨ t = 4 then 16 else if t = 7 then 24 else if t = 8 then 8 else 1

/-- Entry k of a section's content. -/
def entryOf (x : Sect) (k : Nat) : List Byte := slice x.file (entrySize x.typ * k) (entrySize x.typ)

/-- How many entries a section holds. -/
def nEntries (x : Sect) : Nat := x.file.length / entrySize x.typ

/-- The entries of a section. -/
def entriesOf (x : Sect) : List (List Byte) := (List.range (nEntries x)).map (entryOf x)

/-- Lay sections out from an offset in the region, in ascending index (R274). -/
def placeAll (img : List Byte) : List SectHdr → Nat → List Sect
  | [], _ => []
  | h :: hs, o =>
    let b := if placed h.typ then roundUp (2 ^ h.align) o else o
    { typ := h.typ, flags := h.flags, base := b, memLen := h.memLen, file := slice img h.off h.len,
      written := !(h.typ = 6 && bitN h.flags 1) } :: placeAll img hs (if placed h.typ then b + h.memLen else o)

/-! ### Kernel records (Table 11.7) -/

/-- A kernel record. -/
structure Kern where
  die : Nat
  wdog : Nat
  nt : Nat
  nh : Nat
  maxSlots : Nat
  ng : Nat
  sheets : Nat
  cleats : Nat
  hprogMax : Nat
  kinds : List Nat
  consts : List Nat
  /-- CODE section of each logical tile, HPROG section of each Halyard. -/
  tiles : List Nat
  hals : List Nat
  deriving DecidableEq, Repr, Inhabited

/-- The kernel record of some bytes. -/
def kernOf (b : List Byte) : Kern :=
  let nt := fieldN b 2 2
  let nh := fieldN b 4 2
  { die := fieldN b 0 1, wdog := fieldN b 1 1, nt := nt, nh := nh, maxSlots := fieldN b 6 2, ng := fieldN b 8 2,
    sheets := fieldN b 10 2, cleats := fieldN b 12 2, hprogMax := fieldN b 16 4,
    kinds := (List.range 8).map (fun i => fieldN b (32 + i) 1), consts := (List.range 8).map (fun i => fieldN b (40 + 8 * i) 8),
    tiles := (List.range nt).map (fun i => fieldN b (128 + 4 * i) 2),
    hals := (List.range nh).map (fun i => fieldN b (128 + 4 * nt + 4 * i) 2) }

/-- The section at an index, of a type. -/
def sectAt (xs : List Sect) (i : Nat) : Sect := xs.getD i {}

/-- A section index names a section of a type. -/
def isSect (xs : List Sect) (i t : Nat) : Bool := decide (i < xs.length) && (sectAt xs i).typ = t

/-- The kernels of an image. -/
def kernels (xs : List Sect) : List Kern := (xs.filter (fun x => x.typ = 5)).map (fun x => kernOf x.file)

/-- A record's fields lie in Table 11.7. -/
def kernOk (xs : List Sect) (b : List Byte) : Bool :=
  let k := kernOf b
  k.die ≤ 2 && (k.wdog = 0 || (16 ≤ k.wdog && k.wdog ≤ 30)) && 1 ≤ k.nt && k.nt ≤ 64 && 1 ≤ k.nh && k.nh ≤ 32 &&
  1 ≤ k.maxSlots && k.maxSlots ≤ 256 && k.ng ≤ 256 && (k.sheets = 0xFFFF || isSect xs k.sheets 3) &&
  (k.cleats = 0xFFFF || isSect xs k.cleats 4) && 1 ≤ k.hprogMax && k.hprogMax ≤ 16384 && k.kinds.all (· ≤ 6) &&
  b.length = 128 + 4 * (k.nt + k.nh) && k.tiles.all (fun i => isSect xs i 1) && k.hals.all (fun i => isSect xs i 2)

/-! ### Relocations (Tables 11.8 - 11.10, 11.14) -/

/-- A relocation entry. -/
structure Reloc where
  sect : Nat
  typ : Nat
  kind : Nat
  off : Nat
  sym : Nat
  add : Int
  deriving DecidableEq, Repr, Inhabited

/-- The relocation of 24 bytes. -/
def relocOf (b : List Byte) : Reloc :=
  { sect := fieldN b 0 2, typ := fieldN b 2 1, kind := fieldN b 3 1, off := fieldN b 4 4, sym := fieldN b 8 4, add := fieldS b 16 8 }

/-- Every relocation of an image, in table order. -/
def relocsOf (xs : List Sect) : List Reloc := (xs.filter (fun x => x.typ = 7)).flatMap (fun x => (entriesOf x).map relocOf)

/-- Resolved at load. -/
def Reloc.atLoad (r : Reloc) : Bool := r.kind = 1 || r.kind = 2

/-- The entry of its section a relocation patches, and where in the entry OFFSET points. -/
def Reloc.entry (xs : List Sect) (r : Reloc) : Nat := r.off / entrySize (sectAt xs r.sect).typ

def Reloc.inner (xs : List Sect) (r : Reloc) : Nat := r.off % entrySize (sectAt xs r.sect).typ

/-- First byte patched in the section, and how many (Table 11.9). -/
def Reloc.span (xs : List Sect) (r : Reloc) : Nat × Nat :=
  let b := r.off - r.inner xs
  if r.typ = 1 then (b + (if r.inner xs = 24 then 24 else 8), 8) else if r.typ = 2 then (b + 2, 1) else if r.typ = 3 then (b + 4, 2)
  else if r.typ = 4 then (b, 4) else if r.typ = 5 then (b, 16) else if r.typ = 6 then (b, 2)
  else if r.typ = 7 then (b + (if (sectAt xs r.sect).typ = 3 then 14 else 8), 2) else (b + 8, 8)

/-- Table 11.14. -/
def Reloc.pairOk (xs : List Sect) (r : Reloc) : Bool :=
  let t := (sectAt xs r.sect).typ
  let k := r.kind
  if r.typ = 1 then t = 2 && (k = 1 || k = 5 || k = 6)
  else if r.typ = 2 then t = 2 && k = 3
  else if r.typ = 3 then t = 2 && k = 4
  else if r.typ = 4 ∨ r.typ = 5 then t = 1 && 1 ≤ k && k ≤ 6
  else if r.typ = 6 then t = 1 && k = 4
  else if r.typ = 7 then (t = 3 || t = 4) && (k = 4 || k = 8)
  else r.typ = 8 && t = 2 && k = 7 && (let o := fieldN (entryOf (sectAt xs r.sect) (r.entry xs)) 0 1; o = 1 || o = 3)

/-- OFFSET points at the start of an entry of SECT or at the field patched, and what it patches lies inside SECT. -/
def Reloc.offOk (xs : List Sect) (r : Reloc) : Bool :=
  let i := r.inner xs
  let n := (r.span xs)
  decide (r.off < (sectAt xs r.sect).file.length) && decide (n.1 + n.2 ≤ (sectAt xs r.sect).file.length) &&
  (i = 0 || r.off = n.1 || (r.typ = 7 && i = 8))

/-- The kernels that use a section: as a program, or for its entries. -/
def usersOf (xs : List Sect) (i : Nat) : List Kern := (kernels xs).filter (fun k => (k.tiles ++ k.hals ++ [k.sheets, k.cleats]).contains i)

/-- SYM is in range for KIND: a placed section, a logical tile, an ordinal, a batch slot of each kernel that uses the section. -/
def Reloc.symOk (xs : List Sect) (r : Reloc) : Bool :=
  let below (n : Nat) (f : Kern → Nat) : Bool := decide (r.sym < n) && (usersOf xs r.sect).all (fun k => decide (r.sym < f k))
  if r.atLoad then decide (r.sym < xs.length) && placed (sectAt xs r.sym).typ
  else if r.kind = 3 then below 64 Kern.nt else if r.kind = 4 then below 256 Kern.ng
  else if r.kind = 6 then true else below 256 Kern.maxSlots

/-- A row whose IMM is sign-extended (R226). -/
def immSigned (w : W64) : Bool :=
  let f := fieldsOf w
  match formOf f.op with
  | some m => m.imm = .any && f.op ≠ 0x27
  | none => false

/-- The instruction word of 8 bytes. -/
def wordOfBytes (b : List Byte) : W64 := BitVec.ofNat 64 (fieldN b 0 8)

/-- A value fits the field that a relocation of some content patches. -/
def Reloc.fits (xs : List Sect) (r : Reloc) (file : List Byte) (v : Int) : Bool :=
  if r.typ = 1 ∨ r.typ = 8 then 0 ≤ v && v < 2 ^ 64 && v % 64 = 0
  else if r.typ = 2 then 0 ≤ v && v < 128
  else if r.typ = 4 then
    if immSigned (wordOfBytes (slice file (r.span xs).1 8)) then -(2 ^ 31) ≤ v && v < 2 ^ 31 else 0 ≤ v && v < 2 ^ 32
  else if r.typ = 5 then
    -(2 ^ 63) ≤ v && v < 2 ^ 64 && (fieldsOf (wordOfBytes (slice file (r.span xs).1 8))).op = 0x26 &&
    (fieldsOf (wordOfBytes (slice file ((r.span xs).1 + 8) 8))).op = 0x27
  else 0 ≤ v && v < 4096

/-- A number of some bytes, of a value modulo their width. -/
def natOf (n : Nat) (v : Int) : Nat := (v % (256 ^ n : Int)).toNat

/-- Patch a value into a section's content (Table 11.9); the bits a row keeps are kept. -/
def Reloc.apply (xs : List Sect) (r : Reloc) (v : Int) (file : List Byte) : List Byte :=
  let (o, n) := r.span xs
  let old := fieldN file o n
  if r.typ = 2 then patch file o (leBytes 1 (old / 128 * 128 + natOf 1 v % 128))
  else if r.typ = 3 ∨ r.typ = 6 ∨ r.typ = 7 then patch file o (leBytes 2 (old / 4096 * 4096 + natOf 2 v % 4096))
  else if r.typ = 5 then patch (patch file o (leBytes 4 (natOf 4 v))) (o + 8) (leBytes 4 (natOf 8 v / 2 ^ 32))
  else patch file o (leBytes n (natOf n v))

/-- Two relocations patch the same bytes (R276). -/
def clash (xs : List Sect) (a b : Reloc) : Bool :=
  let (p, n) := a.span xs
  let (q, m) := b.span xs
  a.sect = b.sect && decide (p < q + m) && decide (q < p + n)

/-- Some two relocations of a list clash. -/
def anyClash (xs : List Sect) : List Reloc → Bool
  | [] => false
  | r :: rs => rs.any (clash xs r) || anyClash xs rs

/-- A byte range of a section is patched at bind. -/
def boundLater (xs : List Sect) (sect o n : Nat) : Bool :=
  (relocsOf xs).any (fun r => r.sect = sect && !r.atLoad && (let (p, m) := r.span xs; decide (p < o + n) && decide (o < p + m)))

/-! ### Entries (Tables 10.2, 10.3, 11.6) -/

/-- A SHEETS entry: logical tile, Sheet number, Table 10.2. -/
structure SheetEnt where
  tile : Nat
  n : Nat
  raw : Nat
  deriving DecidableEq, Repr, Inhabited

/-- The entry of 16 bytes. -/
def sheetEnt (b : List Byte) : SheetEnt := { tile := fieldN b 0 2, n := fieldN b 2 1, raw := fieldN b 8 8 }

/-- The Sheet a Table 10.2 entry configures (R244). -/
def SheetEnt.sheet (e : SheetEnt) : Sheet :=
  { st := .opened, base := bitsN e.raw 0 15, depth := bitsN e.raw 16 11, fill := bitsN e.raw 32 11, dir := bitsN e.raw 44 2,
    fillAct := bitsN e.raw 46 2, fillCleat := bitsN e.raw 48 12, fillGlobal := bitN e.raw 60 }

/-- The rings of two Sheets overlap. -/
def ringsMeet (a b : Sheet) : Bool := decide (a.base < b.base + b.depth) && decide (b.base < a.base + a.depth)

/-- A CLEATS entry: logical tile, index or ordinal, GLOBAL, ACCESS, INIT_EN, INIT. -/
structure CleatEnt where
  tile : Nat
  raw : Nat
  deriving DecidableEq, Repr, Inhabited

def CleatEnt.idx (e : CleatEnt) : Nat := bitsN e.raw 0 12
def CleatEnt.glob (e : CleatEnt) : Bool := bitN e.raw 12
def CleatEnt.full (e : CleatEnt) : Bool := bitN e.raw 13
def CleatEnt.initEn (e : CleatEnt) : Bool := bitN e.raw 14
def CleatEnt.init (e : CleatEnt) : Nat := bitsN e.raw 32 32

/-- The entry of 16 bytes. -/
def cleatEnt (b : List Byte) : CleatEnt := { tile := fieldN b 0 2, raw := fieldN b 8 8 }

/-- The entries a kernel uses. -/
def kSheets (xs : List Sect) (k : Kern) : List SheetEnt := if k.sheets = 0xFFFF then [] else (entriesOf (sectAt xs k.sheets)).map sheetEnt

def kCleats (xs : List Sect) (k : Kern) : List CleatEnt := if k.cleats = 0xFFFF then [] else (entriesOf (sectAt xs k.cleats)).map cleatEnt

/-- A tile's Cleat is declared with at least an access. -/
def declared (cs : List CleatEnt) (tile idx : Nat) (glob full : Bool) : Bool :=
  cs.any (fun e => e.tile = tile && e.idx = idx && e.glob = glob && (!full || e.full))

/-- A FILL_CLEAT is configured with full access: a tile-local one for the Sheet's tile, a global one for any tile of the dispatch. -/
def fillDeclared (cs : List CleatEnt) (tile : Nat) (h : Sheet) : Bool :=
  cs.any (fun c => c.idx = h.fillCleat && c.glob = h.fillGlobal && c.full && (c.glob || c.tile = tile))

/-- R243, over the entries of one kernel; `late` leaves out what a bind still patches. -/
def sheetOk (nt : Nat) (es : List SheetEnt) (cs : List CleatEnt) (late : Bool) (e : SheetEnt) : Bool :=
  let h := e.sheet
  e.tile < nt && e.n < 32 && !bitN e.raw 15 && bitsN e.raw 27 5 = 0 && !bitN e.raw 43 && bitsN e.raw 61 3 = 0 && h.dir ≤ 2 &&
  h.fillAct ≤ 2 && 2 ≤ h.depth && h.depth ≤ 1024 && h.base + h.depth ≤ 0x8000 && h.fill ≤ h.depth &&
  (es.filter (fun f => f.tile = e.tile && (f.n = e.n || ringsMeet f.sheet h))).length = 1 &&
  (late || h.fillAct ≠ 1 || fillDeclared cs e.tile h)

/-- A CLEATS entry is in rule: a tile-local index below 32, a global one below `ng` (an ordinal, or a Cleat once bound). -/
def cleatOk (nt ng : Nat) (late : Bool) (e : CleatEnt) : Bool :=
  e.tile < nt && bitsN e.raw 15 17 = 0 && (if e.glob then late || e.idx < ng else e.idx < 32)

/-- The Cleat an instruction word names. -/
def namesCleat (w : W64) : Option (Nat × Bool) :=
  let f := fieldsOf w
  if f.op = 0xB4 ∨ f.op = 0xB5 ∨ f.op = 0xB6 ∨ f.op = 0xB7 then some (f.imm % 4096, bitN f.imm 12) else none

/-- Every Cleat that logical tile l's program names is declared for it. -/
def codeCleatsOk (xs : List Sect) (cs : List CleatEnt) (l sect : Nat) : Bool :=
  (List.range (nEntries (sectAt xs sect))).all (fun i =>
    match namesCleat (wordOfBytes (entryOf (sectAt xs sect) i)) with
    | some (n, g) => boundLater xs sect (8 * i) 8 || declared cs l n g false
    | none => true)

/-- R245 for one descriptor: SIGNAL and DONE_SIGNAL need full access, WAIT any. A global Cleat may be declared for any tile. -/
def descCleatOk (cs : List CleatEnt) (phys : Nat → Nat) (d : Desc) : Bool :=
  let full := d.op = 6 || bitN d.flags 0
  if d.op = 6 || d.op = 7 || bitN d.flags 0 then
    cs.any (fun e => e.idx = d.cleat && e.glob = d.glob && (d.glob || phys e.tile = d.tile) && (!full || e.full))
  else true

/-- A KV_LIST template lies inside the body of a LOOP of its program. -/
def inLoop (x : Sect) (k : Nat) : Bool :=
  (List.range (nEntries x)).any (fun i =>
    let d := descOf (entryOf x i)
    d.op = 8 && decide (k < i) && decide (i ≤ k + d.n20))

/-- A relocation gives a read-only DATA section to a descriptor that writes there. -/
def writesRo (xs : List Sect) (r : Reloc) : Bool :=
  let d := descOf (entryOf (sectAt xs r.sect) (r.entry xs))
  r.typ = 1 && r.kind = 1 && (sectAt xs r.sym).typ = 6 && bitN (sectAt xs r.sym).flags 0 &&
  (d.op = 2 || d.op = 4 || (d.op = 5 && r.inner xs = 24))

/-! ### The loader's checks (Table 11.11) -/

/-- Reserved bytes of an image's header, section table and records are zero and its TYPEs are known. -/
def reservedOk (img : List Byte) (xs : List Sect) : Bool :=
  zeroAt img 21 3 && zeroAt img 32 32 && 1 ≤ nSects img && nSects img ≤ 1024 && 1 ≤ fieldN img 24 2 && fieldN img 24 2 ≤ 1024 &&
  isSect xs (fieldN img 26 2) 8 &&
  (List.range (nSects img)).all (fun i =>
    let o := sectTable img + 32 * i
    let t := fieldN img o 1
    ((1 ≤ t && t ≤ 8) || t = 0x0F) && fieldN img (o + 1) 1 < 4 && zeroAt img (o + 3) 1 && zeroAt img (o + 12) 4 && zeroAt img (o + 24) 8) &&
  xs.all (fun x =>
    if x.typ = 3 then (entriesOf x).all (fun b => zeroAt b 3 5)
    else if x.typ = 4 then (entriesOf x).all (fun b => zeroAt b 2 6)
    else if x.typ = 5 then
      let k := kernOf x.file
      zeroAt x.file 14 2 && zeroAt x.file 20 12 && zeroAt x.file 104 24 &&
      (List.range (k.nt + k.nh)).all (fun i => zeroAt x.file (130 + 4 * i) 2)
    else if x.typ = 7 then (entriesOf x).all (fun b => zeroAt b 12 4)
    else if x.typ = 8 then (entriesOf x).all (fun b => zeroAt b 4 4)
    else true)

/-- ALIGN_LOG2, FILE_OFF and the lengths are in rule. -/
def lengthsOk (hs : List SectHdr) : Bool :=
  hs.all (fun h =>
    (if placed h.typ then 6 ≤ h.align && h.align ≤ 30 else h.align = 0) && h.off % 8 = 0 && h.len ≤ h.memLen &&
    h.len % entrySize h.typ = 0 && !(bitN h.flags 1 && (h.typ ≠ 6 || 0 < h.len)))

/-- Where a load-time relocation's value lies: rack global or local. -/
def loadValue (xs : List Sect) (region dev : Nat) (r : Reloc) : Int :=
  (if r.kind = 1 then globalAddr dev (region + (sectAt xs r.sym).base) else region + (sectAt xs r.sym).base : Nat) + r.add

/-- A relocation that the loader accepts: SECT, its pair of Table 11.14, OFFSET and SYM (R708). -/
def Reloc.accepted (xs : List Sect) (r : Reloc) : Bool := decide (r.sect < xs.length) && r.pairOk xs && r.offOk xs && r.symOk xs

/-- Apply the load-time relocations that the loader accepts (R275, R708). -/
def loadRelocs (region dev : Nat) (xs : List Sect) : List Sect :=
  (relocsOf xs).foldl (fun ys r =>
    if r.atLoad && r.accepted xs && r.fits xs (sectAt xs r.sect).file (loadValue xs region dev r) then ys.modify r.sect (fun x => { x with file := r.apply xs (loadValue xs region dev r) x.file }) else ys) xs

/-- Unfenced tiles of a die. -/
def unfenced (d : Nat) (s : State) : Nat := ((List.range 64).filter (fun t => !s.dev.fenced.getLsbD (64 * d + t))).length

/-- A kernel's gang fits the unfenced tiles of some die it allows; a DIE out of Table 11.7 allows nothing to compare with. -/
def gangFits (k : Kern) (s : State) : Bool :=
  2 < k.die ||
  ((k.die = 0 || k.die = 1) && decide (k.nt ≤ unfenced 0 s)) || ((k.die = 0 || k.die = 2) && decide (k.nt ≤ unfenced 1 s))

/-- Every SHEETS entry of a section that no kernel uses is in rule, as far as it can be without a kernel's tiles and Cleats (R275). -/
def looseSheetsOk (es : List SheetEnt) (late : Nat → Bool) : Bool :=
  (List.range es.length).all (fun i => late i || sheetOk 64 es [] true (es.getD i default))

/-- The same of a CLEATS section. -/
def looseCleatsOk (cs : List CleatEnt) (late : Nat → Bool) : Bool := (List.range cs.length).all (fun i => late i || cleatOk 64 256 false (cs.getD i default))

/-- The CLEAT field of a descriptor of a program that no kernel uses is one of Table 8.5. -/
def looseDescOk (d : Desc) : Bool :=
  !(d.op = 6 || d.op = 7 || bitN d.flags 0) || (d.cleatMid = 0 && (d.glob || decide (d.cleat < 32)))

/-- The first error of Table 11.11 that applies, in ascending code, for an image placed in a region of some size at a local
address; `xs` are its sections as placed and `ys` after the load-time relocations. Entries and programs are judged for each kernel whose
record is in Table 11.7, and by themselves where no such kernel uses them. -/
def loadError (img : List Byte) (len region size dev : Nat) (xs ys : List Sect) (s : State) : Option Nat :=
  let hs := sectHdrs img
  let rs := relocsOf xs
  let ks := kernels xs
  let good := ((xs.filter (fun x => x.typ = 5)).filter (fun x => kernOk xs x.file)).map (fun x => kernOf x.file)
  let loose := (List.range xs.length).filter (fun i => !good.any (fun k => (k.tiles ++ k.hals ++ [k.sheets, k.cleats]).contains i))
  let top := xs.foldl (fun m x => if placed x.typ then max m (x.base + x.memLen) else m) 0
  if !(fieldN img 0 4 = 0x00455856) || !(fieldN img 4 2 = 1) || !(fieldN img 20 1 = 0xB0) then some 0x0001
  else if !(fieldN img 12 4 = crc32 (patch img 12 [0, 0, 0, 0])) then some 0x0002
  else if !(fieldN img 8 4 = len) || !(sectTable img % 8 = 0) || decide (len < sectTable img + 32 * nSects img) ||
    hs.any (fun h => decide (len < h.off + h.len)) then some 0x0003
  else if !reservedOk img xs then some 0x0004
  else if !lengthsOk hs then some 0x0005
  else if size < top then some 0x0006
  else if !ks.all (fun k => gangFits k s) then some 0x0007
  else if xs.any (fun x => x.typ = 1 && decide (65536 < x.file.length)) then some 0x0009
  else if (List.range ys.length).any (fun i => (sectAt ys i).typ = 1 && (List.range (nEntries (sectAt ys i))).any (fun w =>
      !boundLater xs i (8 * w) 8 && !legal (fieldsOf (wordOfBytes (entryOf (sectAt ys i) w))))) then some 0x000A
  else if good.any (fun k => (List.range (kSheets ys k).length).any (fun i =>
      !sheetOk k.nt (kSheets ys k) (kCleats ys k) (boundLater xs k.sheets (16 * i) 16) ((kSheets ys k).getD i default))) ||
      loose.any (fun i => (sectAt ys i).typ = 3 &&
        !looseSheetsOk ((entriesOf (sectAt ys i)).map sheetEnt) (fun j => boundLater xs i (16 * j) 16)) then some 0x000B
  else if good.any (fun k =>
      (List.range (kCleats ys k).length).any (fun i =>
        !cleatOk k.nt k.ng (boundLater xs k.cleats (16 * i) 16) ((kCleats ys k).getD i default)) ||
      (List.range k.nt).any (fun l => !codeCleatsOk ys (kCleats ys k) l (k.tiles.getD l 0)) ||
      k.hals.any (fun h => (List.range (nEntries (sectAt ys h))).any (fun i =>
        !boundLater xs h (32 * i) 8 && !descCleatOk (kCleats ys k) id (descOf (entryOf (sectAt ys h) i))))) ||
      loose.any (fun i =>
        ((sectAt ys i).typ = 4 && !looseCleatsOk ((entriesOf (sectAt ys i)).map cleatEnt) (fun j => boundLater xs i (16 * j) 16)) ||
        ((sectAt ys i).typ = 2 && (List.range (nEntries (sectAt ys i))).any (fun j =>
          !boundLater xs i (32 * j) 8 && !looseDescOk (descOf (entryOf (sectAt ys i) j))))) then some 0x000C
  else if rs.any (fun r => !r.accepted xs) || anyClash xs rs ||
      rs.any (fun r => r.atLoad && !r.fits xs (sectAt xs r.sect).file (loadValue xs region dev r)) then some 0x000D
  else if rs.any (fun r => (r.typ = 8 && inLoop (sectAt xs r.sect) (r.entry xs)) || writesRo xs r) then some 0x000E
  else if xs.any (fun x => x.typ = 5 && !kernOk xs x.file) then some 0x000F
  else if (entriesOf (sectAt xs (fieldN img 26 2))).any (fun b =>
      2 < fieldN b 0 1 || 2 < fieldN b 1 1 || !isSect xs (fieldN b 2 2) 5) then some 0x0010
  else none

/-- The completion status of a loader error. -/
def loadStatus (e : Nat) : Status := if e = 6 ∨ e = 7 ∨ e = 8 then .nospc else .inval

/-- BLOCK_BYTES as declared at the start of the lowest-indexed DATA section, 0 when Furl does not use the model (R325). -/
def blockBytesOf (v : Nat) : Nat := if v % 64 = 0 && 64 ≤ v && v ≤ 0x4000000 then v else 0

end Sys2Proof.Machine
end

