-- ==== Sys2Proof/Machine/Load.lean ====
section
/-! DEFINITION. MODEL_LOAD, MODEL_UNLOAD and WEIGHTS_LOAD (Table 7.7, R273 - R279, R325). -/

namespace Sys2Proof.Machine

/-- A context uses a model. -/
def modelUsed (i : Nat) (s : State) : Bool := s.srv.ctxs.any (fun c => c.2.live && c.2.model = i)

/-- Write a placed section into the region: its file, zero-filled to MEM_LEN (R274). -/
def putSect (region : Nat) (x : Sect) (s : State) : State :=
  if placed x.typ then
    memWrite (region + x.base) x.file (zeroRange (region + x.base) x.memLen s)
  else s

/-- A model names a handle with the ownership of its kind; a SHARED model serves every tenant. -/
def modelChecks (c : Cmd) (h : Nat) (s : State) : List (Bool × Status × Nat) :=
  let m := modelOf (h % 65536) s
  objChecks c h 65536 m.gen m.live (if m.shared then mbFn c.mb s else m.fn) s

/-- BLOCK_BYTES of a list of sections whose files are given. -/
def declaredBlock (xs : List Sect) : Nat :=
  match xs.find? (fun x => x.typ = 6) with
  | some x => blockBytesOf (fieldN x.file 0 4)
  | none => 0

/-- MODEL_LOAD. -/
def doModelLoad (c : Cmd) (_r : Nat × Nat) (s : State) : State × Answer :=
  let p := payloadOf c
  let len := fieldN p 8 4
  let rh := fieldN p 12 4
  let rg := regionOf (rh % 65536) s
  let tn := fieldN p 24 2
  let fl := fieldN p 26 1
  let img := (readHost (mbReq c.mb s) c.rd.data s).map (fun b => slice b 0 len)
  let idx := freeIdx s.srv.models (fun m => m.live) 65536
  checkAll
    [ [ (isTenant c s && bitN fl 0, .perm, 0), (badTenant tn, .inval, 32), (2 ≤ fl, .inval, 34) ],
      objChecks c rh 65536 rg.gen rg.live rg.fn s,
      [ (otherTenant c tn s || !hasHbmKey tn s, .noent, 0), (idx.isNone, .nospc, 0), (img.isNone, .fault, 1) ] ]
    (fun _ =>
      let b := img.getD []
      let region := rg.page * 0x200000
      let xs := placeAll b (sectHdrs b) 0
      let ys := loadRelocs region (devNum s) xs
      match loadError b len region (rg.pages * 0x200000) (devNum s) xs ys s with
      | some e => (s, .now (loadStatus e) 0xFFFF (leBytes 8 0 ++ leBytes 4 e))
      | none =>
        let i := idx.getD 0
        let s1 := ys.foldl (fun s x => putSect region x s) s
        let m : Model :=
          { gen := firstGen (modelOf i s).gen, live := true, fn := mbFn c.mb s, tenant := tn, shared := bitN fl 0, tag := fieldN p 16 8, crc := fieldN b 12 4,
            region := rh % 65536, layers := fieldN b 24 2, stepsSect := fieldN b 26 2
            sects := ys.map (fun x => if placed x.typ then { x with base := region + x.base } else x), blockBytes := declaredBlock ys }
        okWith (leBytes 4 (handleOf i m.gen) ++ leBytes 4 ((kernels ys).foldl (fun n k => max n k.nt) 0)) (modModel i (fun _ => m) s1)) s

/-- Free a model's index. -/
def dropModel (i : Nat) (s : State) : State := modModel i (fun m => { gen := nextGen m.gen }) s

/-- MODEL_UNLOAD. Its Furl blocks come first in the order of eviction because no live model carries their tag. -/
def doModelUnload (c : Cmd) (_r : Nat × Nat) (s : State) : State × Answer :=
  let h := fieldN (payloadOf c) 0 4
  let m := modelOf (h % 65536) s
  checkAll
    [ objChecks c h 65536 m.gen m.live m.fn s, [(modelUsed (h % 65536) s, .busy, 0)] ]
    (fun _ => okWith [] (dropModel (h % 65536) s)) s

/-! ### WEIGHTS_LOAD (R277 - R279) -/

/-- A range of local memory that a rack global address may name as a source: HBM, the Mast SRAMs or staging SRAM (Table 13.1, R301). -/
def sourceRange (a n : Nat) : Bool :=
  let whole (p : Nat → Bool) : Bool := p a && p (a + n - 1)
  whole inHbm || whole (inMast 0) || whole (inMast 1) || whole inStaging

/-- Section k of model i has been written with `len` bytes. -/
def weightsWritten (i k len : Nat) (s : State) : State :=
  let m := modelOf i s
  let x := m.sects.getD k {}
  let first := m.sects.findIdx? (fun y => y.typ = 6)
  modModel i (fun m => { m with
    sects := m.sects.modify k (fun y => { y with written := y.written || len = y.memLen })
    blockBytes := if first = some k && 4 ≤ len then blockBytesOf (fieldN (rawRead x.base 4 s) 0 4) else m.blockBytes }) s

/-- A WEIGHTS_LOAD whose READs have all ended completes. A section counts as written only where the command then completes with OK. -/
def loadEnd (l : WeightLoad) (s0 : State) : State :=
  let s := modShr (fun u => { u with loads := u.loads.filter (fun x => x.ref ≠ l.ref) }) s0
  match l.bad with
  | some d => finish l.ref .fault d [] s
  | none =>
    let open_ : Bool := s.host.cmds.any (fun o => isRef l.ref.1 l.ref.2 o && o.known?.isNone)
    finish l.ref .ok 0 [] (if open_ then weightsWritten l.model l.sect l.len s else s)

/-- Every WEIGHTS_LOAD whose READs have all ended. -/
def loadsDone (s : State) : State := (s.shr.loads.filter (fun l => l.left = 0)).foldl (fun s l => loadEnd l s) s

/-- WEIGHTS_LOAD. From a rack global address of this device the source is local memory, and CONN is not used; another device's bytes come by
READs on CONN, and the command waits for them. A source word that cannot be corrected gives DETAIL 3 (Table 13.2), a transfer error 1, a
Shroud timeout 2. -/
def doWeightsLoad (c : Cmd) (r : Nat × Nat) (s : State) : State × Answer :=
  let p := payloadOf c
  let h := fieldN p 0 4
  let i := h % 65536
  let m := modelOf i s
  let k := fieldN p 4 4
  let x := m.sects.getD k {}
  let a := fieldN p 8 8
  let len := fieldN p 16 8
  let src := fieldN p 24 1
  let conn := fieldN p 28 4
  let dev := a / 2 ^ 45
  let isLocal := src = 1 && dev = devNum s
  let (data, s1) := if isLocal then memRead (bitsN a 0 45) len s else ((readHost (mbReq c.mb s) c.rd.data s).map (fun b => slice b 0 len), s)
  checkAll
    [ [ (2 ≤ src, .inval, 32), (!zeroAt p 25 3, .inval, 33), (src = 0 && conn ≠ 0, .inval, 36),
        (src = 1 && (72 ≤ dev || !sourceRange (bitsN a 0 45) len), .inval, 16) ],
      objChecks c h 65536 m.gen m.live m.fn s,
      (if src = 1 && !isLocal then connChecks c conn s else []),
      [ (m.sects.length ≤ k || x.typ ≠ 6, .inval, 12), (x.memLen < len, .inval, 24), (modelUsed i s, .busy, 0) ] ]
    (fun _ =>
      if src = 1 && !isLocal then
        let n := ceilDiv len 0x1000000
        let l : WeightLoad := { ref := r, model := i, sect := k, len := len, left := n }
        let s2 := postReads (.load r) (conn % 65536) (bitsN a 0 45) x.base len n (modShr (fun u => { u with loads := u.loads ++ [l] }) s)
        (loadsDone s2, .later)
      else match data with
        | none => (s1, .now .fault (if isLocal then 3 else 1) [])
        | some b => okWith [] (weightsWritten i k len (memWrite x.base b s1))) s

end Sys2Proof.Machine
end

