-- ==== Sys2Proof/Machine/Bind.lean ====
section
/-! DEFINITION. Binding one STEPS entry for a batch: the plan of a step, bind-time values, the region table, the dispatch
information table, and the start of the gang (Binding and dispatch, Tables 11.8 - 11.13, R280 - R286, R202, R536, R537). -/

namespace Sys2Proof.Machine

/-! ### The plan of a step -/

/-- A STEPS entry: WHEN, PHASE, KERNEL section. -/
structure StepEnt where
  at_ : Nat
  phase : Nat
  kern : Nat
  deriving DecidableEq, Repr, Inhabited

/-- The STEPS entries of a model that a phase runs. -/
def stepEnts (m : Model) (decode : Bool) : List StepEnt :=
  ((entriesOf (sectAt m.sects m.stepsSect)).map (fun b =>
    { at_ := fieldN b 0 1, phase := fieldN b 1 1, kern := fieldN b 2 2 })).filter
    (fun e => e.phase = 2 || e.phase = b2n decode)

/-- The dispatches of a step in order: layer and KERNEL section. -/
def planOf (m : Model) (decode : Bool) : List (Nat × Nat) :=
  let es := stepEnts m decode
  (es.filter (fun e => e.at_ = 1)).map (fun e => (0, e.kern)) ++
  (List.range m.layers).flatMap (fun l => (es.filter (fun e => e.at_ = 0)).map (fun e => (l, e.kern))) ++
  (es.filter (fun e => e.at_ = 2)).map (fun e => (m.layers - 1, e.kern))

/-- The kernel of a KERNEL section. -/
def kernAt (m : Model) (i : Nat) : Kern := kernOf (sectAt m.sects i).file

/-! ### A context's KV -/

/-- Bytes of one slot of private KV of a model. -/
def privSlot (m : Model) : Nat := if m.blockBytes = 0 then 4096 else roundUp 4096 m.blockBytes

/-- Rack global address of a context's private KV area, and of its block i. -/
def privBase (x : Ctx) (s : State) : Nat := globalAddr (devNum s) (x.privPage * 0x200000)

def blkAddr (x : Ctx) (m : Model) (i : Nat) (b : Blk) (s : State) : Nat :=
  if b.kind = .priv || b.kind = .asked then privBase x s + i * privSlot m else globalAddr b.dev b.addr

/-- A block of the sequence holds its KV. -/
def Blk.mappedReady (b : Blk) : Bool := b.kind = .mapped && !b.nvme

/-- How many positions of block i of an n-token sequence there are. -/
def blkLen (n i : Nat) : Nat := min 32 (n - 32 * i)

/-- The first position whose KV the context has still to compute, and how many follow without crossing a block that Furl serves. -/
def nextChunk (n : Nat) : Nat → List Blk → Option (Nat × Nat)
  | _, [] => none
  | i, b :: bs =>
    let own := b.kind = .priv || b.kind = .building
    if own && b.done < blkLen n i then some (32 * i + b.done, blkLen n i - b.done + run n (i + 1) bs) else nextChunk n (i + 1) bs
where
  /-- Positions of the blocks that go on from the first one. -/
  run (n : Nat) : Nat → List Blk → Nat
    | _, [] => 0
    | i, b :: bs => if (b.kind = .priv || b.kind = .building) && b.done = 0 then blkLen n i + run n (i + 1) bs else 0

/-- Every position of the sequence has its KV and every mapped block is ready (R26). -/
def kvReady (n : Nat) : Nat → List Blk → Bool
  | _, [] => true
  | i, b :: bs =>
    (match b.kind with
     | .mapped => !b.nvme
     | .priv => decide (blkLen n i ≤ b.done)
     | .building => decide (blkLen n i ≤ b.done)
     | _ => false) && kvReady n (i + 1) bs

/-- The key of the first block the context waits on. -/
def firstWaiting (x : Ctx) : Option Nat := (x.blocks.find? (fun b => b.kind = .waiting)).map (·.key)

/-! ### Bind-time values -/

/-- What a bind resolves against. -/
structure BindEnv where
  m : Model
  k : Kern
  layer : Nat
  slots : List (Option Slot)
  tiles : List Nat
  hals : List Nat
  gcl : List Nat
  /-- The dispatch-owned Cleat that stands at 1. -/
  ready : Nat
  /-- Rack global addresses. -/
  info : Nat
  scratch : Nat
  deriving DecidableEq, Repr, Inhabited

/-- The slot of an ordinal. -/
def BindEnv.slot (e : BindEnv) (i : Nat) : Option Slot := e.slots.getD i none

/-- The value of a bind-time source; none where it names nothing. -/
def BindEnv.value (e : BindEnv) (r : Reloc) (s : State) : Option Int :=
  let plus := fun (n : Nat) => some ((n : Int) + r.add)
  if r.kind = 3 then (e.tiles[r.sym]?).bind plus
  else if r.kind = 4 then (e.gcl[r.sym]?).bind plus
  else if r.kind = 5 then plus (match e.slot r.sym with | some t => privBase (ctxOf t.ctx s) s | none => e.scratch)
  else if r.kind = 6 then plus e.info
  else if r.kind = 8 then
    plus (match (e.slot r.sym).bind (fun t => firstWaiting (ctxOf t.ctx s)) with
      | some key => Tab.get s.furl.cleats key - 1
      | none => e.ready)
  else none

/-- The bind-time relocations of a section, but for KV_LIST. -/
def bindRelocs (xs : List Sect) (i : Nat) : List Reloc :=
  (relocsOf xs).filter (fun r => r.sect = i && !r.atLoad && r.typ ≠ 8)

/-- A section's content with its bind-time values; none where one does not fit (0x0403). -/
def BindEnv.patched (e : BindEnv) (i : Nat) (file : List Byte) (s : State) : Option (List Byte) :=
  (bindRelocs e.m.sects i).foldl (fun acc r =>
    match acc, e.value r s with
    | some f, some v => if r.fits e.m.sects f v then some (r.apply e.m.sects v f) else none
    | _, _ => none) (some file)

/-- The addresses a KV_LIST template of a slot expands to. -/
def BindEnv.blockAddrs (e : BindEnv) (i : Nat) (s : State) : List Nat :=
  match e.slot i with
  | none => []
  | some t =>
    let x := ctxOf t.ctx s
    (List.range x.blocks.length).map (fun k => blkAddr x e.m k (x.blocks.getD k {}) s)

/-- The KV_LIST relocation of a descriptor. -/
def kvListOf (xs : List Sect) (i k : Nat) : Option Reloc :=
  (relocsOf xs).find? (fun r => r.sect = i && r.typ = 8 && r.entry xs = k)

/-- The descriptors of HPROG section i after expansion; none where an address does not fit. -/
def BindEnv.expand (e : BindEnv) (i : Nat) (file : List Byte) (s : State) : Option (List (List Byte)) :=
  let x : Sect := { sectAt e.m.sects i with file := file }
  ((List.range (nEntries x)).foldl (fun acc k =>
    match acc with
    | none => none
    | some l =>
      match kvListOf e.m.sects i k with
      | none => some (entryOf x k :: l)
      | some r =>
        let vs : List Int := (e.blockAddrs r.sym s).map (fun (a : Nat) => Int.ofNat a + r.add)
        if vs.all (fun v => 0 ≤ v && v < 2 ^ 64 && v % 64 = 0) then
          some ((vs.map (fun v => patch (entryOf x k) 8 (leBytes 8 v.toNat))).reverse ++ l)
        else none) (some [])).map List.reverse

/-- How many descriptors HPROG section i expands to. -/
def expandedLen (m : Model) (slots : List (Option Slot)) (i : Nat) (s : State) : Nat :=
  (List.range (nEntries (sectAt m.sects i))).foldl (fun n k =>
    n + (match kvListOf m.sects i k with
      | none => 1
      | some r => match slots.getD r.sym none with | some t => (ctxOf t.ctx s).blocks.length | none => 0)) 0

/-! ### The region table -/

/-- Merge runs of ascending ranges. -/
def mergeRuns : List (Nat × Nat) → List (Nat × Nat)
  | [] => []
  | (a, n) :: r =>
    match mergeRuns r with
    | (b, m) :: t => if a + n = b then (a, n + m) :: t else (a, n) :: (b, m) :: t
    | [] => [(a, n)]

/-- The Furl pool of this device, as runs of pages. -/
def poolRuns (s : State) : List (Nat × Nat) :=
  mergeRuns ((s.mem.pages.filter (fun c => match c.2.use with | .pool _ => true | _ => false)).map (fun c => (c.1, 1)))

/-- The region table of a dispatch whose area of Mast SRAM holds the information table and the scratch. A peer's Furl pool is listed as
the HBM it lies in: the peer's own windows admit its pool only, and answer an address outside it with ACCESS (log entry 54). -/
def BindEnv.regions (e : BindEnv) (s : State) : List Region :=
  let g := globalAddr (devNum s)
  let xs := e.slots.filterMap (fun t => t.map (fun t => ctxOf t.ctx s))
  let n := privSlot e.m
  let datas := (e.m.sects.filter (fun x => x.typ = 6 && 0 < x.memLen)).map (fun x => { lo := g x.base, len := x.memLen, ro := bitN x.flags 0 : Region })
  let privs := (xs.filter (fun x => 0 < x.privPages)).map (fun x => { lo := privBase x s, len := x.privPages * 0x200000, ro := false : Region })
  let builds := xs.flatMap (fun x => (x.blocks.filter (fun b => b.kind = .building)).map (fun b => { lo := globalAddr b.dev b.addr, len := n, ro := false : Region }))
  let own := (poolRuns s).map (fun r => { lo := g (r.1 * 0x200000), len := r.2 * 0x200000, ro := true : Region })
  let peers := (xs.flatMap (fun x => (x.blocks.filter (fun b => (b.kind = .mapped || b.kind = .waiting) && b.dev ≠ devNum s)).map (·.dev))).eraseDups
  let peerPools := (peers.mergeSort (fun a b => a ≤ b)).map (fun d => { lo := globalAddr d 0, len := 0x6000000000, ro := true : Region })
  let frames := xs.filterMap (fun x => (x.req.bind (·.frame)).map (fun f =>
    let y := fctxOf f.1 s
    { lo := g (y.base s + y.slotOff f.2), len := y.slotBytes y.width y.height, ro := true : Region }))
  datas ++ privs ++ builds ++ own ++ peerPools ++
    [{ lo := e.info, len := 64 * e.k.maxSlots, ro := false }, { lo := e.scratch, len := 0x200000, ro := false }] ++ frames

/-! ### The information table (Table 11.12, Frames in a request) -/

/-- The record of one slot. -/
def infoRecord (t : Option Slot) (s : State) : List Byte :=
  match t with
  | none => leBytes 4 0xFFFFFFFF ++ leBytes 28 0
  | some t => leBytes 4 t.ctx ++ leBytes 4 t.before ++ leBytes 4 t.new ++ leBytes 4 (ctxOf t.ctx s).blocks.length ++ leBytes 16 0

/-- The frame record of one slot. -/
def frameRecord (t : Option Slot) (s : State) : List Byte :=
  match t.bind (fun t => (ctxOf t.ctx s).req.bind (fun r => r.frame.map (fun f => (f, r.framePos)))) with
  | none => leBytes 32 0
  | some ((f, n), pos) =>
    let y := fctxOf f s
    let z := slotOf f n s
    leBytes 8 (globalAddr (devNum s) (y.base s + y.slotOff n)) ++ leBytes 4 (y.patches z.width z.height) ++ leBytes 4 pos ++
    leBytes 2 y.patch ++ leBytes 2 (ceilDiv z.width y.patch) ++ leBytes 2 (ceilDiv z.height y.patch) ++ leBytes 1 z.fstat ++ leBytes 9 0

/-- The whole table. -/
def BindEnv.infoTable (e : BindEnv) (s : State) : List Byte :=
  (List.range e.k.maxSlots).flatMap (fun i => infoRecord (e.slot i) s) ++
  (List.range e.k.maxSlots).flatMap (fun i => frameRecord (e.slot i) s)

/-! ### Preparing a dispatch -/

/-- A dispatch ready to start. -/
structure Bound where
  env : BindEnv
  /-- The model's sections with the bound content, without its relocations. -/
  sects : List Sect
  progs : List (List (List Byte))
  regions : List Region
  deriving DecidableEq, Repr, Inhabited

/-- The dispatch's area of Mast SRAM, by length: information table, programs, scratch. -/
def areaLen (m : Model) (k : Kern) (slots : List (Option Slot)) (s : State) : Nat :=
  64 * k.maxSlots + 32 * (k.hals.foldl (fun n h => n + expandedLen m slots h s) 0) + 0x200000

/-- The CODE that a dispatch loads is read (R307): whether a word of it could not be corrected. -/
def BindEnv.readCode (e : BindEnv) (s : State) : Bool × State :=
  e.k.tiles.eraseDups.foldl (fun r i =>
    let x := sectAt e.m.sects i
    let (d, s1) := memRead x.base x.file.length r.2
    (r.1 || d.isNone, s1)) (false, s)

/-- The bound content of every section the kernel uses; none for a value that does not fit. -/
def BindEnv.allPatched (e : BindEnv) (s : State) : Option (List Sect) :=
  let used := e.k.tiles ++ e.k.hals ++ [e.k.sheets, e.k.cleats]
  ((List.range e.m.sects.length).foldl (fun acc i =>
    match acc with
    | none => none
    | some l =>
      let x := sectAt e.m.sects i
      if x.typ = 7 then some ({ x with file := [] } :: l)
      else if used.contains i then
        (e.patched i (if x.typ = 1 then rawRead x.base x.file.length s else x.file) s).map (fun f => { x with file := f } :: l)
      else some (x :: l)) (some [])).map List.reverse

/-- The block-ready Cleats that the slots wait on. -/
def BindEnv.waits (e : BindEnv) (s : State) : List Nat :=
  e.slots.filterMap (fun t => (t.bind (fun t => firstWaiting (ctxOf t.ctx s))).map (fun key => Tab.get s.furl.cleats key - 1))

/-- The bound sections pass the load checks and R245 (0x0404). A global Cleat is one of the dispatch's or a block-ready Cleat. -/
def boundOk (e : BindEnv) (xs : List Sect) (progs : List (List (List Byte))) (waits : List Nat) : Bool :=
  let k := e.k
  let ss := kSheets xs k
  let cs := kCleats xs k
  let mine := fun (c : CleatEnt) => !c.glob || e.gcl.contains c.idx || c.idx = e.ready || waits.contains c.idx
  k.tiles.all (fun i => (List.range (nEntries (sectAt xs i))).all (fun w => legal (fieldsOf (wordOfBytes (entryOf (sectAt xs i) w))))) &&
  ss.all (fun t => sheetOk k.nt ss cs false t) && cs.all (fun c => cleatOk k.nt 4096 false c && mine c) &&
  (List.range k.nt).all (fun l => codeCleatsOk xs cs l (k.tiles.getD l 0)) &&
  progs.all (fun p => p.all (fun b => descCleatOk cs (fun l => e.tiles.getD l 128) (descOf b)))

/-- A dispatch prepared, or the DETAIL of Table 11.13. -/
def prepare (e : BindEnv) (s : State) : Except Nat Bound :=
  match e.allPatched s with
  | none => .error 0x0403
  | some xs =>
    if e.k.hals.any (fun h => e.k.hprogMax < expandedLen e.m e.slots h s) then .error 0x0401
    else match e.k.hals.mapM (fun h => e.expand h (sectAt xs h).file s) with
      | none => .error 0x0403
      | some ps =>
        let rs := e.regions s
        if 64 < rs.length then .error 0x0402
        else if !boundOk e xs ps (e.waits s) then .error 0x0404
        else .ok { env := e, sects := xs, progs := ps, regions := rs }

/-! ### Starting -/

/-- Zero what a tile holds for the tenant domain it served (R202). -/
def cleanTile (t : Nat) (s : State) : State :=
  let s1 := zeroRange (tileBase t) 0x200000 s
  { s1 with comp := { s1.comp with
    sheets := Tab.dropIf s1.comp.sheets (fun i _ => i / 32 = t)
    lcl := Tab.dropIf s1.comp.lcl (fun i _ => i / 32 = t) } }

/-- The tenant domain a dispatch serves (R536). -/
def servedTenant (slots : List (Option Slot)) (s : State) : Nat :=
  match (slots.filterMap (fun t => t.map (fun t => (ctxOf t.ctx s).tenant))).eraseDups with
  | [t] => t
  | _ => 0xFFFF

/-- ARG0 - ARG7 of logical tile l (Table 11.7). -/
def argsOf (e : BindEnv) (l : Nat) (s : State) : Tab W64 :=
  let v := fun (i : Nat) =>
    let k := e.k.kinds.getD i 0
    if k = 0 then e.k.consts.getD i 0
    else if k = 1 then e.layer
    else if k = 2 then (e.slots.filter (·.isSome)).length
    else if k = 3 then e.slots.foldl (fun n t => n + (t.map (·.new)).getD 0) 0
    else if k = 4 then s.srv.steps
    else if k = 5 then l
    else e.info
  Tab.gen (fun i => BitVec.ofNat 64 (v i)) 0 8

/-- The access a logical tile has to global Cleats. -/
def gclOf (cs : List CleatEnt) (l : Nat) : Tab (Option Bool) :=
  (cs.filter (fun c => c.glob && c.tile = l)).foldl (fun t c => Tab.put t c.idx (some (c.full || Tab.get t c.idx = some true))) []

/-- Start logical tile l on physical tile t (Table 8.9, R242 - R244, R271). -/
def startTile (d : Nat) (b : Bound) (l t tenant : Nat) (s : State) : State :=
  let e := b.env
  let code := sectAt b.sects (e.k.tiles.getD l 0)
  let cs := kCleats b.sects e.k
  let s1 := if (tileOf t s).lastTenant = some tenant then s else cleanTile t s
  let s2 := { s1 with comp := { s1.comp with
    sheets := Tab.dropIf s1.comp.sheets (fun i _ => i / 32 = t)
    lcl := Tab.mapAll s1.comp.lcl (fun i c => if i / 32 = t then c.freed else c) } }
  let s3 := ((kSheets b.sects e.k).filter (fun x => x.tile = l)).foldl (fun s x => modSheet t x.n (fun _ => x.sheet) s) s2
  let s4 := (cs.filter (fun c => !c.glob && c.tile = l)).foldl (fun s c =>
    modCleat false (32 * t + c.idx) (fun o => { active := true, full := c.full, count := if c.initEn then c.init else o.count }) s) s3
  modTile t (fun u => { u with
    st := .running, fault := 0, faultPc := 0, pc := 0, stalled := false, atEnd := false, queue := [], drain := none,
    imem := Tab.gen (fun i => wordOfBytes (entryOf code i)) 0 (nEntries code)
    args := argsOf e l s, wdog := if e.k.wdog = 0 then 24 else e.k.wdog, gcl := gclOf cs l, disp := some d, lastTenant := some tenant }) s4

/-- Start Halyard h on a program placed at a local address. -/
def startHal (d : Nat) (b : Bound) (h at_ len : Nat) (s : State) : State :=
  let devs := ((b.regions.map (fun r => r.lo / 2 ^ 45)).filter (· ≠ devNum s)).eraseDups
  let u : Halyard :=
    { st := .running, prog := at_, len := len, disp := some d, regions := b.regions,
      conns := devs.filterMap (fun n => (Tab.get s.rack.peers n).sysConn.map (fun c => (n, c))) }
  modHal h (fun v => { u with nextSeq := v.nextSeq }) s

/-- Place the programs one after another and start their Halyards. -/
def startHals (d : Nat) (b : Bound) : List (Nat × List (List Byte)) → Nat → State → State
  | [], _, s => s
  | (h, p) :: r, a, s => startHals d b r (a + 32 * p.length) (startHal d b h a p.length (memWrite a p.flatten s))

/-- Everything a bind does once nothing can fail: the area zeroed (R537), the table, the Cleats, the tiles and the Halyards. -/
def startDispatch (d batch die area : Nat) (b : Bound) (s : State) : State :=
  let e := b.env
  let len := areaLen e.m e.k e.slots s
  let tenant := servedTenant e.slots s
  let s1 := memWrite area (e.infoTable s) (zeroRange area len s)
  let s2 := (e.ready :: e.gcl).foldl (fun s c =>
    modCleat true c (fun o => { active := true, owner := .dispatch d, count := if c = e.ready then 1 else o.count }) s) s1
  let s3 := (kCleats b.sects e.k).foldl (fun s c =>
    if c.glob && c.initEn && e.gcl.contains c.idx then modCleat true c.idx (fun o => { o with count := c.init }) s else s) s2
  let x : Dispatch :=
    { live := true, batch := batch, die := die, tiles := e.tiles, hals := e.hals, gcl := e.ready :: e.gcl,
      wdog := if e.k.wdog = 0 then 24 else e.k.wdog, info := area, area := (area, len) }
  let s4 := modSrv (fun v => { v with dispatches := Tab.put v.dispatches d x }) s3
  let s5 := (List.range e.k.nt).foldl (fun s l => startTile d b l (e.tiles.getD l 0) tenant s) s4
  startHals d b (e.hals.zip b.progs) (area + 64 * e.k.maxSlots) s5

/-! ### What Masthead may choose -/

/-- Tile t can be offered: unfenced, on a die that the kernel permits, and serving nothing. -/
def tileFree (t : Nat) (s : State) : Bool :=
  let u := tileOf t s
  t < 128 && !s.dev.fenced.getLsbD t && (u.st = .idle || u.st = .loaded) && u.disp.isNone && !domainLost (tileDie t) s

/-- Halyard h is idle and serves nothing. -/
def halFree (h : Nat) (s : State) : Bool := h < 64 && (halOf h s).st = .idle && (halOf h s).disp.isNone

/-- A range meets the area of no live dispatch. -/
def areaFree (a n : Nat) (s : State) : Bool :=
  s.srv.dispatches.all (fun c => !c.2.live || decide (a + n ≤ c.2.area.1) || decide (c.2.area.1 + c.2.area.2 ≤ a))

/-- The choices for a kernel are in rule (R280, R284). -/
def choiceOk (m : Model) (k : Kern) (slots : List (Option Slot)) (b : Bind) (s : State) : Bool :=
  let die := tileDie (b.tiles.getD 0 128)
  b.tiles.length = k.nt && b.tiles.Nodup && b.tiles.all (fun t => tileFree t s && tileDie t = die) &&
  (k.die = 0 || k.die = die + 1) && b.hals.length = k.nh && b.hals.Nodup && b.hals.all (fun h => halFree h s && halDie h = die) &&
  b.gcleats.length = k.ng + 1 && b.gcleats.Nodup && b.gcleats.all (fun c => c < 4096 && !(cleatOf true c s).active) &&
  b.area % 64 = 0 && mastBase die ≤ b.area && b.area + areaLen m k slots s ≤ mastBase die + 0x8000000 &&
  areaFree b.area (areaLen m k slots s) s

/-- The lowest dispatch number that is not live. -/
def newDispatch (s : State) : Nat := (freeIdx s.srv.dispatches (fun d => d.live) 128).getD 128

/-- The environment of a bind. -/
def bindEnv (m : Model) (p : Nat × Nat) (slots : List (Option Slot)) (b : Bind) (s : State) : BindEnv :=
  let k := kernAt m p.2
  { m := m, k := k, layer := p.1, slots := slots, tiles := b.tiles, hals := b.hals, gcl := b.gcleats.drop 1,
    ready := b.gcleats.getD 0 0, info := globalAddr (devNum s) b.area,
    scratch := globalAddr (devNum s) (b.area + areaLen m k slots s - 0x200000) }

end Sys2Proof.Machine
end

