-- ==== Sys2Proof/Machine/FurlReq.lean ====
section
/-! DEFINITION. Furl as requester: references, lookups and their answers, building, publishing, notifications, copy-on-write and
lost homes (spec/14_furl.md, R19 - R25, R326 - R341, R350 - R353). -/

namespace Sys2Proof.Machine

/-! ### Dispatches that end -/

/-- A batch's dispatch is halted and its step starts again from the first STEPS entry (R336). -/
def rerunStep (b : Nat) (s : State) : State :=
  let x := batchOf b s
  let s1 := match x.cur with | some d => stopDispatch d s | none => s
  modBatch b (fun x => { x with pos := 0, cur := none, outs := [] }) s1

/-- A batch is given up before its step ends: its dispatch is released and its contexts are free to be batched again. -/
def dropBatch (b : Nat) (s : State) : State :=
  let x := batchOf b s
  let s1 := match x.cur with | some d => stopDispatch d s | none => s
  let s2 := (x.slots.filterMap (fun t => t.map (·.ctx))).foldl (fun s c => modCtx c (fun y => { y with req := y.req.map (fun r => { r with inStep := false }) }) s) s1
  modBatch b (fun _ => {}) s2

/-- The live batches that hold a context. -/
def batchesOf (c : Nat) (s : State) : List Nat :=
  (s.srv.batches.filter (fun b => b.2.live && b.2.slots.any (fun t => match t with | some t => t.ctx = c | none => false))).map (·.1)

/-! ### References (R328, R352) -/

/-- References that this device holds on a block. -/
def refCount (key : Nat) (s : State) : Nat := Tab.get s.furl.refs key

/-- One more reference. -/
def holdRef (key : Nat) (s : State) : State := modFurl (fun u => { u with refs := Tab.mod u.refs key (· + 1) }) s

/-- The block-ready Cleat of a block returns to FREE. -/
def freeReadyCleat (key : Nat) (s : State) : State :=
  match Tab.get s.furl.cleats key with
  | 0 => s
  | n + 1 => modFurl (fun u => { u with cleats := Tab.put u.cleats key 0 }) (modCleat true n Cleat.freed s)

/-- A lookup of a key that may set the holder bit is unanswered. -/
def lookupOpen (key : Nat) (s : State) : Bool := s.furl.asked.any (fun a => a.key = key && a.mode ≠ 3)

/-- The orphan's hold and the home's holder bit are given up. An UNHOLD sent behind a LOOKUP would clear the bit that the LOOKUP's answer
sets, so it waits for that answer (R328, log entry 84). -/
def sendUnhold (key : Nat) (s : State) : State :=
  let s1 := match s.furl.orphans.find? (fun o => o.1 = key) with
    | some (_, dev) =>
      furlSend dev (.orphanHold key false) (modFurl (fun u => { u with orphans := u.orphans.filter (fun o => !(o.1 = key)) }) s)
    | none => s
  if lookupOpen key s1 then modFurl (fun u => { u with owed := u.owed.filter (· ≠ key) ++ [key] }) s1
  else furlSend (homeOf key) (.unhold key) s1

/-- The holder bit is given up where the device has no reference. -/
def unholdIfNone (key : Nat) (s : State) : State := if refCount key s = 0 then sendUnhold key s else s

/-- The last unanswered lookup of a key is answered: an UNHOLD that waited for it is due. -/
def payOwed (key : Nat) (s : State) : State :=
  if s.furl.owed.contains key && !lookupOpen key s then
    unholdIfNone key (modFurl (fun u => { u with owed := u.owed.filter (· ≠ key) }) s)
  else s

/-- One reference fewer; the last sends UNHOLD. -/
def dropRef (key : Nat) (s : State) : State :=
  match refCount key s with
  | 0 => s
  | 1 => sendUnhold key (freeReadyCleat key (modFurl (fun u => { u with refs := Tab.put u.refs key 0 }) s))
  | n => modFurl (fun u => { u with refs := Tab.put u.refs key (n - 1) }) s

/-- ABANDON, counted, and what it leaves of the reference. -/
def sendAbandon (key ctx : Nat) (s : State) : State := furlSend (homeOf key) (.abandon key ctx) (countFurl 9 s)

/-- The block-ready Cleat of a block that the device waits on, allocated with its counter at 0; none when no Cleat is free. -/
def readyCleat (key : Nat) (s : State) : Option Nat × State :=
  match Tab.get s.furl.cleats key with
  | n + 1 => (some n, s)
  | 0 =>
    match freeIdx s.comp.gcl (fun c => c.active) 4096 with
    | none => (none, s)
    | some i =>
      (some i, modFurl (fun u => { u with cleats := Tab.put u.cleats key (i + 1) })
        (modCleat true i (fun _ => { active := true, owner := .furl key }) s))

/-- The block-ready Cleat of a block counts one more. -/
def signalReady (key : Nat) (s : State) : State :=
  match Tab.get s.furl.cleats key with
  | 0 => s
  | n + 1 => signalGlobal n 1 s

/-! ### A context's blocks -/

/-- Change block i of context c. -/
def modBlk (c i : Nat) (f : Blk → Blk) (s : State) : State := modCtx c (fun x => { x with blocks := x.blocks.modify i f }) s

def modReq (c : Nat) (f : Req → Req) (s : State) : State := modCtx c (fun x => { x with req := x.req.map f }) s

/-- Handle of context c. -/
def ctxHandle (c : Nat) (s : State) : Nat := handleOf c (ctxOf c s).gen

/-- The prefix domain admits the context's tenant (R350). -/
def admitted (x : Ctx) (s : State) : Bool :=
  let d := Tab.get s.furl.doms x.pdom
  d.opened && x.tenant < 256 && d.mask.getLsbD x.tenant

/-- Furl serves the context: its model uses Furl, it was not allocated with NO_FURL, its domain admits it, and Furl was RUNNING at the
fetch of its request (R177, R325, R350). -/
def furlServes (x : Ctx) (s : State) : Bool :=
  fnRunning 0x05 s && (match x.req with | some r => r.furl | none => true) && !x.noFurl && (modelOf x.model s).blockBytes ≠ 0 && admitted x s

/-- The keys of the full blocks of a context's sequence. -/
def ctxKeys (x : Ctx) (s : State) : List Nat := keyChain (modelOf x.model s).tag x.pdom (x.toks.length / 32) 0 x.toks

/-- The local address of block i of a context's private KV. -/
def privAddr (x : Ctx) (i : Nat) (s : State) : Nat := x.privPage * 0x200000 + i * privSlot (modelOf x.model s)

/-- Block i is private and has its first n positions. -/
def setPriv (c i n : Nat) (s : State) : State := modBlk c i (fun b => { b with kind := .priv, done := n }) s

/-- Block i becomes private: what it holds is copied out of its slot where that lies in this device; else, or where a word of it cannot be
corrected (Table 13.2), it is computed again. -/
def privatise (c i : Nat) (s : State) : State :=
  let x := ctxOf c s
  let b := x.blocks.getD i {}
  if b.dev = devNum s && 0 < b.done then
    match memRead b.addr (privSlot (modelOf x.model s)) s with
    | (some bs, s1) => setPriv c i b.done (memWrite (privAddr x i s) bs s1)
    | (none, s1) => setPriv c i 0 s1
  else setPriv c i 0 s

/-- A mapped block that can no longer be read becomes prefill work (R27). -/
def unmap (c i : Nat) (s : State) : State :=
  let b := (ctxOf c s).blocks.getD i {}
  let s1 := modBlk c i (fun b => { b with kind := .priv, done := 0, nvme := false }) (dropRef b.key s)
  let s2 := modReq c (fun r => { r with decoding := false }) s1
  (batchesOf c s2).foldl (fun s k => dropBatch k s) s2

/-! ### Sending lookups -/

/-- Send the LOOKUP of block i of context c, with an OFFER where `claim`; a home that is not up answers UNAVAIL here (R351). -/
def sendLookup (c i key parent : Nat) (toks : List Nat) (claim : Bool) (mode : Nat) (s : State) : State :=
  let x := ctxOf c s
  let m := modelOf x.model s
  let s0 := countFurl 0 s
  if !homeUp (homeOf key) s then countFurl 7 s0
  else
    let (offer, s1) := if claim then reserveSlot x.pdom m.tag m.blockBytes s0 else (none, s0)
    let page := offer.getD 0
    let s2 := modFurl (fun u => { u with asked := u.asked ++ [{ key := key, ctx := c, blk := i, offer := page, mode := mode }] }) s1
    let s3 := if mode = 2 then s2 else modBlk c i (fun b => { b with kind := .asked, key := key }) s2
    furlSend (homeOf key) (.lookup key parent m.tag x.pdom toks (ctxHandle c s) (slotAddr page) mode) s3

/-- The lookups of blocks i, i + 1, … of context c: keys with their parents. Under CONTINUE OFFER is 0 from the first private block on,
one that a home which is not up has just made private among them (R184). -/
def lookupFrom (c : Nat) (cont : Bool) : List Nat → Nat → Nat → Bool → State → State
  | [], _, _, _, s => s
  | k :: ks, i, parent, claim, s =>
    let s1 := sendLookup c i k parent (((ctxOf c s).toks.drop (32 * i)).take 32) claim 0 s
    lookupFrom c cont ks (i + 1) k (claim && !(cont && ((ctxOf c s1).blocks.getD i {}).kind = .priv)) s1

/-- Copy-on-write of the trailing part-block (R340): a compare lookup of the child of the last full block. -/
def compareChild (c i child : Nat) (s : State) : State :=
  let x := ctxOf c s
  let part := x.toks.drop (32 * (i + 1))
  let parent := (x.blocks.getD i {}).key
  match x.req with
  | some r =>
    if child ≠ 0 && (i + 1) * 32 < x.toks.length && x.toks.length < (i + 2) * 32 && r.base ≤ 32 * (i + 1) &&
      r.frame.isNone && furlServes x s then
      sendLookup c (i + 1) child parent part false 1 s
    else s
  | none => s

/-! ### Publishing (R24, R332, R339) -/

/-- Publish block i of context c: the block has its KV in its slot. -/
def publishBlk (c i : Nat) (s : State) : State :=
  let b := (ctxOf c s).blocks.getD i {}
  modReq c (fun r => { r with built := r.built + 1 })
    (modBlk c i (fun b => { b with kind := .mapped, built := true }) (furlSend (homeOf b.key) (.publish b.key) (countFurl 8 s)))

/-- A block this context was building stays private: its claim is given up. -/
def abandonBlk (c i : Nat) (s : State) : State :=
  let b := (ctxOf c s).blocks.getD i {}
  dropRef b.key (sendAbandon b.key (ctxHandle c s) (privatise c i s))

/-- Go through the blocks in chain order: every complete block is published while every earlier one was mapped or built. -/
def publishPass (c : Nat) : Nat → Nat → Bool → State → State
  | 0, _, _, s => s
  | n + 1, i, ok, s =>
    let x := ctxOf c s
    match x.blocks[i]? with
    | none => s
    | some b =>
      match b.kind with
      | .mapped => publishPass c n (i + 1) ok s
      | .priv => publishPass c n (i + 1) false s
      | .building =>
        if b.done < 32 then s
        else if ok && !x.copied && furlServes x s then publishPass c n (i + 1) ok (publishBlk c i s)
        else publishPass c n (i + 1) false (abandonBlk c i s)
      | _ => s

/-- Publish what context c can publish. -/
def publishAll (c : Nat) (s : State) : State := publishPass c (ctxOf c s).blocks.length 0 true s

/-- Lookups of blocks that decode completed (R339): every earlier block mapped, nothing copied, and no position of the block older than
the request (R183). -/
def decodePublish (c i : Nat) (s : State) : State :=
  let x := ctxOf c s
  let b := x.blocks.getD i {}
  let fresh := match x.req with | some r => decide (r.base ≤ 32 * i) | none => false
  if b.kind = .priv && b.done = 32 && fresh && (x.blocks.take i).all (fun y => y.kind = .mapped) && !x.copied && furlServes x s then
    let ks := ctxKeys x s
    sendLookup c i (ks.getD i 0) (if i = 0 then 0 else ks.getD (i - 1) 0) ((x.toks.drop (32 * i)).take 32) true 2 s
  else s

/-! ### Answers (Table 14.3) -/

/-- What an answer says. -/
structure Ans where
  code : Nat
  dev : Nat
  nvme : Bool
  addr : Nat
  child : Nat
  n : Nat
  deriving DecidableEq, Repr, Inhabited

/-- Count an answer (Table 14.6); a collision raises its source. -/
def countAnswer (code : Nat) (s : State) : State :=
  let s1 := countFurl (code + 1) s
  if code = 3 then raise 0x138 s1 else s1

/-- The answer of an ordinary lookup of block a.blk. A block answered WAIT for which no Cleat is FREE is abandoned and built privately
(log entry 86). -/
def answerLookup (a : Asked) (r : Ans) (s : State) : State :=
  let c := a.ctx
  let i := a.blk
  if r.code = 0 then
    let s1 := modReq c (fun q => { q with hit := q.hit + 1 }) (modBlk c i (fun b => { b with
      kind := .mapped, dev := r.dev, addr := r.addr, nvme := r.nvme, child := r.child }) (holdRef a.key s))
    let s2 := if r.nvme then furlSend (homeOf a.key) (.restore a.key) (readyCleat a.key s1).2 else s1
    compareChild c i r.child s2
  else if r.code = 1 then
    match readyCleat a.key s with
    | (some _, s1) => modBlk c i (fun b => { b with kind := .waiting, dev := r.dev, addr := r.addr }) (holdRef a.key s1)
    | (none, s1) => unholdIfNone a.key (sendAbandon a.key (ctxHandle c s) (setPriv c i 0 s1))
  else if r.code = 2 then
    modBlk c i (fun b => { b with kind := .building, dev := devNum s, addr := slotAddr a.offer, done := 0 }) (holdRef a.key s)
  else setPriv c i 0 s

/-- Bytes of a child, from offset `off` of its block on: those of its positions 0 to n - 1 go to block i of context c (R340). -/
def cowWrite (c i n off : Nat) (bs : List Byte) (s : State) : State :=
  let x := ctxOf c s
  let tag := (modelOf x.model s).tag
  let a := privAddr x i s
  bs.zipIdx.foldl (fun s b => if Config.kvPos tag (off + b.2) < n then memWrite (a + off + b.2) [b.1] s else s) s

/-- A copy ends: with its positions, or as a private block without any; the hold goes. -/
def cowEnd (y : CowCopy) (ok : Bool) (s : State) : State :=
  let s1 := setPriv y.ctx y.blk (if ok then y.n else 0) (modFurl (fun u => { u with copies := u.copies.filter (fun z => z.id ≠ y.id) }) s)
  dropRef y.key (if ok then countFurl 15 (modCtx y.ctx (fun x => { x with copied := true }) s1) else s1)

/-- A copy whose child is in HBM begins: out of this device's own memory at once, out of another's by READs. -/
def cowStart (y : CowCopy) (dev addr : Nat) (s : State) : State :=
  let x := ctxOf y.ctx s
  let n := (modelOf x.model s).blockBytes
  if dev = devNum s then
    match memRead addr n s with
    | (some bs, s1) => cowEnd y true (cowWrite y.ctx y.blk y.n 0 bs s1)
    | (none, s1) => cowEnd y false s1
  else match (Tab.get s.rack.peers dev).sysConn with
    | none => cowEnd y false s
    | some i =>
      let k := (n + 0xFFFFFF) / 0x1000000
      postReads (.copy y.id) i (globalAddr dev addr) (privAddr x y.blk s) n k
        (modFurl (fun u => { u with copies := u.copies.map (fun z => if z.id = y.id then { z with nvme := false, dev := dev, left := k } else z) }) s)

/-- Copies whose READs have all ended. -/
def cowSweep (s : State) : State :=
  (s.furl.copies.filter (fun y => !y.nvme && y.left = 0)).foldl (fun s y => cowEnd y (!y.bad) s) s

/-- Copies that end without their data. -/
def cowDrop (f : CowCopy → Bool) (s : State) : State := (s.furl.copies.filter f).foldl (fun s y => cowEnd y false s) s

/-- The answer of a compare lookup (R340): where at least 8 leading tokens agree and PUBLISH_DECODE is clear, the child is held and
copied, an NVMe child once it has been restored. -/
def answerCompare (a : Asked) (r : Ans) (s : State) : State :=
  let x := ctxOf a.ctx s
  if r.code = 0 && 8 ≤ r.n && !((x.req.map (·.pubDecode)).getD false) then
    let y : CowCopy := { id := s.furl.nextCopy, dev := r.dev, ctx := a.ctx, blk := a.blk, key := a.key, n := r.n, nvme := r.nvme }
    let s1 := holdRef a.key (modFurl (fun u => { u with nextCopy := u.nextCopy + 1, copies := u.copies ++ [y] }) s)
    if r.nvme then furlSend (homeOf a.key) (.restore a.key) s1 else cowStart y r.dev r.addr s1
  else
    let s1 := setPriv a.ctx a.blk 0 s
    if r.code = 0 then unholdIfNone a.key s1 else s1

/-- The answer of a decode block's lookup (R339): CLAIM publishes a copy; any other leaves the block private. A claim that cannot be used,
since Furl serves the context no more (R177, R350) or a word of the block cannot be corrected, is abandoned. -/
def answerDecode (a : Asked) (r : Ans) (s : State) : State :=
  let x := ctxOf a.ctx s
  let giveUp (s : State) : State := unholdIfNone a.key (sendAbandon a.key (ctxHandle a.ctx s) s)
  if r.code = 2 then
    if !furlServes x s then giveUp s
    else match memRead (privAddr x a.blk s) (privSlot (modelOf x.model s)) s with
      | (none, s1) => giveUp s1
      | (some bs, s1) =>
        publishBlk a.ctx a.blk (modBlk a.ctx a.blk (fun b => { b with key := a.key, dev := devNum s, addr := slotAddr a.offer })
          (holdRef a.key (memWrite (slotAddr a.offer) bs s1)))
  else if r.code = 1 then giveUp s
  else if r.code = 0 then unholdIfNone a.key s
  else s

/-- The answer of a FURL_PROBE's lookup: the block's tier; the last answer completes the command. -/
def answerProbe (a : Asked) (r : Ans) (s : State) : State :=
  let v := if r.code = 0 then (if r.nvme then 3 else if r.dev = devNum s then 1 else 2) else 0
  let ps := s.furl.probes.modify a.ctx (fun p => { p with left := p.left - 1, got := p.got.set a.blk v })
  modFurl (fun u => { u with probes := ps }) s

/-- ANSWER at the requester: the oldest lookup of the key is answered; an offer that does not end in CLAIM is released; the answer
of a request that has ended is discarded, and what it took is given back. -/
def reqAnswer (key : Nat) (r : Ans) (s : State) : State :=
  match s.furl.asked.find? (fun a => a.key = key) with
  | none => s
  | some a =>
    let s1 := modFurl (fun u => { u with asked := u.asked.erase a }) s
    let s2 := if a.mode = 3 || a.mode = 1 then s1 else countAnswer r.code s1
    let s3 := if a.offer = 0 then s2 else if r.code = 2 then modSlot a.offer (fun x => { x with key := key }) s2 else freeSlot a.offer s2
    payOwed key
      (if a.mode = 3 then answerProbe a r s3
       else if a.dead then (if r.code ≤ 2 then unholdIfNone key s3 else s3)
       else if a.mode = 1 then answerCompare a r s3
       else if a.mode = 2 then answerDecode a r s3
       else answerLookup a r s3)

/-- The answer UNAVAIL, which the requester gives itself. -/
def unavailable : Ans := { code := 6, dev := 0, nvme := false, addr := 0, child := 0, n := 0 }

/-- A LOOKUP could not be delivered: its answer is UNAVAIL, and an ABANDON follows it (What if a LOOKUP times out). -/
def lookupFailed (key : Nat) (s : State) : State :=
  let h := match s.furl.asked.find? (fun a => a.key = key) with | some a => ctxHandle a.ctx s | none => 0
  unholdIfNone key (sendAbandon key h (reqAnswer key unavailable s))

/-- Every LOOKUP that could not be delivered. -/
def lookupsFailed (s : State) : State :=
  s.furl.failed.foldl (fun s k => lookupFailed k s) (modFurl (fun u => { u with failed := [] }) s)

/-- R678: an answer of the device's own shard whose LOC_DEV is another device is taken as UNAVAIL while the rack manager is gone. -/
def answerFilter (key : Nat) (r : Ans) (s : State) : Ans × State :=
  if rmuGone s && homeOf key = devNum s && r.dev ≠ devNum s && r.code ≤ 1 then
    ({ r with code := 6 }, match s.furl.asked.find? (fun a => a.key = key) with
      | some a => unholdIfNone key (furlSend (devNum s) (.abandon key (ctxHandle a.ctx s)) s)
      | none => s)
  else (r, s)

/-! ### Notifications -/

/-- Every (context, block) of this device that holds a key in some way. -/
def holdersHere (key : Nat) (p : BlkKind → Bool) (s : State) : List (Nat × Nat) :=
  s.srv.ctxs.flatMap (fun c =>
    if c.2.live then ((List.range c.2.blocks.length).filter (fun i => let b := c.2.blocks.getD i {}; b.key = key && p b.kind)).map (fun i => (c.1, i))
    else [])

/-- NOTIFY READY: waiting blocks are mapped, a restored one is in HBM, and the Cleat counts one (R337). -/
def notifyReady (key dev addr : Nat) (s : State) : State :=
  let s1 := (holdersHere key (fun k => k = .waiting) s).foldl (fun s h =>
    modReq h.1 (fun r => { r with waited := r.waited + 1 }) (modBlk h.1 h.2 (fun b => { b with kind := .mapped, dev := dev, addr := addr, nvme := false }) s)) s
  let s2 := (holdersHere key (fun k => k = .mapped) s1).foldl (fun s h =>
    modBlk h.1 h.2 (fun b => if b.nvme then { b with dev := dev, addr := addr, nvme := false } else b) s) s1
  let s3 := (s2.furl.copies.filter (fun y => y.nvme && y.key = key)).foldl (fun s y => cowStart y dev addr s) (signalReady key s2)
  ((holdersHere key (fun k => k = .mapped) s3).map (·.1)).eraseDups.foldl (fun s c => publishAll c s) s3

/-- NOTIFY CLAIM: the waiter builds the block; without a location, in a slot of its own pool (R335). -/
def notifyClaim (key dev addr handle : Nat) (s : State) : State :=
  let c := handle % 65536
  let x := ctxOf c s
  match (holdersHere key (fun k => k = .waiting) s).find? (fun h => h.1 = c) with
  | none => sendAbandon key handle s
  | some (_, i) =>
    if !(x.gen = handle / 65536) then sendAbandon key handle s
    else
      let build := fun (dev addr : Nat) (s : State) => modBlk c i (fun b => { b with kind := .building, dev := dev, addr := addr, done := 0 }) s
      let s1 := (batchesOf c s).foldl (fun s k => dropBatch k s) s
      if dev ≠ 0xFFFF then build dev addr s1
      else
        let m := modelOf x.model s
        match reserveSlot x.pdom m.tag m.blockBytes s1 with
        | (some p, s2) =>
          furlSend (homeOf key) (.moved key false (slotAddr p)) (build (devNum s) (slotAddr p) (modSlot p (fun y => { y with key := key }) s2))
        | (none, s2) => dropRef key (sendAbandon key handle (setPriv c i 0 s2))

/-- NOTIFY RELOCATE: the new location, and every dispatch bound to the old one is halted (R336). -/
def notifyRelocate (key dev addr : Nat) (s : State) : State :=
  let hs := holdersHere key (fun k => k = .waiting) s
  let s1 := hs.foldl (fun s h => modBlk h.1 h.2 (fun b => { b with dev := dev, addr := addr }) s) s
  (hs.flatMap (fun h => batchesOf h.1 s1)).eraseDups.foldl (fun s k => rerunStep k s) s1

/-- A wait ends and the block becomes prefill work of the context. -/
def dropWait (c i : Nat) (s : State) : State :=
  (batchesOf c s).foldl (fun s k => dropBatch k s) (dropRef ((ctxOf c s).blocks.getD i {}).key (setPriv c i 0 s))

/-- A restore has failed, or the block is lost: what waits for it does so no more, and the block is unreachable (R27, R345). -/
def notifyFailed (key : Nat) (s : State) : State :=
  let s1 := (holdersHere key (fun k => k = .mapped) s).foldl (fun s h =>
    if ((ctxOf h.1 s).blocks.getD h.2 {}).nvme then unmap h.1 h.2 s else s) s
  let s2 := (holdersHere key (fun k => k = .waiting) s1).foldl (fun s h => dropWait h.1 h.2 s) s1
  cowDrop (fun y => y.nvme && y.key = key) s2

/-- NOTIFY. -/
def reqNotify (key ev dev addr handle : Nat) (s : State) : State :=
  if ev = 0 then notifyReady key dev addr s
  else if ev = 1 then notifyClaim key dev addr handle s
  else if ev = 2 then notifyRelocate key dev addr s
  else notifyFailed key s

/-! ### Messages -/

/-- A message of a device takes effect. -/
def furlDeliver (src : Nat) (m : FurlMsg) (s : State) : State :=
  match m with
  | .lookup key parent tag pdom toks ctx offer mode => homeLookup src key parent tag pdom toks ctx offer mode s
  | .answer key code dev nvme addr child n =>
    let (r, s1) := answerFilter key { code := code, dev := dev, nvme := nvme, addr := addr, child := child, n := n } s
    reqAnswer key r s1
  | .unhold key => homeUnhold src key s
  | .abandon key ctx => homeAbandon src key ctx s
  | .renew keys => homeRenew src keys s
  | .publish key => homePublish src key s
  | .child parent key => homeChild parent key s
  | .notify key ev dev addr ctx => reqNotify key ev dev addr ctx s
  | .evict key op => homeEvict src key op s
  | .evictAck key op granted => ownerAck src key op granted s
  | .restore key => homeRestore src key s
  | .restoreOwn key => ownerRestore key s
  | .moved key nvme addr => homeMoved src key nvme addr s
  | .orphanHold key hold => ownerOrphan src key hold s

/-- The messages of the device to itself are handled in place, in order. -/
def furlRun : Nat → State → State
  | 0, s => s
  | n + 1, s =>
    match s.furl.selfq with
    | [] => s
    | m :: r => furlRun n (furlDeliver (devNum s) m (modFurl (fun u => { u with selfq := r }) s))

/-- Every message of the device to itself. -/
def furlSettle (s : State) : State := furlRun 65536 s

/-- A message arrives from another device: only from a member while Furl can act. -/
def furlArrive (src : Nat) (m : FurlMsg) (s : State) : State :=
  if activeMember src s && s.dev.mode ≠ .safe && s.dev.mode ≠ .quarantine then furlSettle (furlDeliver src m s) else s

/-- RENEW of every block that contexts of this device build, by home (R334). -/
def renewTimer (s : State) : State :=
  let keys := (s.srv.ctxs.flatMap (fun c => (c.2.blocks.filter (fun b => b.kind = .building)).map (·.key))).eraseDups
  let homes := (keys.map homeOf).eraseDups
  furlSettle (homes.foldl (fun s h => furlSend h (.renew (keys.filter (fun k => homeOf k = h))) s) s)

/-! ### Lost homes and lost peers (When a home is lost, R27, R352, R353) -/

/-- This device holds a block of a lost home at its LOC_DEV (R352). -/
def orphanHold (key dev : Nat) (s : State) : State :=
  if s.furl.orphans.any (fun o => o.1 = key) then s
  else furlSend dev (.orphanHold key true) (modFurl (fun u => { u with orphans := u.orphans ++ [(key, dev)] }) s)

/-- What the loss of device e, as a home or as a block's location, leaves of one block of a context. A block of a lost home that is still
on NVMe is restored from this device's own drive without the home, and is unreachable on another's (R18, R27). -/
def blkHomeLost (e c i : Nat) (s : State) : State :=
  let b := (ctxOf c s).blocks.getD i {}
  match b.kind with
  | .building => if homeOf b.key = e then dropRef b.key (privatise c i s) else s
  | .waiting =>
    if homeOf b.key = e then dropWait c i s else s
  | .mapped =>
    if b.dev = e && e ≠ devNum s then unmap c i s
    else if !(homeOf b.key = e) then s
    else if !b.nvme then orphanHold b.key b.dev s
    else if b.dev = devNum s then furlSend (devNum s) (.restoreOwn b.key) (orphanHold b.key b.dev s)
    else unmap c i s
  | _ => s

/-- Every block of every context. -/
def everyBlk (f : Nat → Nat → State → State) (s : State) : State :=
  s.srv.ctxs.foldl (fun s c => if c.2.live then (List.range c.2.blocks.length).foldl (fun s i => f c.1 i s) s else s) s

/-- What holds references besides contexts: pins, snapshots, and copies in progress, each key with its LOC_DEV. -/
def otherHolds (s : State) : List (Nat × Nat) :=
  s.furl.pins.flatMap (fun p => if p.2.live then p.2.keys else []) ++ s.reef.snaps.flatMap (fun x => if x.2.live then x.2.locs else []) ++
    s.furl.copies.map (fun y => (y.key, y.dev))

/-- Copies whose child waits for a restore by way of a lost home end; every other block of the home that is held without being mapped is
held as an orphan too. -/
def pinsHomeLost (e : Nat) (s : State) : State :=
  let s1 := cowDrop (fun y => y.nvme && homeOf y.key = e) s
  (otherHolds s1).foldl (fun s k => if homeOf k.1 = e && (k.2 ≠ e || e = devNum s) then orphanHold k.1 k.2 s else s) s1

/-- The unanswered lookups to a home are answered UNAVAIL. -/
def askedHomeLost (e : Nat) (s : State) : State :=
  ((s.furl.asked.filter (fun a => homeOf a.key = e)).map (·.key)).foldl (fun s k =>
    reqAnswer k unavailable s) (modFurl (fun u => { u with owed := u.owed.filter (fun k => !(homeOf k = e)) }) s)

/-- An EVICT that the loss of its home leaves unanswered. -/
def evictLost (e : Nat) (s : State) : Bool :=
  s.furl.pool.any (fun c => c.2.live && c.2.evictAsked && c.2.key ≠ 0 && homeOf c.2.key = e) ||
  s.furl.spilled.any (fun c => c.2.live && c.2.evictAsked && homeOf c.1 = e)

/-- Device e has left the membership (Table 25.5 and R674), as Furl sees it. -/
def furlMemberLost (e : Nat) (s : State) : State :=
  let s1 := homeLoseDevice e s
  let s2 := askedHomeLost e s1
  let s3 := pinsHomeLost e (everyBlk (blkHomeLost e) s2)
  let s4 := modFurl (fun u => { u with
    pool := Tab.mapAll u.pool (fun _ x => if x.live && x.key ≠ 0 && homeOf x.key = e then { x with orphaned := true } else x)
    spilled := Tab.mapAll u.spilled (fun k x => if x.live && homeOf k = e then { x with orphaned := true } else x) }) s3
  furlSettle (if evictLost e s then evictNext s4 else s4)

/-- The device itself enters QUARANTINE: its directory goes, and with it every home and every peer (R27, R351, R353). -/
def furlQuarantine (s : State) : State :=
  (List.range 72).foldl (fun s e => furlMemberLost e s) (discardDirectory s)

end Sys2Proof.Machine
end

