-- ==== Sys2Proof/Machine/Shroud.lean ====
section
/-! DEFINITION. Shroud as receiver and target: verification, sequencing, execution through windows, and the commands of
Table 7.11 (spec/16_shroud.md). -/

namespace Sys2Proof.Machine

/-! ### Reading a packet -/

/-- A parsed Shroud packet (Table 16.1). -/
structure ShrPkt where
  ver : Nat
  typ : Nat
  flags : Nat
  opc : Nat
  dst : Nat
  src : Nat
  txc : Nat
  psn : Nat
  ackPsn : Nat
  sack : Nat
  tTx : Nat
  tEcho : Nat
  opsn : Nat
  len : Nat
  addr : Nat
  off : Nat
  segLen : Nat
  aux : Nat
  deriving DecidableEq, Repr, Inhabited

/-- Its header fields. -/
def parsePkt (b : List Byte) : ShrPkt :=
  { ver := fieldN b 0 1, typ := fieldN b 1 1, flags := fieldN b 2 1, opc := fieldN b 3 1, dst := fieldN b 4 2, src := fieldN b 6 2,
    txc := fieldN b 8 8, psn := fieldN b 16 4, ackPsn := fieldN b 20 4, sack := fieldN b 24 8, tTx := fieldN b 32 4, tEcho := fieldN b 36 4,
    opsn := fieldN b 40 4, len := fieldN b 44 4, addr := fieldN b 48 8, off := fieldN b 56 4, segLen := fieldN b 60 2, aux := fieldN b 62 2 }

/-- SEG_LEN and OP_LEN of a RESP obey Table 16.3: an OK read returns segments of 4,096 bytes and a last one, an OK FADD the old word,
and every other response carries no data. -/
def respOk (h : ShrPkt) (last : Bool) : Bool :=
  let ok : Bool := h.aux % 256 = 0
  if h.opc = 1 then
    1 ≤ h.len && h.len ≤ 0x1000000 && h.off % 4096 = 0 &&
    (if ok then h.off + h.segLen ≤ h.len && (last = (h.off + h.segLen = h.len)) && (last || h.segLen = 4096) && 1 ≤ h.segLen
     else last && h.segLen = 0 && h.off < h.len)
  else if h.opc = 2 || h.opc = 3 then 1 ≤ h.len && h.len ≤ 0x1000000 && h.segLen = 0
  else if h.opc = 4 then h.len = 8 && h.segLen = (if ok then 8 else 0)
  else 1 ≤ h.len && h.len ≤ 4096 && h.segLen = 0

/-- R386: VER, TYPE, reserved bits, SEG_LEN and OP_LEN against Tables 16.1 - 16.3. -/
def pktOk (h : ShrPkt) (data : List Byte) : Bool :=
  let seq : Bool := h.typ = 3 || h.typ = 4
  let last := bitN h.flags 2
  h.ver = 1 && 1 ≤ h.typ && h.typ ≤ 7 && h.flags < 16 && h.segLen = data.length && h.segLen ≤ 4096 && (bitN h.flags 0 = seq) &&
  (if h.typ = 1 || h.typ = 2 then h.segLen = 16 && zeroAt data 3 13 && h.opc = 0
   else if !seq then h.segLen = 0 && h.opc = 0
   else if !(1 ≤ h.opc && h.opc ≤ 5) then false
   else if h.typ = 4 then respOk h last
   else if h.opc = 1 then h.segLen = 0 && h.off = 0 && 1 ≤ h.len && h.len ≤ 0x1000000 && h.aux = 0
   else if h.opc = 2 || h.opc = 3 then
     1 ≤ h.len && h.len ≤ 0x1000000 && h.off % 4096 = 0 && h.off + h.segLen ≤ h.len && (last = (h.off + h.segLen = h.len)) &&
     (last || h.segLen = 4096) && (if h.opc = 3 then h.aux < 4096 else h.aux = 0)
   else if h.opc = 4 then h.len = 8 && h.segLen = 8 && h.off = 0 && h.aux = 0
   else 1 ≤ h.len && h.len ≤ 4096 && h.addr = 0 && h.segLen = h.len && h.off = 0 && h.aux = 0)

/-- The payload of a packet under the key of connection i, when its tag verifies (R387, R390). -/
def openPkt (i : Nat) (packet : List Byte) (s : State) : Option (List Byte) :=
  let c := connOf i s
  let n := packet.length
  Config.gcmOpen c.key (nonceOf (1 - shrDir c s) (parsePkt packet).txc) (packet.take 64) ((packet.take (n - 16)).drop 64) (packet.drop (n - 16))

/-- The connection a packet belongs to: by DST_CONN with this peer (R386), or for CONNECT the one that is OPENING to it, or the one
that this peer's index has already opened; where there are both, the tag decides. -/
def connFor (src : ShrPeer) (packet : List Byte) (s : State) : Option Nat :=
  let h := parsePkt packet
  if h.typ = 1 then
    match s.shr.conns.find? (fun c => c.2.st = .opening && c.2.peer = src),
      s.shr.conns.find? (fun c => c.2.st = .opened && c.2.peer = src && c.2.peerIdx = h.src) with
    | some a, some b => some (if (openPkt a.1 packet s).isSome then a.1 else b.1)
    | some a, none => some a.1
    | none, b => b.map (·.1)
  else
    let c := connOf h.dst s
    if h.dst < 16384 && !(c.st = .free) && c.peer = src then some h.dst else none

/-! ### Acknowledgements received -/

/-- PSN p comes before q in the window (PSNs compare modulo 2^32). -/
def psnBefore (p q : Nat) : Bool :=
  let d := (q + 2 ^ 32 - p) % 2 ^ 32
  1 ≤ d && d ≤ 1024

/-- ACK_PSN and SACK reach the sender (R398). -/
def rxAck (i : Nat) (h : ShrPkt) (s : State) : State :=
  modConn i (fun c => { c with unacked := (c.unacked.filter (fun g => !psnBefore g.psn h.ackPsn)).map (fun g =>
    let d := (g.psn + 2 ^ 32 - h.ackPsn) % 2 ^ 32
    if 1 ≤ d && d ≤ 64 && bitN h.sack (d - 1) then { g with sacked := true } else g) }) s

/-! ### Windows (R403, R406 - R409) -/

/-- The window of a connection that holds an address. -/
def windowAt (i a : Nat) (s : State) : Option (Nat × ShrMap) :=
  s.shr.maps.find? (fun m => m.2.live && m.2.conn = i && m.2.remote ≤ a && a < m.2.remote + m.2.len)

/-- A range lies in pages of a use that Masthead's system windows cover: the Furl pools, and parked snapshots. -/
def sysRange (a n : Nat) (s : State) : Bool :=
  inHbm a && inHbm (a + n - 1) && (List.range ((a + n - 1) / 0x200000 - a / 0x200000 + 1)).all (fun k =>
    match (Tab.get s.mem.pages (a / 0x200000 + k)).use with
    | .pool _ => true
    | .reef => true
    | _ => false)

/-- Where an operation lands: its local address and whether the window resends, or the OSTAT of its check (R402, R403). -/
def target (i : Nat) (o : InOp) (s : State) : Except Nat (Nat × Bool) :=
  let c := connOf i s
  let rd : Bool := o.opc = 1 || o.opc = 4
  let wr : Bool := o.opc = 2 || o.opc = 3 || o.opc = 4
  let cleatBad : Bool := o.opc = 3 && !((cleatOf true o.aux s).active && (cleatOf true o.aux s).owner = .conn i)
  if o.opc = 5 then .ok (0, false)
  else if c.sys then
    if cleatBad || !sysRange o.addr 1 s then .error 1
    else if !sysRange o.addr o.len s || (o.opc = 4 && o.addr % 8 ≠ 0) then .error 2 else .ok (o.addr, false)
  else
    match windowAt i o.addr s with
    | none => .error 1
    | some (_, m) =>
      let r := regionOf m.region s
      if (rd && !m.rd) || (wr && !m.wr) || !r.live || r.tenant ≠ c.tenant || cleatBad then .error 1
      else if m.remote + m.len < o.addr + o.len || (o.opc = 4 && o.addr % 8 ≠ 0) then .error 2
      else .ok (r.page * 0x200000 + (o.addr - m.remote), m.resend)

/-- A page of a range is absent. -/
def anyAbsent (a n : Nat) (s : State) : Bool :=
  s.shr.absent.any (fun c => c.2 && decide (c.1 * 0x200000 < a + n) && decide (a < (c.1 + 1) * 0x200000))

/-! ### Execution at the target (R400 - R405) -/

/-- Queue the response of an operation. -/
def respond (i : Nat) (o : InOp) (segs : List (List Byte)) (ostat retry : Nat) (s : State) : State :=
  let n := segs.length
  let mk : Nat × Nat → List (List Byte) → List ShrSeg := fun st l =>
    (l.foldl (fun (r : (Nat × Nat) × List ShrSeg) d =>
      let (k, off) := r.1
      let g : ShrSeg := { resp := true, opc := o.opc, first := k = 0, last := k + 1 = n, opsn := o.opsn, len := o.len, addr := o.addr, off := off,
                          aux := if k + 1 = n then ostat + 256 * retry else 0, data := d }
      ((k + 1, off + d.length), r.2 ++ [g])) (st, [])).2
  modConn i (fun c => { c with outq := c.outq ++ mk (0, 0) segs }) s

/-- Cut into 4,096-byte pieces. -/
def pieces : Nat → List Byte → List (List Byte)
  | 0, _ => []
  | n + 1, bs => if bs.length ≤ 4096 then [bs] else bs.take 4096 :: pieces n (bs.drop 4096)

/-- The operation's window, once its unmapping waited for it, goes (R407). -/
def unmapDone (i : Nat) (o : InOp) (s : State) : State :=
  match windowAt i o.addr s with
  | some (k, m) =>
    match m.unmap with
    | some r => finish r .ok 0 [] (modShr (fun u => { u with maps := Tab.put u.maps k { gen := nextGen m.gen } }) s)
    | none => s
  | none => s

/-- READ (R404). -/
def readOp (i : Nat) (o : InOp) (a : Nat) (s : State) : State :=
  match (badWords a o.len s.mem).filter (fun w => !(Tab.get s.mem.ecc w = .correctable)) with
  | [] => let (d, s1) := memRead a o.len s
          respond i o (pieces (o.len / 4096 + 1) (d.getD [])) 0 0 (readUse a o.len s1)
  | w :: ws =>
    let lo := ws.foldl min w
    let whole := (lo - a) / 4096
    let (d, s1) := memRead a (whole * 4096) s
    let (_, s2) := readWord lo s1
    respond i o ((if whole = 0 then [] else pieces (whole + 1) (d.getD [])) ++ [[]]) 3 0 s2

/-- The effect of an operation at its local address, with its response. A WRITE_SIG adds to its Cleat after its data is visible and
before anything later, its response included (R400, R401). -/
def opEffect (i : Nat) (o : InOp) (a : Nat) (s : State) : State :=
  if o.opc = 1 then readOp i o a s
  else if o.opc = 2 then respond i o [[]] 0 0 (memWrite a (o.data.take o.len) s)
  else if o.opc = 3 then respond i o [[]] 0 0 (cleatAdd true o.aux 1 (memWrite a (o.data.take o.len) s))
  else if o.opc = 4 then
    match memRead a 8 s with
    | (none, s1) => respond i o [[]] 3 0 s1
    | (some d, s1) => respond i o [d] 0 0 (memWrite a (leBytes 8 (leNat d + fieldN o.data 0 8)) s1)
  else respond i o [[]] 0 0 (emit (.shrMsg i (o.data.take o.len)) s)

/-- The oldest operation of a connection executes: one of kind `k`, whole, whose pages are present (R400, R408, R409). The RETRY
hint of a FAULT is not given: it is a free value. A FAULT ends the operation's execution here, so that a window which waits for it goes
(R407). At a memory controller whose clock has stopped it waits. -/
def runOldest (k i : Nat) (s : State) : State :=
  let c := connOf i s
  match c.inq with
  | [] => s
  | o :: os =>
    if o.opc ≠ k || !o.whole then s
    else
      let pop (s : State) : State := modConn i (fun c => { c with inq := os }) s
      match target i o s with
      | .error e => unmapDone i o (respond i o [[]] e 0 (pop s))
      | .ok (a, again) =>
        if o.opc ≠ 5 && !rangeRuns a o.len s then s
        else if o.opc ≠ 5 && anyAbsent a o.len s then
          if again then
            let (v, s1) := drawFree s
            unmapDone i o (respond i o [[]] 4 (v.toNat % 256) (modConn i (fun c => { c with inq := [], faultAt := some o.opsn }) s1))
          else s
        else unmapDone i o (opEffect i o a (pop s))

/-- A page becomes present. -/
def pagePresent (p : Nat) (s : State) : State := modShr (fun u => { u with absent := Tab.put u.absent p false }) s

/-! ### Sequenced packets in order (R396, R400, R409, R413) -/

/-- A request segment in PSN order. -/
def rxReqSeg (i : Nat) (g : ShrSeg) (s : State) : State :=
  let c := connOf i s
  if !shrRuns s then
    let s1 := modConn i (fun c => { c with inq := c.inq.filter (·.whole) }) s
    if g.last then respond i { opc := g.opc, opsn := g.opsn, len := g.len, addr := g.addr, aux := g.aux } [[]] 5 0 s1 else s1
  else if (match c.faultAt with | some n => !(g.resend && g.opsn = n) | none => false) then s
  else
    let s1 := modConn i (fun c => { c with faultAt := none }) s
    if g.first then
      modConn i (fun c => { c with inq := c.inq.filter (·.whole) ++
        [{ opc := g.opc, opsn := g.opsn, len := g.len, addr := g.addr, aux := g.aux, data := g.data, whole := g.last }] }) s1
    else modConn i (fun c => { c with inq := c.inq.map (fun o =>
      if !o.whole && o.opsn = g.opsn && o.data.length = g.off then { o with data := o.data ++ g.data, whole := g.last } else o) }) s1

/-- The data of a READ's response: to the Halyard that posted it, to the private block that a copy fills, else to memory. -/
def respData (i : Nat) (o : ShrOp) (g : ShrSeg) (s : State) : State :=
  match o.client with
  | .halyard _ _ _ _ => modConn i (fun c => { c with ops := c.ops.map (fun p => if p.post.id = o.post.id then { p with got := p.got ++ g.data } else p) }) s
  | .copy k =>
    match s.furl.copies.find? (fun y => y.id = k) with
    | some y => cowWrite y.ctx y.blk y.n (o.post.lcl + g.off - privAddr (ctxOf y.ctx s) y.blk s) g.data s
    | none => s
  | _ => memWrite (o.post.lcl + g.off) g.data s

/-- A response segment in PSN order. -/
def rxRespSeg (i : Nat) (g : ShrSeg) (s : State) : State :=
  match (connOf i s).ops.find? (fun o => o.opsn = some g.opsn) with
  | none => if g.last then connCount i .lateCpl s else s
  | some o =>
    let st := g.aux % 256
    let s1 := if !(o.post.kind = 1) || g.data.isEmpty then s else respData i o g s
    if !g.last then s1
    else if st = 4 then
      let s2 := connCount i .faultResp s1
      if 4 ≤ o.faults then closeStep i (opEnd i o (.ostat 4) 0 s2)
      else modConn i (fun c => { c with ops := c.ops.map (fun p => if p.post.id = o.post.id then { p with faults := p.faults + 1, resend := true, got := [] } else p) }) s2
    else
      let o1 := ((connOf i s1).ops.find? (fun p => p.post.id = o.post.id)).getD o
      closeStep i (opEnd i o1 (.ostat st) (if o.post.kind = 4 then leNat g.data else 0) s1)

/-- Stored packets are processed while the next PSN is at hand. -/
def rxDrain (i : Nat) : Nat → State → State
  | 0, s => s
  | fuel + 1, s =>
    let c := connOf i s
    match c.ooo.find? (fun g => g.psn = c.ackPsn) with
    | none => s
    | some g =>
      let s1 := modConn i (fun c => { c with ooo := c.ooo.erase g, ackPsn := (c.ackPsn + 1) % 2 ^ 32 }) s
      rxDrain i fuel (if g.resp then rxRespSeg i g s1 else rxReqSeg i g s1)

/-- A verified sequenced packet (R396, R397). -/
def rxSeq (i : Nat) (h : ShrPkt) (data : List Byte) (s : State) : State :=
  let c := connOf i s
  if !(c.st = .opened || c.st = .closing) then s
  else if 1024 ≤ (h.psn + 2 ^ 32 - c.ackPsn) % 2 ^ 32 then sendPlain i 5 s
  else
    let g : ShrSeg := { resp := h.typ = 4, psn := h.psn, opc := h.opc, first := bitN h.flags 1, last := bitN h.flags 2, resend := bitN h.flags 3,
                        opsn := h.opsn, len := h.len, addr := h.addr, off := h.off, aux := h.aux, data := data }
    let s1 := modConn i (fun c => { c with tEcho := h.tTx, ackDue := c.ackDue + 1
                                           ooo := if c.ooo.any (fun x => x.psn = g.psn) then c.ooo else c.ooo ++ [g] }) s
    let s2 := rxDrain i 1024 s1
    if 16 ≤ (connOf i s2).ackDue then sendPlain i 5 s2 else s2

/-! ### Connection packets (Table 16.6) -/

/-- The connection opens, and SHR_CONN_OPEN completes. -/
def opened (i src : Nat) (s : State) : State :=
  let c := connOf i s
  let s1 := modConn i (fun c => { c with st := .opened, peerIdx := src, openRef := none }) s
  match c.openRef with
  | some r => finish r .ok 0 (leBytes 4 (handleOf i c.gen)) s1
  | none => s1

/-- A verified, well-formed packet of connection i acts by its TYPE (Table 16.6). A packet of any TYPE that echoes a time gives an RTT
sample; a CONNECT of another tenant matches no connection and does nothing. -/
def rxTyped (i : Nat) (h : ShrPkt) (data : List Byte) (s0 : State) : State :=
  let s := if h.tEcho = 0 then s0 else addSample i ((s0.time.mono + 2 ^ 32 - h.tEcho) % 2 ^ 32) s0
  let c := connOf i s
  if h.typ = 1 then
    if fieldN data 0 2 ≠ c.tenant then s0
    else if c.st = .opening then sendOpening i 2 (opened i h.src s)
    else if c.st = .opened then sendOpening i 2 s else s
  else if h.typ = 2 then (if c.st = .opening then opened i h.src s else s)
  else
    let s2 := rxAck i h s
    if h.typ = 3 || h.typ = 4 then rxSeq i h data s2
    else if h.typ = 6 then
      if c.st = .opened then opsEnd i .unavail (sendPlain i 7 (modConn i (fun c => { c with st := .peerClosed }) s2))
      else s2
    else if h.typ = 7 then (if c.st = .closing then connFree i s2 else s2)
    else s2

/-- A Shroud packet arrives (R386, R390, R436): its connection, its tag, its form, its policer, and then its effect. -/
def shrRx (src : ShrPeer) (packet : List Byte) (s : State) : State :=
  if s.dev.mode = .safe || s.dev.mode = .boot || s.dev.mode = .cold then s
  else if packet.length < 80 then modShr (fun u => { u with malformed := satInc 32 u.malformed }) s
  else
    let h := parsePkt packet
    match connFor src packet s with
    | none => modShr (fun u => { u with malformed := satInc 32 u.malformed }) s
    | some i =>
      let c := connOf i s
      let n := packet.length
      match openPkt i packet s with
      | none => raise 0x137 (connCount i .authFail s)
      | some data =>
        if !pktOk h data then connCount i .malformed s
        else if (h.typ = 3 || h.typ = 4) && !c.sys then
          match police c.tenant n s with
          | (true, s1) => rxTyped i h data s1
          | (false, s1) => s1
        else rxTyped i h data s

/-- A packet of one TYPE arrives; over UDP its frame leaves the ingress buffer of its priority. -/
def shrArrive (typ : Nat) (src : ShrPeer) (packet : List Byte) (s : State) : State :=
  if fieldN packet 1 1 ≠ typ then s
  else
    let s1 := shrRx src packet s
    match src with
    | .stay _ => s1
    | .udp p a => ethTake p (if typ = 3 || typ = 4 then 3 else 6) (packet.length + (if isV4 a then 50 else 70)) s1

/-! ### Commands (Table 7.11) -/

/-- TIMEOUT_US obeys R194; 0 in SHR_CONN_OPEN means 200 us. -/
def timeoutOk (onStay : Bool) (us : Nat) (s : State) : Bool :=
  minTimeout onStay ≤ us && s.host.mbx.all (fun m => match m.2.session with
    | some x => 8 * us ≤ x.timeoutMs * 1000
    | none => true)

/-- A new connection begins OPENING and sends its first CONNECT. -/
def connOpen (i : Nat) (c : ShrConn) (s : State) : State :=
  let old := connOf i s
  let x : ShrConn := { c with gen := firstGen old.gen, st := .opening, rcc := (lineRate c / 8, 1) }
  sendOpening i 1 (modShr (fun u => { u with conns := Tab.put u.conns i x }) s)

/-- SHR_CONN_OPEN (R194, R195, R389, R392, R535). -/
def doShrConnOpen (c : Cmd) (r : Nat × Nat) (s : State) : State × Answer :=
  let b := payloadOf c
  let carrier := fieldN b 0 1
  let tenant := fieldN b 2 2
  let dev := fieldN b 4 2
  let us := if fieldN b 24 4 = 0 then 200 else fieldN b 24 4
  let slot := fieldN b 28 4
  let peer : ShrPeer := if carrier = 0 then .stay dev else .udp (carrier - 1) (slice b 8 16)
  let keyOk : Bool := match Tab.get s.sec.shr slot with
    | some k => k.tenant ≠ tenant || !k.used
    | none => false
  let keyOther : Bool := match Tab.get s.sec.shr slot with
    | some k => k.tenant ≠ tenant
    | none => false
  checkAll
    [ [ (3 ≤ carrier, .inval, 8), (3 ≤ fieldN b 1 1, .inval, 9), (badTenant tenant, .inval, 10),
        (carrier = 0 && (72 ≤ dev || dev = devNum s), .inval, 12), (!zeroAt b 6 2, .inval, 14),
        (!timeoutOk (carrier = 0) us s, .inval, 32), (16383 < slot, .inval, 36) ],
      [ (s.dev.mode = .quarantine || s.rack.rmuLost, .again, 0) ],
      [ (otherTenant c tenant s || keyOther, .noent, 0), (!keyOk, .inval, 36) ],
      [ (!shrRuns s || s.shr.conns.any (fun x => x.2.st = .opening && x.2.peer = peer), .busy, 0) ],
      [ ((freeIdx s.shr.conns (fun x => !(x.st = .free)) 16384).isNone, .nospc, 0) ] ]
    (fun _ =>
      let i := (freeIdx s.shr.conns (fun x => !(x.st = .free)) 16384).getD 0
      let key := match Tab.get s.sec.shr slot with
        | some k => k.key
        | none => []
      let s1 := { s with sec := { s.sec with shr := Tab.mod s.sec.shr slot (fun k => k.map (fun k => { k with used := true })) } }
      (connOpen i { fn := mbFn c.mb s, peer := peer, tenant := tenant, keySlot := slot, key := key, chain := fieldN b 1 1, timeout := us,
                    openRef := some r } s1, .later)) s

/-- The command timeout of SHR_CONN_OPEN: its connection is FREE again, its key slot spent (Table 16.6). -/
def openTimedOut (r : Nat × Nat) (s : State) : State :=
  s.shr.conns.foldl (fun s c => if c.2.st = .opening && c.2.openRef = some r then connFree c.1 s else s) s

/-- Close a connection, with the operations posted ended as ABORTED when `abort` is set. -/
def connClose (i : Nat) (abort : Bool) (r : Option (Nat × Nat)) (s : State) : State :=
  let c := connOf i s
  let s1 := modConn i (fun c => { c with closeRef := r }) s
  if c.st = .peerClosed || c.st = .broken || c.st = .opening then connFree i s1
  else
    let s2 := modConn i (fun c => { c with st := .closing }) s1
    closeStep i (if abort then opsEnd i .aborted s2 else dropTriggered i s2)

/-- SHR_CONN_CLOSE (R391). -/
def doShrConnClose (c : Cmd) (r : Nat × Nat) (s : State) : State × Answer :=
  let b := payloadOf c
  let h := fieldN b 0 4
  let x := connOf (h % 65536) s
  checkAll [ [ (2 ≤ fieldN b 4 1, .inval, 12) ], connChecks c h s, [ (x.st = .opening || x.st = .closing, .busy, 0) ] ]
    (fun _ => (connClose (h % 65536) (bitN (fieldN b 4 1) 0) (some r) s, .later)) s

/-- SHR_CONN_TIMEOUT (R194). -/
def doShrConnTimeout (c : Cmd) (_r : Nat × Nat) (s : State) : State × Answer :=
  let b := payloadOf c
  let h := fieldN b 0 4
  let us := fieldN b 4 4
  checkAll [ connChecks c h s, [ (!timeoutOk (connOf (h % 65536) s).onStay us s, .inval, 12) ] ]
    (fun _ => okWith [] (modConn (h % 65536) (fun x => { x with timeout := us }) s)) s

/-- Two ranges overlap. -/
def overlaps (a n b m : Nat) : Bool := a < b + m && b < a + n

/-- SHR_MAP (R406). -/
def doShrMap (c : Cmd) (_r : Nat × Nat) (s : State) : State × Answer :=
  let b := payloadOf c
  let h := fieldN b 0 4
  let i := h % 65536
  let rh := fieldN b 4 4
  let rg := regionOf (rh % 65536) s
  let a := fieldN b 8 8
  let n := fieldN b 16 8
  let own := s.shr.maps.filter (fun m => m.2.live && m.2.conn = i)
  checkAll
    [ [ (a % 4096 ≠ 0, .inval, 16), (n % 4096 ≠ 0 || n = 0, .inval, 24), (4 ≤ fieldN b 24 1, .inval, 32), (2 ≤ fieldN b 25 1, .inval, 33) ],
      [ (s.dev.mode = .quarantine || s.rack.rmuLost, .again, 0) ],
      connChecks c h s, objChecks c rh 65536 rg.gen rg.live rg.fn s,
      [ (rg.tenant ≠ (connOf i s).tenant, .inval, 12), (own.any (fun m => overlaps a n m.2.remote m.2.len), .inval, 16),
        (rg.pages * 0x200000 < n, .inval, 24) ],
      [ (!shrRuns s || !((connOf i s).st = .opened), .busy, 0) ],
      [ (256 ≤ own.length || (freeIdx s.shr.maps (·.live) 65536).isNone, .nospc, 0) ] ]
    (fun _ =>
      let k := (freeIdx s.shr.maps (·.live) 65536).getD 0
      let g := firstGen (Tab.get s.shr.maps k).gen
      let m : ShrMap := { gen := g, live := true, fn := mbFn c.mb s, conn := i, region := rh % 65536, remote := a, len := n,
                          rd := bitN (fieldN b 24 1) 0, wr := bitN (fieldN b 24 1) 1, resend := fieldN b 25 1 = 1 }
      okWith (leBytes 4 (handleOf k g)) (modShr (fun u => { u with maps := Tab.put u.maps k m }) s)) s

/-- SHR_UNMAP (R407): it waits for the operation that executes through the window, held at an absent page. -/
def doShrUnmap (c : Cmd) (r : Nat × Nat) (s : State) : State × Answer :=
  let h := fieldN (payloadOf c) 0 4
  let k := h % 65536
  let m := Tab.get s.shr.maps k
  let busy : Bool := match (connOf m.conn s).inq with
    | o :: _ => o.whole && o.opc ≠ 5 && ((windowAt m.conn o.addr s).map (·.1)) = some k
    | [] => false
  checkAll [ objChecks c h 65536 m.gen m.live m.fn s, [ (m.unmap.isSome, .busy, 0) ] ]
    (fun _ =>
      if busy then (modShr (fun u => { u with maps := Tab.put u.maps k { m with unmap := some r } }) s, .later)
      else okWith [] (modShr (fun u => { u with maps := Tab.put u.maps k { gen := nextGen m.gen } }) s)) s

/-- SHR_CC_CFG. The values are validated by START (R394). -/
def doShrCcCfg (c : Cmd) (_r : Nat × Nat) (s : State) : State × Answer :=
  let b := payloadOf c
  checkAll [ [ (!zeroAt b 10 2, .inval, 18), (fnState 3 s ≠ .stopped, .busy, 0) ] ]
    (fun _ => okWith [] (modShr (fun u => { u with target := fieldN b 0 4, ai := fieldN b 4 4, md := fieldN b 8 2, minRate := fieldN b 12 4 }) s)) s

end Sys2Proof.Machine
end

