-- ==== Sys2Proof/Machine/MemCmd.lean ====
section
/-! DEFINITION. The memory commands of Table 7.6 and the host's BAR2 aperture (spec/13_memory.md, R317 - R322). -/

namespace Sys2Proof.Machine

/-- Take n pages from page p on for a region. Under ZERO they are absent for windows until the fill has passed them, which
SHR_PAGE_PRESENT tells (Windows and paging faults; log entry 80). -/
def takeRegion (p n tenant : Nat) (zero : Bool) (i : Nat) (s : State) : State :=
  setAbsent p n zero ((List.range n).foldl (fun s k => takePage (.region i) (some tenant) zero (p + k) s) s)

/-- MEM_ALLOC (R306, R534, R535, R706). -/
def doMemAlloc (c : Cmd) (_r : Nat × Nat) (s : State) : State × Answer :=
  let b := payloadOf c
  let size := fieldN b 0 8
  let n := size / 0x200000
  let t := fieldN b 8 2
  let run := if n ≤ 196608 then findRun (fun p => pageFree p s) n 196608 0 0 else none
  let idx := freeIdx s.srv.regions (·.live) 65536
  checkAll
    [ [ (size = 0 || size % 0x200000 ≠ 0, .inval, 8), (badTenant t, .inval, 16), (2 ≤ fieldN b 10 1, .inval, 18) ],
      [ (otherTenant c t s || !hasHbmKey t s, .noent, 0) ],
      [ (run.isNone || idx.isNone, .nospc, 0) ] ]
    (fun _ =>
      let p := run.getD 0
      let i := idx.getD 0
      let g := firstGen (regionOf i s).gen
      let r : MemRegion := { gen := g, live := true, fn := mbFn c.mb s, tenant := t, page := p, pages := n }
      okWith (leBytes 4 (handleOf i g) ++ [0, 0, 0, 0] ++ leBytes 8 (p * 0x200000))
        (takeRegion p n t (bitN (fieldN b 10 1) 0) i (modSrv (fun v => { v with regions := Tab.put v.regions i r }) s))) s

/-- A model, window or frame context uses a region. -/
def regionUsed (i : Nat) (s : State) : Bool :=
  s.srv.models.any (fun m => m.2.live && m.2.region = i) || s.shr.maps.any (fun m => m.2.live && m.2.region = i) ||
  s.frame.ctxs.any (fun f => f.2.live && f.2.region = i)

/-- A region's pages are free again; one that holds a poisoned word is retired (R311). -/
def dropRegion (i : Nat) (s : State) : State :=
  let r := regionOf i s
  (List.range r.pages).foldl (fun s k => dropPage (r.page + k) s)
    (modSrv (fun v => { v with regions := Tab.put v.regions i { gen := nextGen r.gen } }) s)

/-- The checks of a region handle. -/
def regionChecks (c : Cmd) (h : Nat) (s : State) : List (Bool × Status × Nat) :=
  let r := regionOf (h % 65536) s
  objChecks c h 65536 r.gen r.live r.fn s

/-- MEM_FREE (R311, R322). -/
def doMemFree (c : Cmd) (_r : Nat × Nat) (s : State) : State × Answer :=
  let h := fieldN (payloadOf c) 0 4
  checkAll [ regionChecks c h s, [ (regionUsed (h % 65536) s, .busy, 0) ] ] (fun _ => okWith [] (dropRegion (h % 65536) s)) s

/-- MEM_COPY. DIR 0 takes what the host's memory holds as the transfer brings it in. -/
def doMemCopy (c : Cmd) (_r : Nat × Nat) (s : State) : State × Answer :=
  let b := payloadOf c
  let src := fieldN b 0 8
  let dst := fieldN b 8 8
  let n := fieldN b 16 8
  let h := fieldN b 24 4
  let dir := fieldN b 28 1
  let r := regionOf (h % 65536) s
  checkAll
    [ [ (n % 64 ≠ 0, .inval, 24), (3 ≤ dir, .inval, 36) ], regionChecks c h s,
      [ (dir ≠ 0 && !r.holds src n, .inval, 8), (dir ≠ 1 && !r.holds dst n, .inval, 16) ] ]
    (fun _ =>
      if dir = 0 then
        match readHost (mbReq c.mb s) c.rd.data s with
        | none => (s, .now .fault 1 [])
        | some d => okWith [] (memWrite dst (slice d 0 n) s)
      else
        match memRead src n s with
        | (none, s1) => (s1, .now .fault 3 [])
        | (some d, s1) =>
          if dir = 2 then okWith [] (memWrite dst d s1)
          else if canIssue (mbReq c.mb s1) s1 then okWith [] (writeHost (mbReq c.mb s1) dst d s1)
          else (s1, .now .fault 1 [])) s

/-- Change one PCIe function. -/
def modPcieFn (fn : Nat) (f : PcieFn → PcieFn) (s : State) : State := { s with pcie := { s.pcie with fns := Tab.mod s.pcie.fns fn f } }

/-- APERTURE_SET (R318). -/
def doApertureSet (c : Cmd) (_r : Nat × Nat) (s : State) : State × Answer :=
  let a := fieldN (payloadOf c) 0 8
  checks [ (a % 0x40000000 ≠ 0 || 0x6000000000 ≤ a, .inval, 8) ]
    (fun _ => okWith [] (modPcieFn (mbReq c.mb s) (fun p => { p with localBase := a }) s)) s

/-- The function decodes its BARs now: it exists, the link is up, the host could configure it (no Configuration Retry Status) and it is in
D0. -/
def barDecoded (fn : Nat) (s : State) : Bool :=
  (liveFns s).contains fn && s.pcie.linkUp && !crs s && !(Tab.get s.pcie.fns fn).d3hot

/-- The bytes at a local address lie in a region that the function owns. -/
def ownsBytes (fn a n : Nat) (s : State) : Bool := s.srv.regions.any (fun r => r.2.fn = fn && r.2.holds a n)

/-- BAR2 is served: from READY on, and not in SAFE (R90, Table 23.4). -/
def bar2Served (s : State) : Bool := s.dev.mode = .ready || s.dev.mode = .degraded || s.dev.mode = .quarantine

/-- A BAR2 read of n bytes (R317, R319, Table 13.2). A request for a controller whose clock has stopped waits. -/
def bar2Read (fn off n : Nat) (s : State) : State :=
  let a := (Tab.get s.pcie.fns fn).localBase + off
  if !barDecoded fn s || !rangeRuns a n s then s
  else
    if !bar2Served s then emit (.bar2 (List.replicate n 0) false) s
    else if !ownsBytes fn a n s then emit (.bar2 (List.replicate n 0) false) (modView fn (fun v => { v with accUnmapped := true }) s)
    else
      match memRead a n s with
      | (some d, s1) => emit (.bar2 d false) s1
      | (none, s1) => emit (.bar2 (List.replicate n 0xFF) true) s1

/-- A BAR2 write (R310, R317, R319). -/
def bar2Write (fn off : Nat) (bs : List Byte) (s : State) : State :=
  let a := (Tab.get s.pcie.fns fn).localBase + off
  if !barDecoded fn s || !bar2Served s || !rangeRuns a bs.length s then s
  else
    if !ownsBytes fn a bs.length s then modView fn (fun v => { v with accUnmapped := true }) s
    else
      let bad := (badWords a bs.length s.mem).filter (fun w => Tab.get s.mem.ecc w = .poisoned && !covers a bs.length w)
      memWrite a bs (occur (bad.map (fun w => 0x0D0 + hbmStack w)) s)

/-- A poisoned write to BAR0, BAR2 or BAR4 (R453). -/
def poisonedWrite (fn bar : Nat) (s : State) : State :=
  if barDecoded fn s && (bar = 0 || bar = 2 || bar = 4) then raise 0x13D (modPcieFn fn (fun p => { p with poisonLogged := true }) s) else s

end Sys2Proof.Machine
end

