-- ==== Sys2Proof/Machine/Bowsprit.lean ====
section
/-! DEFINITION. The Bowsprit: arbitration, windows, lanes, delayed reads, posted writes, outbound cycles, interrupt lines and its
commands (spec/19_bowsprit.md). -/

namespace Sys2Proof.Machine

/-! ### Roles -/

/-- Change the Bowsprit. -/
def modBow (f : Bow → Bow) (s : State) : State := { s with bow := f s.bow }

/-- PLB_ROLE: 0 arbiter, 1 requester, 2 disabled (Table 2.8). -/
def plbRole (s : State) : Nat := bitsN s.pins.straps.toNat 2 2

/-- PCLK runs. -/
def pclkRuns (s : State) : Bool := !domainLost 11 s && plbRole s < 2 && !(s.dev.mode = .cold)

/-- The Bowsprit is RUNNING. -/
def bowRuns (s : State) : Bool := fnRunning 7 s

/-- From READY on, and not in SAFE or a warm reset (R497, R501). -/
def plbServed (s : State) : Bool := s.dev.mode = .ready || s.dev.mode = .degraded || s.dev.mode = .quarantine

/-- INT_N is low (R610): the collector, or a line routed to it. -/
def intNLow (s : State) : Bool :=
  ttIntLow s || (List.range 8).any (fun n => s.bow.low.getLsbD n && (Tab.get s.bow.routes n).target = 2 && (Tab.get s.bow.routes n).level)

/-! ### Lanes (Table 19.6, R486) -/

/-- Lanes of a width. -/
def lanesOf (width : Nat) : Nat := if width = 2 then 4 else if width = 1 then 2 else 1

/-- The lane of byte address a. -/
def laneOf (width a : Nat) : Nat := a % lanesOf width

/-- BE_N (active low, BE_N[3] for lane 0) with some lanes enabled. -/
def beOf (lanes : List Nat) : Nat := 15 - lanes.foldl (fun n l => n + 2 ^ (3 - l)) 0

/-- The byte on a lane of a word, and a word from its lanes. -/
def laneByte (w l : Nat) : Byte := BitVec.ofNat 8 (bitsN w (8 * (3 - l)) 8)

def laneWord (bs : List (Nat × Byte)) : Nat := bs.foldl (fun n b => n + b.2.toNat * 2 ^ (8 * (3 - b.1))) 0

/-- The byte addresses that beat k of an inbound cycle carries, by lane. -/
def inboundBytes (width addr be k : Nat) : List (Nat × Nat) :=
  let n := lanesOf width
  let a0 := addr / n * n + 4 * k
  ((List.range n).filter (fun l => !bitN be (3 - l))).map (fun l => (l, a0 + l))

/-! ### Arbitration (Table 19.4, R478) -/

/-- Cycles are queued behind the one that runs. -/
def moreCycles (s : State) : Bool := decide (1 < (s.bow.accs.map (fun x => x.cycles.length)).sum)

/-- The Bowsprit itself requests the bus: until the address phase of its last queued cycle. -/
def ownRequest (s : State) : Bool := s.bow.mst = .requesting || (s.bow.mst = .active && moreCycles s)

/-- Requester n's request, from the external lines. -/
def requests (req : Nat) (s : State) (n : Nat) : Bool := if n = 4 then ownRequest s else bitN req n

/-- The next requester: in rotation I, 0, 1, 2, 3 after the last one granted, or by rank in that order. -/
def nextGrant (req : Nat) (s : State) : Option Nat :=
  let order := [4, 0, 1, 2, 3]
  let l := if s.bow.fixedPrio then order
    else order.drop ((s.bow.lastGrant + 1) % 5 + 1) ++ order.take ((s.bow.lastGrant + 1) % 5 + 1)
  l.find? (fun n => requests req s n)

/-- One step of the arbiter: `req` the request lines that are low, `idle` the bus, `by_` the master of an address phase, `two` two
responses in one cycle, and the PCLK cycles since the last. -/
def arbitrate (req : Nat) (idle : Bool) (by_ : Option Nat) (two : Bool) (cycles : Nat) (s : State) : State :=
  if plbRole s ≠ 0 || !pclkRuns s then s
  else
    let s1 := if two then raise 0x14D s else s
    let s1 := modBow (fun b => { b with tenure := b.tenure + cycles }) s1
    match s1.bow.arb with
    | .idle =>
      let s2 := if by_.isSome then raise 0x14D s1 else s1
      if idle then
        match nextGrant req s2 with
        | some n => modBow (fun b => { b with arb := .granted n, tenure := 0, lastGrant := n }) s2
        | none => s2
      else s2
    | .granted n =>
      let s2 := if by_.any (fun m => m ≠ n) then raise 0x14D s1 else s1
      if !requests req s2 n && idle then modBow (fun b => { b with arb := .idle }) s2
      else if (List.range 5).any (fun m => m ≠ n && requests req s2 m) && s2.bow.maxTenure ≤ s2.bow.tenure then
        modBow (fun b => { b with arb := .ending n }) s2
      else s2
    | .ending n =>
      let s2 := if by_.any (fun m => m ≠ n) then raise 0x14D s1 else s1
      if idle then modBow (fun b => { b with arb := .idle }) s2 else s2

/-! ### Inbound windows (R481, R483) -/

/-- A PLB address lies in a window. -/
def PlbWin.holds (w : PlbWin) (a : Nat) : Bool := w.enable && w.base ≤ a && a < w.base + w.size

/-- The enabled inbound window of an address. -/
def inboundWin (a : Nat) (s : State) : Option Nat := firstIdx (fun i => (Tab.get s.bow.inw i).holds a) 0 8

/-- A region that a session of the PF or of the tray controller made holds the bytes. -/
def plbRegion (a n : Nat) (s : State) : Bool := s.srv.regions.any (fun r => (r.2.fn = 0 || r.2.fn = 16) && r.2.holds a n)

/-- Answer as target. An error is counted as the source PLB inbound error. -/
def plbReply (r : PlbResp) (s : State) : State :=
  emit (.plbReply r) (match r with
    | .err _ => raise 0x14B s
    | _ => s)

/-- A byte of the Masthead window (Table 6.6). -/
def pmbByte (off : Nat) (s : State) : Byte :=
  let p := s.host.plb
  if off < 0x400 then Tab.get p.cmd off
  else if 0x404 ≤ off && off < 0x408 then
    (leBytes 4 (b2n p.busy + 2 * b2n p.done + 256 * p.status + 65536 * p.clen)).getD (off - 0x404) 0
  else if 0x800 ≤ off && off < 0xC00 then Tab.get p.cpl (off - 0x800)
  else 0

/-- The words a read of the Masthead window returns. -/
def pmbRead (w : PlbWin) (addr be beats : Nat) (s : State) : List Nat :=
  (List.range beats).map (fun k => laneWord ((inboundBytes w.width addr be k).map (fun c => (c.1, pmbByte (c.2 - w.base) s))))

/-- A byte written to the Masthead window, but for GO. PMB_CMD is fixed while BUSY is 1. `recur`: a completion sets DONE in the same
cycle (R13). -/
def pmbWriteByte (recur : Bool) (off : Nat) (v : Byte) (s : State) : State :=
  let p := s.host.plb
  if off < 0x400 then (if p.busy then s else { s with host := { s.host with plb := { p with cmd := Tab.put p.cmd off v } } })
  else if off = 0x404 then { s with host := { s.host with plb := { p with done := (p.done && !v.getLsbD 1) || recur } } }
  else s

/-- Words of a fetch: one, or those up to the end of the 32-byte block of a burst. -/
def fetchBeats (d : DelayedRead) : Nat := if d.burst then (32 - d.addr % 32 + 3) / 4 else 1

/-- Change one delayed-read entry. -/
def modDread (i : Nat) (f : DelayedRead → DelayedRead) (s : State) : State := modBow (fun b => { b with dreads := Tab.mod b.dreads i f }) s

/-- A posted write lands, or is discarded (Table 19.8): its page must be in a region, and a word it writes in part not poisoned.
An entry of a COMPLETE delayed read that it overlaps is freed (R492). -/
def landWrite (p : Posted) (s : State) : State :=
  let bad := p.bytes.any (fun c => !plbRegion c.1 1 s || Tab.get s.mem.ecc (wordOf c.1) = .poisoned)
  if bad then raise 0x14C s else p.bytes.foldl (fun s c => memWrite c.1 [c.2] s) s

/-- The posted writes before a serial number land in order (R491, R492). -/
def landBefore (n : Nat) (s : State) : State :=
  (s.bow.wbuf.filter (fun p => p.serial < n)).foldl (fun s p => landWrite p s)
    (modBow (fun b => { b with wbuf := b.wbuf.filter (fun p => !(p.serial < n)) }) s)

/-- The oldest posted write lands. -/
def landOldest (s : State) : State :=
  match s.bow.wbuf with
  | p :: _ => landBefore (p.serial + 1) s
  | [] => s

/-- The local address of byte address a of inbound window w. -/
def PlbWin.toLocal (w : PlbWin) (a : Nat) : Nat := w.lcl + (a - w.base)

/-- An inbound read cycle (R490, R497, R499, Table 19.7). -/
def inboundRead (addr be : Nat) (burst : Bool) (beats : Nat) (owner : Option Nat) (s : State) : State :=
  if !pclkRuns s then s
  else
    match inboundWin addr s with
    | none => s
    | some i =>
      let w := Tab.get s.bow.inw i
      let own := if plbRole s = 0 then owner else none
      if !plbServed s then plbReply .retry s
      else if i = 0 then plbReply (.ready (pmbRead w addr be (if burst then beats else 1) s)) s
      else if !bowRuns s then plbReply .retry s
      else
        match firstIdx (fun k => let d := Tab.get s.bow.dreads k
                                 !(d.st = .free) && d.addr = addr && d.be = be && d.burst = burst && d.owner = own) 0 4 with
        | some k =>
          let d := Tab.get s.bow.dreads k
          match d.st with
          | .complete =>
            let n := if burst then beats else 1
            plbReply (if n ≤ d.words.length then .ready (d.words.take n) else .err d.words) (modDread k (fun _ => {}) s)
          | .failed => plbReply (.err []) (modDread k (fun _ => {}) s)
          | _ => plbReply .retry s
        | none =>
          match firstIdx (fun k => (Tab.get s.bow.dreads k).st = .free) 0 4 with
          | some k => plbReply .retry (modDread k (fun _ =>
              { st := .pending, addr := addr, be := be, burst := burst, owner := own, win := i, after := s.bow.nextPost }) s)
          | none => plbReply .retry s

/-- A delayed-read fetch ends (R491, Table 19.7); `ok` is false for a fetch that failed on its way. -/
def fetchDone (i : Nat) (ok : Bool) (s : State) : State :=
  let d := Tab.get s.bow.dreads i
  if 4 ≤ i || !(d.st = .pending) then s
  else
    let s1 := landBefore d.after s
    let w := Tab.get s1.bow.inw d.win
    let n := lanesOf w.width
    let a0 := w.toLocal (d.addr / n * n)
    let len := if d.burst then 4 * fetchBeats d else n
    if !ok || !plbRegion a0 len s1 then modDread i (fun d => { d with st := .failed }) s1
    else
      match memRead a0 len s1 with
      | (none, s2) => modDread i (fun d => { d with st := .failed }) s2
      | (some bs, s2) =>
        let word (k : Nat) : Nat := laneWord ((inboundBytes w.width d.addr d.be k).map (fun c => (c.1, bs.getD (w.toLocal c.2 - a0) 0)))
        modDread i (fun d => { d with st := .complete, words := (List.range (if d.burst then fetchBeats d else 1)).map word }) s2

/-- An entry not retrieved within 32,768 PCLK cycles is freed. -/
def dreadDiscard (i : Nat) (s : State) : State :=
  let d := Tab.get s.bow.dreads i
  if i < 4 && (d.st = .complete || d.st = .failed) then raise 0x14E (modDread i (fun _ => {}) s) else s

/-- An inbound write cycle (R492, R497, R499): the second part says that GO of the Masthead window was written as 1. -/
def inboundWrite (addr be : Nat) (burst : Bool) (words : List Nat) (recur : Bool) (s : State) : Bool × State :=
  if !pclkRuns s then (false, s)
  else
    match inboundWin addr s with
    | none => (false, s)
    | some i =>
      let w := Tab.get s.bow.inw i
      let ws := if burst then words else words.take 1
      let bytes := (List.range ws.length).flatMap (fun k => (inboundBytes w.width addr be k).map (fun c => (c.2, laneByte (ws.getD k 0) c.1)))
      if !plbServed s then (false, plbReply .retry s)
      else if i = 0 then
        let s1 := bytes.foldl (fun s c => pmbWriteByte recur (c.1 - w.base) c.2 s) s
        (bytes.any (fun c => c.1 - w.base = 0x400 && c.2.getLsbD 0), plbReply (.ready []) s1)
      else if !bowRuns s || 8 ≤ s.bow.wbuf.length then (false, plbReply .retry s)
      else
        let loc := bytes.map (fun c => (w.toLocal c.1, c.2))
        let hit (d : DelayedRead) : Bool := d.st = .complete &&
          let dw := Tab.get s.bow.inw d.win
          let n := lanesOf dw.width
          let lo := dw.toLocal (d.addr / n * n)
          loc.any (fun c => lo ≤ c.1 && c.1 < lo + (if d.burst then 4 * d.words.length else n))
        let s1 := modBow (fun b => { b with wbuf := b.wbuf ++ [{ serial := b.nextPost, bytes := loc }], nextPost := b.nextPost + 1
                                            dreads := b.dreads.filter (fun c => !hit c.2) }) s
        (false, plbReply (.ready []) s1)

/-! ### Outbound cycles (R484 - R488, R493, R496) -/

/-- Single cycles for the bytes of one access, in ascending address. -/
def singleCycles (width a n : Nat) : Nat → Nat → List PlbCycle
  | 0, _ => []
  | fuel + 1, off =>
    if n ≤ off then []
    else
      let l := lanesOf width
      let x := a + off
      let k := min (l - x % l) (n - off)
      let lanes := (List.range k).map (fun j => ((x + j) % l, off + j))
      { addr := x / l * l, be := beOf (lanes.map (·.1)), beats := [lanes] } :: singleCycles width a n fuel (off + k)

/-- Whole words from offset off on, within one 32-byte block. -/
def wordRun (a n off : Nat) : Nat := if (a + off) % 4 = 0 then min ((n - off) / 4) ((32 - (a + off) % 32) / 4) else 0

/-- The cycles of an access through a window (R488). -/
def splitCycles (width : Nat) (burstOk : Bool) (a n : Nat) : Nat → Nat → List PlbCycle
  | 0, _ => []
  | fuel + 1, off =>
    if n ≤ off then []
    else if width = 2 && burstOk && 2 ≤ wordRun a n off then
      let k := wordRun a n off
      { addr := a + off, be := 0, burst := true, beats := (List.range k).map (fun j => (List.range 4).map (fun l => (l, off + 4 * j + l))) } ::
        splitCycles width burstOk a n fuel (off + 4 * k)
    else
      match singleCycles width a n 1 off with
      | c :: _ => c :: splitCycles width burstOk a n fuel (off + (c.beats.headD []).length)
      | [] => []

/-- The cycles of an access, with the words of a write. -/
def accCycles (width : Nat) (burstOk : Bool) (a n : Nat) (data : Option (List Byte)) : List PlbCycle :=
  (splitCycles width burstOk a n n 0).map (fun c => match data with
    | some d => { c with words := c.beats.map (fun b => laneWord (b.map (fun x => (x.1, d.getD x.2 0)))) }
    | none => c)

/-- The boot ROM loads firmware from the PLB: after a cold reset, in FW_LOAD, with BOOT_SRC 0b10 (R497, R498). -/
def bootPlb (s : State) : Bool :=
  s.dev.mode = .boot && !s.dev.warm && !s.dev.fail && s.dev.stage = 3 && bitsN s.pins.straps.toNat 0 2 = 2

/-- The bus is ours to start a cycle on: granted, idle, PCLK running, and in a state that starts cycles (R477, R480, R497, R501). -/
def mayStart (granted idle : Bool) (s : State) : Bool := granted && idle && pclkRuns s && (plbServed s || bootPlb s)

/-- PLB_REQ_N[0], which only a requester drives, goes low for `want` (R42, R43, R480). -/
def driveReq (want : Bool) (s : State) : State := modBow (fun b => { b with reqLow := want && plbRole s = 1 }) s

/-- The address phase of the head cycle. The request ends with the last queued cycle. -/
def startCycle (s : State) : State :=
  match s.bow.accs with
  | [] => s
  | x :: xs =>
    match x.cycles with
    | [] => s
    | c :: cs => emit (.plbCycle c.addr c.be x.read c.burst c.words)
        (modBow (fun b => { b with mst := .active, reqLow := b.reqLow && !(xs.isEmpty && cs.isEmpty) }) s)

/-- The head access ends. -/
def accEnd (detail : Option Nat) (s : State) : State :=
  match s.bow.accs with
  | [] => s
  | x :: xs =>
    let s1 := driveReq (!xs.isEmpty) (modBow (fun b => { b with accs := xs, mst := if xs.isEmpty then .idle else .requesting, retries := 0 }) s)
    match x.ref, detail with
    | some r, some d => finish r .fault d [] (raise 0x14A s1)
    | some r, none => finish r .ok 0 (if x.read then leBytes 4 (beNat (Tab.getList x.got 0 x.n)) else []) s1
    | none, some _ => let s2 := raise 0x14A s1
                      if x.read then emit (.plbRead (List.replicate x.n 0xFF)) s2 else s2
    | none, none => if x.read then emit (.plbRead (Tab.getList x.got 0 x.n)) s1 else s1

/-- Queue an access and request the bus. -/
def queueAcc (x : PlbAcc) (s : State) : State :=
  driveReq true (modBow (fun b => { b with accs := b.accs ++ [x], mst := if b.mst = .idle then .requesting else b.mst }) s)

/-- A firmware access through an outbound window (R484); in BOOT the boot ROM's reads through window 0 alone (R497, R498). -/
def fwAccess (f : PlbFw) (s : State) : State :=
  let w := Tab.get s.bow.outw f.win
  let n := match f.data with
    | some d => d.length
    | none => f.n
  if 8 ≤ f.win || !w.enable || w.size < f.off + n || n = 0 || !(bowRuns s || (bootPlb s && f.win = 0 && f.data.isNone)) then
    (match f.data with
     | none => emit (.plbRead (List.replicate f.n 0xFF)) s
     | some _ => s)
  else queueAcc { read := f.data.isNone, n := n, cycles := accCycles w.width w.burstOk (w.base + f.off) n f.data } s

/-- A queued access requests the bus; as arbiter the own grant starts its next cycle. -/
def outboundAccess (fw : Option PlbFw) (idle : Bool) (s : State) : State :=
  let s1 := match fw with
    | some f => fwAccess f s
    | none => s
  if s1.bow.mst = .requesting && plbRole s1 = 0 && mayStart (s1.bow.arb = .granted 4) idle s1 then startCycle s1 else s1

/-- PLB_GNT_N[0] is sampled low with the bus idle (R480). -/
def grantReceived (idle : Bool) (s : State) : State :=
  if s.bow.mst = .requesting && plbRole s = 1 && mayStart true idle s then startCycle s else s

/-- The bytes that the beats of a cycle returned. -/
def takeBeats (x : PlbAcc) (c : PlbCycle) (ws : List Nat) : PlbAcc :=
  { x with got := (List.range (min ws.length c.beats.length)).foldl (fun t k =>
      (c.beats.getD k []).foldl (fun t b => Tab.put t b.2 (laneByte (ws.getD k 0) b.1)) t) x.got }

/-- A cycle has completed: the next of the access, or the access's end. -/
def cycleDone (ws : List Nat) (s : State) : State :=
  match s.bow.accs with
  | [] => s
  | x :: xs =>
    match x.cycles with
    | [] => s
    | c :: cs =>
      let x1 : PlbAcc := { takeBeats x c ws with cycles := cs }
      let s1 := modBow (fun b => { b with accs := x1 :: xs, retries := 0 }) s
      if cs.isEmpty then accEnd none s1 else modBow (fun b => { b with mst := .requesting }) s1

/-- A target ends a data phase (Table 19.8, R496). -/
def targetResponse (r : PlbResp) (s : State) : State :=
  if !(s.bow.mst = .active) then s
  else
    match r with
    | .ready ws => cycleDone ws s
    | .err _ => accEnd (some 1) s
    | .retry => if 255 ≤ s.bow.retries then accEnd (some 2) s
                else driveReq false (modBow (fun b => { b with mst := .waiting, retries := b.retries + 1 }) s)

/-- 16 PCLK cycles after a RETRY the cycle is repeated. -/
def retryWait (s : State) : State :=
  if s.bow.mst = .waiting then driveReq true (modBow (fun b => { b with mst := .requesting }) s) else s

/-- 256 PCLK cycles without a response: a target error. -/
def noResponse (s : State) : State := if s.bow.mst = .active then accEnd (some 1) s else s

/-- No grant within 1 ms. -/
def grantTimeout (s : State) : State := if s.bow.mst = .requesting then accEnd (some 3) s else s

/-! ### Interrupt lines (R502) -/

/-- The action of a line's route. -/
def lineAct (n : Nat) (s : State) : State :=
  let r := Tab.get s.bow.routes n
  if r.target = 0 then raise (0x150 + n) s else if r.target = 1 then sendMsix 0 r.vec s else s

/-- A sampled fall. With PLB_ROLE 0b10 the receivers are disabled (R42). -/
def irqAssert (n : Nat) (s : State) : State :=
  if 8 ≤ n || !plbServed s || !(plbRole s < 2) || s.bow.low.getLsbD n then s
  else lineAct n (modBow (fun b => { b with low := setBit b.low n true }) s)

/-- The repeat of level mode, every 1 ms while the line stays low. -/
def irqRepeat (n : Nat) (s : State) : State :=
  if n < 8 && plbServed s && plbRole s < 2 && s.bow.low.getLsbD n && (Tab.get s.bow.routes n).level then lineAct n s else s

/-- The line is sampled high again. -/
def irqDeassert (n : Nat) (s : State) : State :=
  if n < 8 then modBow (fun b => { b with low := setBit b.low n false }) s else s

/-! ### START, STOP and the commands (Table 7.18) -/

/-- A power of two from 4 KiB to 256 MiB. -/
def plbSizeOk (n : Nat) : Bool := (List.range 17).any (fun k => n = 4096 * 2 ^ k)

/-- START validates (R479, R481, R504). -/
def bowValid (s : State) : Bool :=
  let w (i : Nat) : PlbWin := Tab.get s.bow.inw i
  let ok (x : PlbWin) : Bool := !x.enable || (plbSizeOk x.size && x.base % x.size = 0 && (!x.burstOk || x.width = 2))
  (List.range 8).all (fun i => ok (Tab.get s.bow.outw i) && ok (w i)) &&
  (List.range 8).all (fun i => (List.range i).all (fun j => !((w i).enable && (w j).enable && overlaps (w i).base (w i).size (w j).base (w j).size))) &&
  (!(w 0).enable || (w 0).size = 4096) &&
  (List.range 7).all (fun i => !(w (i + 1)).enable || ((w (i + 1)).lcl % 4096 = 0 && plbRegion (w (i + 1)).lcl (w (i + 1)).size s)) &&
  16 ≤ s.bow.maxTenure && s.bow.maxTenure ≤ 65535 && (s.pins.straps.getLsbD 4 || (24 ≤ s.bow.pclkDiv && s.bow.pclkDiv ≤ 96)) &&
  (List.range 8).all (fun n => let r := Tab.get s.bow.routes n
                               !(r.target = 2 && !r.level) && !(r.target = 1 && 63 < r.vec))

/-- A PCLK_DIV accepted at START changes PLB_CLKO (R44; with PLB_ROLE 0b10 the model's choice, log entry 76). -/
def bowStart (s : State) : State :=
  if s.pins.straps.getLsbD 4 then s else { s with pins := { s.pins with plbClkoDiv := s.bow.pclkDiv } }

/-- FUNC_STOP completes (R500). -/
def bowDrained (s : State) : Bool :=
  s.bow.accs.isEmpty && s.bow.wbuf.isEmpty && !(s.bow.dreads.any (fun c => c.2.st = .pending))

/-- Every delayed-read entry is freed at STOPPED (R500) and as a warm reset begins (Table 19.7). -/
def bowStopped (s : State) : State := modBow (fun b => { b with dreads := [] }) s

/-- PLB_WINDOW. The window is validated by START (R481). -/
def doPlbWindow (c : Cmd) (_r : Nat × Nat) (s : State) : State × Answer :=
  let p := payloadOf c
  let i := fieldN p 1 1
  let fl := fieldN p 3 1
  let w : PlbWin := { enable := bitN fl 0, burstOk := bitN fl 1, base := fieldN p 4 4, size := fieldN p 8 4, width := fieldN p 2 1, lcl := fieldN p 16 8 }
  checkAll [ [ (2 ≤ fieldN p 0 1, .inval, 8), (8 ≤ i, .inval, 9), (3 ≤ fieldN p 2 1, .inval, 10), (4 ≤ fl, .inval, 11), (!zeroAt p 12 4, .inval, 20),
      (!(fnState 7 s = .stopped), .busy, 0) ] ]
    (fun _ => okWith [] (modBow (fun b => if fieldN p 0 1 = 0 then { b with outw := Tab.put b.outw i w } else { b with inw := Tab.put b.inw i w }) s)) s

/-- WIDTH for PLB_ACCESS (R485). -/
def accessWidth (a : Nat) (s : State) : Nat :=
  match firstIdx (fun i => (Tab.get s.bow.outw i).holds a) 0 8 with
  | some i => (Tab.get s.bow.outw i).width
  | none => 2

/-- PLB_ACCESS (R483, R485, R487). -/
def doPlbAccess (c : Cmd) (r : Nat × Nat) (s : State) : State × Answer :=
  let p := payloadOf c
  let a := fieldN p 0 4
  let n := fieldN p 4 1
  let rw := fieldN p 5 1
  checkAll [ [ (n ≠ 0 && a % n ≠ 0, .inval, 8), (!(n = 1 || n = 2 || n = 4), .inval, 12), (2 ≤ rw, .inval, 13), (!zeroAt p 6 2, .inval, 14),
      (rw = 0 && 256 ^ n ≤ fieldN p 8 4, .inval, 16) ],
      [ ((inboundWin a s).isSome, .inval, 8), (!bowRuns s, .busy, 0) ] ]
    (fun _ =>
      let data := if rw = 1 then none else some (beBytes n (fieldN p 8 4))
      (queueAcc { ref := some r, read := rw = 1, n := n, cycles := accCycles (accessWidth a s) false a n data } s, .later)) s

/-- PLB_IRQ_ROUTE. The route is validated by START (R504). -/
def doPlbIrqRoute (c : Cmd) (_r : Nat × Nat) (s : State) : State × Answer :=
  let p := payloadOf c
  let n := fieldN p 0 1
  let x : PlbRoute := { target := fieldN p 1 1, vec := fieldN p 2 1, level := bitN (fieldN p 3 1) 0 }
  checkAll [ [ (8 ≤ n, .inval, 8), (3 ≤ fieldN p 1 1, .inval, 9), (2 ≤ fieldN p 3 1, .inval, 11), (!(fnState 7 s = .stopped), .busy, 0) ] ]
    (fun _ => okWith [] (modBow (fun b => { b with routes := Tab.put b.routes n x }) s)) s

/-- PLB_ARB_CFG. PCLK_DIV and MAX_TENURE are validated by START (R479). -/
def doPlbArbCfg (c : Cmd) (_r : Nat × Nat) (s : State) : State × Answer :=
  let p := payloadOf c
  checkAll [ [ (2 ≤ fieldN p 0 1, .inval, 8), (!(fnState 7 s = .stopped), .busy, 0) ] ]
    (fun _ => okWith [] (modBow (fun b => { b with fixedPrio := fieldN p 0 1 = 1, pclkDiv := fieldN p 1 1, maxTenure := fieldN p 2 2 }) s)) s

end Sys2Proof.Machine
end

