-- ==== Sys2Proof/Machine/ReefCut.lean ====
section
/-! DEFINITION. Reef at a context's step boundary: the cut and the freeze, what a context image holds, and what drops a context
(spec/22_reef.md, R569 - R573, R581, R591, R592). -/

namespace Sys2Proof.Machine

/-- Image positions that a frame inserts (Frames in a request). -/
def framePatches (f : Option (Nat × Nat)) (s : State) : Nat :=
  match f with
  | some (g, n) => let t := slotOf g n s; (fctxOf g s).patches t.width t.height
  | none => 0

def snapOf (i : Nat) (s : State) : Snap := Tab.get s.reef.snaps i

def modSnap (i : Nat) (f : Snap → Snap) (s : State) : State := modReef (fun r => { r with snaps := Tab.mod r.snaps i f }) s

/-- The bytes of a message as Shroud carries them. -/
def reefBytes (m : ReefMsg) : List Byte := (List.range ((Config.reefLen m).toNat + 1)).map (Config.reefByte m)

/-- A message to the Reef unit of a member, on the system connection. -/
def reefSend (dev : Nat) (m : ReefMsg) (s : State) : State :=
  if activeMember dev s && s.dev.mode ≠ .quarantine then sysMessage none dev (reefBytes m) (emit (.reef dev m) s) else s

/-- The connection that carries images to a device: the one of REEF_CFG CONN, or the system connection (Peer HBM). -/
def reefConn (dev : Nat) (s : State) : Option Nat :=
  if s.reef.conn ≠ 0 && s.reef.peerDev = dev then some (s.reef.conn % 65536) else (Tab.get s.rack.peers dev).sysConn

/-- Bytes leave as WRITEs of at most 16 MiB each. -/
def writePieces (i : Nat) : Nat → Nat → List Byte → State → State
  | 0, _, _, s => s
  | fuel + 1, a, bs, s =>
    if bs.isEmpty then s
    else
      let now := bs.take 0x1000000
      writePieces i fuel (a + now.length) (bs.drop 0x1000000)
        (clientPost (.message none) i { id := 0, kind := 2, addr := a, len := now.length, data := now } s)

/-- An image, or what has changed of one, goes to a device (Peer HBM; Evacuation, step 2). -/
def imageSend (dev handle : Nat) (bs : List Byte) (s : State) : State :=
  match reefConn dev s with
  | some i => writePieces i (bs.length / 0x1000000 + 1) (Config.reefAddr handle) bs s
  | none => s

/-! ### What an image holds (Tables 22.2, 22.3) -/

/-- Positions whose KV goes into an image: up to the first one that is still to be computed or fetched here. -/
def kvEnd (dev n : Nat) : Nat → List Blk → Nat
  | i, [] => min n (32 * i)
  | i, b :: bs =>
    match b.kind with
    | .mapped => kvEnd dev n (i + 1) bs
    | .priv => if blkLen n i ≤ b.done then kvEnd dev n (i + 1) bs else 32 * i + b.done
    | .building => if b.dev ≠ dev then 32 * i else if blkLen n i ≤ b.done then kvEnd dev n (i + 1) bs else 32 * i + b.done
    | _ => 32 * i

/-- Positions of context x in its image. -/
def ctxTokens (x : Ctx) (s : State) : Nat := min x.toks.length (kvEnd (devNum s) x.toks.length 0 x.blocks)

/-- The private KV of an image: local address, length, and place, of every block not held by key. -/
def ctxParts (x : Ctx) (s : State) : List (Nat × Nat × Nat) :=
  let slot := privSlot (modelOf x.model s)
  (List.range x.blocks.length).filterMap (fun i =>
    let b := x.blocks.getD i {}
    if ctxTokens x s ≤ 32 * i then none
    else if b.kind = .priv then some (x.privPage * 0x200000 + i * slot, slot, i * slot)
    else if b.kind = .building then some (b.addr, slot, i * slot)
    else none)

/-- The 64 KiB chunks that some ranges touch. -/
def chunksOf (ps : List (Nat × Nat × Nat)) : List Nat :=
  (ps.flatMap (fun p => if p.2.1 = 0 then [] else (List.range ((p.1 + p.2.1 - 1) / 65536 + 1 - p.1 / 65536)).map (· + p.1 / 65536))).eraseDups

/-- N_KEYS keys: zero marks a private block. -/
def ctxSnapKeys (x : Ctx) (s : State) : List Nat :=
  (x.blocks.take (ctxTokens x s / 32)).map (fun b => if b.kind = .mapped then b.key else 0)

/-- The context record of Table 22.3. -/
def ctxRecord (c : Nat) (privBytes : Nat) (s : State) : List Byte :=
  let x := ctxOf c s
  let m := modelOf x.model s
  let r := x.req.getD { ref := (0, 0), maxNew := 0 }
  let has := x.req.isSome
  let us := (s.time.mono - r.fetched) / 1000
  let left := if !has || r.deadline = 0 then 0 else max 1 (r.deadline - us)
  padTo 256
    (leBytes 4 (ctxHandle c s) ++ leBytes 2 x.tenant ++ leBytes 2 x.pdom ++ leBytes 8 m.tag ++ leBytes 4 m.crc ++ leBytes 1 x.prio ++
     leBytes 1 (b2n x.noFurl + 2 * b2n x.copied + 4 * b2n has) ++ leBytes 2 0 ++ leBytes 4 (ctxTokens x s) ++ leBytes 4 (ctxTokens x s) ++
     leBytes 4 (ctxSnapKeys x s).length ++ leBytes 4 (x.pendTok.getD 0xFFFFFFFF) ++ leBytes 4 (r.maxNew - r.out) ++ leBytes 4 r.stop ++
     leBytes 4 left ++ leBytes 1 (b2n r.pubDecode + 2 * b2n r.frame.isSome + 4 * b2n (has && r.base ≠ 0)) ++ leBytes 3 0 ++ leBytes 8 privBytes ++
     leBytes 4 x.tokensOut ++ leBytes 4 r.hit ++ leBytes 4 r.built ++ leBytes 4 r.waited ++ leBytes 4 r.prefill ++
     leBytes 8 (if has then s.time.mono - r.fetched else 0) ++ leBytes 4 r.framePos ++ leBytes 4 (framePatches r.frame s))

/-- The image of a context without its private KV. -/
def ctxImage (c : Nat) (s : State) : ReefImage :=
  let x := ctxOf c s
  { record := ctxRecord c (65536 * (chunksOf (ctxParts x s)).length) s, keys := ctxSnapKeys x s, ids := x.toks.take (ctxTokens x s) }

/-- Bytes of an image in the layout. -/
def imageBytes (g : ReefImage) : Nat := roundUp 64 (256 + 16 * g.keys.length + 4 * g.ids.length + fieldN g.record 56 8)

/-- PRIV_BYTES of bytes as they stand, of some chunks of a context's parts. -/
def readChunks (ks : List Nat) (parts : List (Nat × Nat × Nat)) (s : State) : List (Nat × Byte) :=
  ks.foldl (fun kv k => takeChunk k parts s.mem.bytes kv) []

/-! ### Slots of the Reef areas (Targets) -/

/-- The drives that take an NVMe snapshot. -/
def reefDrives (s : State) : List Nat := [0, 1].filter (fun d => reefOn d s && driveUp d s)

/-- Logical blocks of one slot, and where slot n of drive d begins. -/
def slotLbas (d : Nat) (s : State) : Nat := (driveOf d s).label.reefLbas / 4

def slotFirst (d n : Nat) (s : State) : Nat := (driveOf d s).label.reefFirst + n * slotLbas d s

/-- The bytes of the smaller slot. -/
def slotRoom (s : State) : Nat := (reefDrives s).foldl (fun n d => min n (4096 * slotLbas d s)) (2 ^ 62)

/-- Write n bytes at an offset of a slot on every drive that takes the snapshot. -/
def reefWrite (i slot off n loc : Nat) (s : State) : State :=
  (reefDrives s).foldl (fun s d =>
    nvSubmit d .write (.reef i) (slotFirst d slot s + off / 4096) ((off % 4096 + n + 4095) / 4096) loc s) s

/-! ### A snapshot that ends without READY -/

/-- The references of a snapshot go. -/
def dropSnapRefs (i : Nat) (s : State) : State :=
  modSnap i (fun x => { x with keys := [] }) ((snapOf i s).keys.foldl (fun s k => dropRef k s) s)

/-- The state that snapshots held leave the unit in. -/
def reefRest (s : State) : State :=
  modReef (fun r => { r with st := if r.snaps.any (fun x => x.2.live && x.2.ready) then .ready else .idle }) s

/-- No context waits for a copy any more: the protect bits of a snapshot go, and STATE 4 ends. -/
def endCopy (i : Nat) (s : State) : State :=
  (snapOf i s).ctxs.foldl (fun s g => if (ctxOf g.ctx s).snapped then modCtx g.ctx (fun x => { x with snapped := false }) s else s)
    (modReef (fun r => { r with queue := [] }) s)

/-- Free a snapshot's handle, with its references and, on NVMe, its slot. -/
def freeSnap (i : Nat) (s : State) : State :=
  let x := snapOf i s
  let s1 := dropSnapRefs i s
  let s2 := match x.target with
    | .nvme n => modReef (fun r => { r with media := Tab.dropIf r.media (fun k _ => k = n || k = 4 + n) }) s1
    | .peer _ => s1
  modReef (fun r => { r with snaps := Tab.put r.snaps i { gen := nextGen x.gen } }) (dropClient (.reef i) s2)

/-- A snapshot has FAILED (Table 22.4): freed, its source raised, its command answered. The spec gives the command's DETAIL for a
poisoned word only (Table 13.2); otherwise it is a free value (log entry 33). -/
def snapFailed (i : Nat) (s : State) : State :=
  let x := snapOf i s
  let (v, s1) := drawFree s
  let s2 := raise 0x163 (reefRest (freeSnap i (endCopy i s1)))
  match x.ref with
  | some r => finish r .fault (if x.poisoned then 3 else (v.toNat % 65536)) [] s2
  | none => s2

/-- The slot number of an NVMe snapshot: one whose slot holds nothing on any REEF drive, else that of the oldest not in use. -/
def chooseSlot (i : Nat) (s : State) : Option Nat :=
  let used := fun (n : Nat) => s.reef.snaps.any (fun x => x.1 ≠ i && x.2.live && x.2.target = .nvme n) ||
    (Tab.get s.reef.media n).whole || (Tab.get s.reef.media (4 + n)).whole
  match firstIdx (fun n => !used n) 0 4 with
  | some n => some n
  | none =>
    let olds := s.reef.snaps.filter (fun x => x.1 ≠ i && x.2.live && x.2.ready && match x.2.target with | .nvme _ => true | _ => false)
    (olds.foldl (fun (m : Option (Nat × Nat)) x => match x.2.target, m with
      | .nvme n, none => some (n, x.2.at_)
      | .nvme n, some (k, t) => if x.2.at_ < t then some (n, x.2.at_) else some (k, t)
      | _, _ => m) none).map (·.1)

/-- Free the snapshot, if any, that holds a slot number. -/
def clearSlot (i n : Nat) (s : State) : State :=
  let s1 := s.reef.snaps.foldl (fun s x => if x.1 ≠ i && x.2.live && x.2.target = .nvme n then freeSnap x.1 s else s) s
  modReef (fun r => { r with media := Tab.dropIf r.media (fun k _ => k = n || k = 4 + n) }) s1

/-- Direct a snapshot to NVMe, from its first chunk on; it fails without a drive or a slot. -/
def toNvme (i : Nat) (s : State) : State :=
  match (if (reefDrives s).isEmpty then none else chooseSlot i s) with
  | none => snapFailed i s
  | some n =>
    let s1 := modSnap i (fun x => { x with target := .nvme n, header := false, sent := false }) (clearSlot i n s)
    if slotRoom s1 < (snapOf i s1).total then snapFailed i s1
    else
      let cuts := (snapOf i s1).ctxs.filter (fun g => g.cut)
      (cuts.foldl (fun (p : Nat × State) g =>
        (p.1 + imageBytes g.image, reefWrite i n p.1 (imageBytes g.image) ((g.parts.headD (0, 0, 0)).1) p.2)) (64, s1)).2

/-! ### The cut (R569 - R572) -/

/-- The snapshot being taken. -/
def takingSnap (s : State) : Option Nat := (s.reef.snaps.find? (fun x => x.2.live && !x.2.ready)).map (·.1)

/-- The entry of context c that snapshot i still has to cut. -/
def uncut (i c : Nat) (s : State) : Option SnapCtx := (snapOf i s).ctxs.find? (fun g => g.ctx = c && !g.cut && !g.lost)

/-- Every protected chunk is read. -/
def readQueue (s : State) : State := s.reef.queue.foldl (fun s k => reefRead k s) s

/-- The header of an NVMe snapshot goes to the drives once every context is cut and every other byte has been written (R576). -/
def reefHeader (i : Nat) (s : State) : State :=
  let x := snapOf i s
  match x.target with
  | .nvme n =>
    if x.live && !x.ready && !x.header && x.ctxs.all (fun g => g.cut || g.lost) && clientIdle (.reef i) s then
      reefWrite i n 0 64 0 (modSnap i (fun x => { x with header := true }) (readQueue s))
    else s
  | .peer _ => s

/-- Cut context c for snapshot i: record it, protect its chunks, hold its keys. -/
def cutCtx (i c : Nat) (s : State) : State :=
  match uncut i c s with
  | none => s
  | some g0 =>
    let x := ctxOf c s
    let parts := ctxParts x s
    let ks := chunksOf parts
    let g : SnapCtx := { g0 with cut := true, image := ctxImage c s, parts := parts, chunks := ks, area := (x.privPage * 32, x.privPages * 32) }
    let y := snapOf i s
    let new := (g.image.keys.filter (fun k => k ≠ 0 && !y.keys.contains k)).eraseDups
    let s1 := new.foldl (fun s k => holdRef k s) s
    let s2 := modSnap i (fun y => { y with
      ctxs := y.ctxs.filter (fun h => h.ctx ≠ c) ++ [g], keys := y.keys ++ new
      locs := y.locs ++ (x.blocks.filter (fun b => b.kind = .mapped && new.contains b.key)).map (fun b => (b.key, b.dev)), total := y.total + imageBytes g.image,
      cutNs := match y.cutNs with | none => some s.time.mono | t => t }) s1
    let s3 := modReef (fun r => { r with queue := r.queue ++ ks.filter (fun k => !r.queue.contains k) }) (modCtx c (fun x => { x with snapped := true }) s2)
    match y.target with
    | .nvme n =>
      if slotRoom s3 < (snapOf i s3).total then snapFailed i s3
      else reefWrite i n y.total (imageBytes g.image) ((parts.headD (0, 0, 0)).1) s3
    | .peer _ => s3

/-! ### The freeze (R581) -/

/-- The replicas of the models of some contexts that a peer neither holds nor has been sent (R573). -/
def replicasFor (dev : Nat) (held : List (Nat × Nat)) (cs : List Nat) (s : State) : List ReefReplica :=
  let ms := ((cs.map (fun c => (ctxOf c s).model)).eraseDups).map (fun i => modelOf i s)
  let need := ms.filter (fun m => m.live && !held.contains (m.tag, m.crc) && !s.reef.replicas.contains (dev, m.tag, m.crc))
  (need.map (fun m =>
    let r := regionOf m.region s
    let lo := r.page * 0x200000
    let out : ReefReplica :=
      { tag := m.tag, crc := m.crc, layers := m.layers, stepsSect := m.stepsSect, blockBytes := m.blockBytes, pages := r.pages
        sects := m.sects.map (fun x => { typ := x.typ, flags := x.flags, base := x.base - lo, memLen := x.memLen, file := x.file })
        bytes := (s.mem.bytes.filter (fun c => decide (lo ≤ c.1) && decide (c.1 < lo + r.pages * 0x200000))).map (fun c => (c.1 - lo, c.2)) }
    out)).eraseDups

/-- Replicas sent to a device are kept there. -/
def noteReplicas (dev : Nat) (rs : List ReefReplica) (s : State) : State :=
  modReef (fun r => { r with replicas := (r.replicas ++ rs.map (fun x => (dev, x.tag, x.crc))).eraseDups }) s

/-- Freeze context c for the evacuation in progress: what has changed since its cut goes to the destination, with the ids of a prompt
still to be prefilled, which the destination needs to go on (log entry 64). -/
def freezeCtx (c : Nat) (s : State) : State :=
  match s.reef.evac with
  | none => s
  | some e =>
    match (snapOf e.snap s).ctxs.find? (fun g => g.ctx = c && g.cut && !g.lost && !g.frozen && !g.settled && g.handle = ctxHandle c s) with
    | none => s
    | some g =>
      let x := ctxOf c s
      let parts := ctxParts x s
      let here := (snapOf e.snap s).target = .peer e.dest
      let ks := chunksOf parts
      let ks1 := if here then ks.filter (fun k => !g.chunks.contains k || g.dirty.contains k) else ks
      let image : ReefImage := { ctxImage c s with ids := x.toks, kv := readChunks ks1 parts s }
      let rs := replicasFor e.dest (snapOf e.snap s).held [c] s
      let s1 := modSnap e.snap (fun y => { y with ctxs := y.ctxs.map (fun h => if h.ctx = c then { h with frozen := true } else h) })
        (modCtx c (fun x => { x with frozen := true }) s)
      reefSend e.dest (.catchUp (handleOf e.snap (snapOf e.snap s).gen) image rs)
        (imageSend e.dest g.handle (image.record ++ image.ids.flatMap (leBytes 4) ++ image.kv.map (·.2)) (noteReplicas e.dest rs s1))

/-- A context stands at a step boundary. -/
def atBoundary (c : Nat) (s : State) : Bool :=
  let x := ctxOf c s
  x.live && !x.evacuated && match x.req with | some r => !r.inStep | none => true

/-- What Reef does at a step boundary of context c. -/
def reefBoundary (c : Nat) (s : State) : State :=
  if !atBoundary c s then s
  else
    let s1 := match takingSnap s with
      | some i => reefHeader i (cutCtx i c s)
      | none => s
    freezeCtx c s1

/-! ### Contexts that are dropped (R592) -/

/-- A context is freed: before its copy completes it is dropped from the snapshot; before its freeze, from the evacuation. -/
def reefDropCtx (c : Nat) (s : State) : State :=
  let h := ctxHandle c s
  let inCopy := match takingSnap s with
    | some i => (snapOf i s).ctxs.any (fun g => g.handle = h && !g.lost)
    | none => false
  let s1 := if inCopy then raise 0x163 s else s
  modReef (fun r => { r with snaps := Tab.mapAll r.snaps (fun _ x => if x.live then
    { x with ctxs := x.ctxs.map (fun g => if g.handle = h then { g with lost := g.lost || !x.ready, settled := g.settled || x.ready } else g) } else x) }) s1

end Sys2Proof.Machine
end

