-- ==== Sys2Proof/Machine/Serve.lean ====
section
/-! DEFINITION. Contexts, requests, batches and steps: CTX_*, SUBMIT and the Furl commands, DISPATCH_BIND to STEP_BOUNDARY, and how a
request ends (Tables 7.5, 7.8 - 7.10, R173 - R184, R277, R282 - R286). -/

namespace Sys2Proof.Machine

/-! ### How a request ends -/

/-- The result of Table 7.9. -/
def reqResult (r : Req) (endc : Nat) (s : State) : List Byte :=
  leBytes 4 r.out ++ leBytes 4 r.hit ++ leBytes 4 r.built ++ leBytes 4 r.waited ++ leBytes 4 r.prefill ++ leBytes 1 endc ++ leBytes 3 0 ++
  leBytes 8 (s.time.mono - r.fetched)

/-- What a request leaves of its unfinished blocks (R176, R338): lookups and copies are discarded, waits and builds are abandoned. -/
def endBlocks (c : Nat) (s0 : State) : State :=
  let s := cowDrop (fun y => y.ctx = c) s0
  let h := ctxHandle c s
  let mine := s.furl.asked.filter (fun a => a.ctx = c && a.mode ≠ 3 && !a.dead)
  let s1 := modFurl (fun u => { u with asked := u.asked.map (fun a => if a.ctx = c && a.mode ≠ 3 then { a with dead := true } else a) }) s
  let s2 := mine.foldl (fun s a => unholdIfNone a.key (sendAbandon a.key h s)) s1
  (List.range (ctxOf c s2).blocks.length).foldl (fun s i =>
    let b := (ctxOf c s).blocks.getD i {}
    let priv := modBlk c i (fun b => { b with kind := .priv, done := 0 })
    match b.kind with
    | .asked => priv s
    | .waiting => dropRef b.key (sendAbandon b.key h (priv s))
    | .building => dropRef b.key (sendAbandon b.key h (priv s))
    | _ => s) s2

/-- Drop every Furl reference of a context. -/
def dropBlocks (c : Nat) (s : State) : State :=
  let s1 := (ctxOf c s).blocks.foldl (fun s b => if b.kind = .mapped then dropRef b.key s else s) s
  modCtx c (fun x => { x with blocks := [] }) s1

/-- The sequence of a context ends with the last position that has its KV: what a request that ended early had still to compute is taken
back (Token sequences and CONTINUE, R182). -/
def trimSeq (c : Nat) (s : State) : State :=
  let x := ctxOf c s
  let n := ctxTokens x s
  let k := (n + 31) / 32
  if x.evacuated || x.toks.length ≤ n then s
  else
    modCtx c (fun x => { x with toks := x.toks.take n, blocks := x.blocks.take k, pendTok := none })
      ((x.blocks.drop k).foldl (fun s b => if b.kind = .mapped then dropRef b.key s else s) s)

/-- Give back the private KV area. -/
def dropPriv (c : Nat) (s : State) : State :=
  let x := ctxOf c s
  modCtx c (fun x => { x with privPage := 0, privPages := 0 }) (dropPages x.privPage x.privPages s)

/-- A context is freed (R180), and dropped from a snapshot or an evacuation that it is in (R592). -/
def freeCtx (c : Nat) (s : State) : State :=
  let s1 := dropPriv c (dropBlocks c (reefDropCtx c s))
  furlSettle (modCtx c (fun x => { gen := nextGen x.gen }) s1)

/-- The end of a hosted request goes to its source, which posts the completion (R584). -/
def tellSource (c : Nat) (r : Req) (st : Status) (detail endc : Nat) (s : State) : State :=
  match (ctxOf c s).hosted with
  | some (src, h) => reefSend src (.ended h st.code detail endc r.out r.hit r.built r.waited r.prefill (s.time.mono - r.fetched)) s
  | none => s

/-- The request of a context ends: its completion, then the SUBMIT_CANCELs and the CTX_FREE that wait for it (R28, R178, R179). -/
def endReq (c : Nat) (st : Status) (detail endc : Nat) (s : State) : State :=
  match (ctxOf c s).req with
  | none => s
  | some r =>
    let s1 := (batchesOf c s).foldl (fun s k => dropBatch k s) s
    let s2 := furlSettle (trimSeq c (endBlocks c s1))
    let res := if st = .ok then reqResult r endc s2 else []
    let s3 := if r.killed then s2 else finish r.ref st detail res (tellSource c r st detail endc s2)
    let s4 := r.cancels.foldl (fun s q => finish q .ok 0 [] s) (modCtx c (fun x => { x with req := none }) s3)
    match r.free with
    | some q => finish q .ok 0 [] (freeCtx c s4)
    | none => if r.killed then freeCtx c s4 else s4

/-- FSTAT ERROR or CANCELLED of the frame that a request references (R523). -/
def frameBad (r : Req) (s : State) : Bool :=
  match r.frame with
  | some (f, n) => let t := slotOf f n s; t.st = .ended && 4 ≤ t.fstat
  | none => false

/-- At a step boundary: a cancelled, due or failed request ends (R175, R178, R523). A proxy's request runs elsewhere. -/
def boundaryEnd (c : Nat) (s : State) : State :=
  match (ctxOf c s).req with
  | none => s
  | some r =>
    if r.inStep || (ctxOf c s).evacuated then s
    else if r.cancelled then endReq c .ok 0 3 s
    else if frameBad r s then endReq c .fault 0x0601 0 s
    else if r.due then (if 0 < r.out then endReq c .ok 0 2 s else endReq c .timedout 0 0 s)
    else s

/-- A step boundary of a context: its request may end, and Reef may cut or freeze it (R569, R581). -/
def boundary (c : Nat) (s : State) : State := reefBoundary c (boundaryEnd c s)

/-- Requests that wait at a step boundary while their frame fails. -/
def frameFaults (s : State) : State :=
  s.srv.ctxs.foldl (fun s c => match c.2.req with | some r => if frameBad r s then boundary c.1 s else s | none => s) s

/-- Every request of a batch ends with FAULT (R221, R263, R272, R282). -/
def failBatch (k detail : Nat) (s : State) : State :=
  let cs := (batchOf k s).slots.filterMap (fun t => t.map (·.ctx))
  cs.foldl (fun s c => endReq c .fault detail 0 s) (dropBatch k s)

/-! ### Context commands -/

/-- The checks of a context handle. -/
def ctxChecks (c : Cmd) (h : Nat) (s : State) : List (Bool × Status × Nat) :=
  let x := ctxOf (h % 65536) s
  objChecks c h 4096 x.gen x.live x.fn s

/-- CTX_ALLOC (R277, R350). -/
def doCtxAlloc (c : Cmd) (_r : Nat × Nat) (s : State) : State × Answer :=
  let p := payloadOf c
  let mh := fieldN p 0 4
  let m := modelOf (mh % 65536) s
  let tn := fieldN p 4 2
  let pd := fieldN p 6 2
  let noFurl := bitN (fieldN p 9 1) 0 || m.blockBytes = 0
  let d := Tab.get s.furl.doms pd
  let idx := freeIdx s.srv.ctxs (fun x => x.live) 4096
  checkAll
    [ [ (256 ≤ tn, .inval, 12), (4096 ≤ pd, .inval, 14), (8 ≤ fieldN p 8 1, .inval, 16), (2 ≤ fieldN p 9 1, .inval, 17) ],
      modelChecks c mh s,
      [ (otherTenant c tn s, .noent, 0), (!m.shared && m.tenant ≠ tn, .noent, 0), (!(d.opened && d.mask.getLsbD tn), .noent, 0),
        (m.sects.any (fun x => x.typ = 6 && !x.written), .busy, 0), (idx.isNone, .nospc, 0) ] ]
    (fun _ =>
      let i := idx.getD 0
      let x : Ctx := { gen := firstGen (ctxOf i s).gen, live := true, fn := mbFn c.mb s, tenant := tn, model := mh % 65536, pdom := pd,
                       prio := fieldN p 8 1, noFurl := noFurl }
      okWith (leBytes 4 (handleOf i x.gen)) (modCtx i (fun _ => x) s)) s

/-- CTX_FREE (R179, R180). On a proxy it is forwarded (R585, R586). -/
def doCtxFree (c : Cmd) (r : Nat × Nat) (s : State) : State × Answer :=
  let p := payloadOf c
  let h := fieldN p 0 4
  let i := h % 65536
  let abort := bitN (fieldN p 4 1) 0
  let x := ctxOf i s
  checkAll
    [ [ (2 ≤ fieldN p 4 1, .inval, 12) ], ctxChecks c h s, [ (x.req.isSome && !abort, .busy, 0) ] ]
    (fun _ =>
      let away := x.evacuated && !x.destLost
      match x.req with
      | none => okWith [] (freeCtx i (if away then reefSend x.dest (.free h) s else s))
      | some _ =>
        if away then (reefSend x.dest (.free h) (modReq i (fun q => { q with cancelled := true, free := some r }) s), .later)
        else (boundary i (modReq i (fun q => { q with cancelled := true, free := some r }) s), .later)) s

/-- STATE of CTX_QUERY. -/
def ctxState (x : Ctx) : Nat :=
  if x.evacuated then 5 else if x.snapped then 4
  else match x.req with
    | none => 0
    | some r => if r.decoding then 3 else if x.blocks.any (fun b => b.kind = .asked) then 1 else 2

/-- CTX_QUERY. -/
def doCtxQuery (c : Cmd) (_r : Nat × Nat) (s : State) : State × Answer :=
  let h := fieldN (payloadOf c) 0 4
  let x := ctxOf (h % 65536) s
  let n := fun (k : BlkKind) => (x.blocks.filter (fun b => b.kind = k)).length
  checks (ctxChecks c h s)
    (fun _ => okWith (leBytes 1 (ctxState x) ++ leBytes 1 0 ++ leBytes 2 x.pdom ++ leBytes 4 (handleOf x.model (modelOf x.model s).gen) ++
      leBytes 4 x.toks.length ++ leBytes 4 (n .mapped) ++ leBytes 4 (x.blocks.filter (fun b => b.built)).length ++ leBytes 4 (n .waiting) ++
      leBytes 4 x.tokensOut) s) s

/-! ### SUBMIT -/

/-- Pages of the private KV of a sequence of some positions. -/
def privNeed (m : Model) (n : Nat) : Nat := ((n + 31) / 32 * privSlot m + 0x1FFFFF) / 0x200000

/-- Place the private KV of a context in n pages, keeping what it holds; none without room. -/
def placePriv (c n : Nat) (s : State) : Option State :=
  let x := ctxOf c s
  if n ≤ x.privPages then some s
  else match freeRun n s with
    | none => none
    | some p =>
      let s1 := takePages (.priv c) (some x.tenant) true p n s
      let s2 := if x.privPages = 0 then s1 else
        memWrite (p * 0x200000) (rawRead (x.privPage * 0x200000) (x.privPages * 0x200000) s1) s1
      some (modCtx c (fun x => { x with privPage := p, privPages := n }) (dropPages x.privPage x.privPages s2))

/-- The blocks of a sequence of n positions of which the first `have_` have their KV in the blocks given. -/
def extendBlocks (old : List Blk) (n : Nat) : List Blk := old ++ List.replicate ((n + 31) / 32 - old.length) default

/-- Start an accepted request: its sequence, its private KV and its lookups (R181 - R184, R19, R22, R177, R522). -/
def startReq (c : Nat) (q : Req) (cont : Bool) (ids : List Nat) (s : State) : State :=
  let x0 := ctxOf c s
  let base := if cont then x0.toks.length else 0
  let pos := q.framePos
  let img := List.replicate (framePatches q.frame s) 0
  let new := if q.frame.isSome then ids.take pos ++ img ++ ids.drop pos else ids
  let s1 := modCtx c (fun x =>
    let t := (if cont then x.toks else []) ++ new
    { x with toks := t, blocks := extendBlocks x.blocks t.length, pendTok := none, tokensOut := 0
             copied := cont && x.copied, req := some { q with base := base } }) s
  let x := ctxOf c s1
  if !furlServes x s1 then s1
  else
    let ks := ctxKeys x s1
    let i0 := (base + 31) / 32
    let full := if q.frame.isSome then (base + pos) / 32 else x.toks.length / 32
    let claim := (x.blocks.take i0).all (fun b => b.kind = .mapped)
    lookupFrom c cont ((ks.take full).drop i0) i0 (if i0 = 0 then 0 else ks.getD (i0 - 1) 0) claim s1

/-- SUBMIT (Table 7.9). On a proxy it is forwarded (R585, R586). -/
def doSubmit (c : Cmd) (r : Nat × Nat) (s : State) : State × Answer :=
  let p := payloadOf c
  let h := fieldN p 0 4
  let i := h % 65536
  let fl := fieldN p 4 1
  let cont := bitN fl 2
  let n := fieldN p 8 4
  let fh := fieldN p 12 4
  let f := fh % 65536 / 4
  let k := fh % 4
  let x := ctxOf i s
  let m := modelOf x.model s
  let y := fctxOf f s
  let t := slotOf f k s
  let dl := fieldN p 32 4
  let o := s.host.cmds.find? (isRef r.1 r.2)
  let q : Req :=
    { ref := r, fetched := (o.map (·.at_)).getD s.time.mono, deadline := dl, maxNew := fieldN p 6 2, stop := fieldN p 36 4
      pubDecode := bitN fl 0, furl := (o.map (·.furlUp)).getD true
      outAddr := fieldN p 24 8, frame := if bitN fl 1 then some (f, k) else none, framePos := fieldN p 40 4 }
  let total := (if cont then x.toks.length else 0) + n + framePatches q.frame s
  let s0 := if cont then s else furlSettle (dropPriv i (dropBlocks i s))
  let placed := placePriv i (privNeed m (total + q.maxNew)) s0
  let data := readHost (mbReq c.mb s) c.rd.data s
  let ids := (List.range n).map (fun j => fieldN (data.getD []) (4 * j) 4)
  checkAll
    [ [ (8 ≤ fl, .inval, 12), (!zeroAt p 5 1, .inval, 13), (q.maxNew = 0, .inval, 14), (n = 0 || 262144 < n, .inval, 16),
        (!bitN fl 1 && fh ≠ 0, .inval, 20), (fieldN p 16 8 % 4 ≠ 0, .inval, 24), (q.outAddr % 4 ≠ 0, .inval, 32),
        (bitN fl 1 && n < q.framePos, .inval, 48) ],
      ctxChecks c h s,
      (if bitN fl 1 then objChecks c fh 1024 t.gen (y.live && t.st ≠ .free) y.fn s else []),
      [ (cont && 262144 < x.toks.length + n, .inval, 16), (x.req.isSome, .busy, 0),
        (x.evacuated && x.destLost, .fault, 0x0702), (!x.evacuated && placed.isNone, .nospc, 0), (data.isNone, .fault, 1) ] ]
    (fun _ =>
      if x.evacuated then (reefSend x.dest (.submit h p ids) (modCtx i (fun y => { y with req := some q }) s), .later)
      else
      (furlSettle (startReq i q cont ids (placed.getD s)), .later)) s

/-- SUBMIT_CANCEL (R178). -/
def doSubmitCancel (c : Cmd) (r : Nat × Nat) (s : State) : State × Answer :=
  let h := fieldN (payloadOf c) 0 4
  let i := h % 65536
  checkAll
    [ ctxChecks c h s, [ ((ctxOf i s).req.isNone, .noent, 0) ] ]
    (fun _ =>
      let x := ctxOf i s
      (boundary i (modReq i (fun q => { q with cancelled := true, cancels := q.cancels ++ [r] })
        (if x.evacuated then reefSend x.dest (.cancel h) s else s)), .later)) s

/-! ### Batches and steps -/

/-- Masthead serves. -/
def serving (s : State) : Bool := s.dev.mode = .ready || s.dev.mode = .degraded || s.dev.mode = .quarantine

/-- A context and its new positions can take a slot of a new step. -/
def slotOk (m : Nat) (decode : Bool) (c new : Nat) (s : State) : Bool :=
  let x := ctxOf c s
  match x.req with
  | none => false
  | some r =>
    x.live && x.model = m && !r.inStep && !x.evacuated && !x.frozen && !x.blocks.any (fun b => b.kind = .asked || (b.kind = .mapped && b.nvme)) &&
    (if decode then r.decoding && new = b2n x.pendTok.isSome
     else !r.decoding && (match nextChunk x.toks.length 0 x.blocks with
        | some (p, n) => 1 ≤ new && new ≤ n &&
            (match r.frame with | some (f, k) => decide (p + new ≤ r.base + r.framePos) || (slotOf f k s).st = .ended | none => true)
        | none => false))

/-- The slot a choice of Bind gives: decode starts after every position, prefill at the first without its KV. -/
def slotFor (decode : Bool) (c new : Nat) (s : State) : Slot :=
  let x := ctxOf c s
  { ctx := c, new := new, before := if decode then x.toks.length else ((nextChunk x.toks.length 0 x.blocks).map (·.1)).getD 0 }

/-- The contexts of a new batch are different, and of one tenant unless the model is SHARED (R536). -/
def batchOk (b : Bind) (s : State) : Bool :=
  let m := modelOf b.model s
  let cs := b.slots.filterMap id
  let tenants := (cs.map (fun t => (ctxOf t.1 s).tenant)).eraseDups
  m.live && !cs.isEmpty && (cs.map (·.1)).Nodup && cs.all (fun t => slotOk b.model b.decode t.1 t.2 s) &&
  (m.shared || tenants.length = 1) && (planOf m b.decode).all (fun p => b.slots.length ≤ (kernAt m p.2).maxSlots) &&
  !(planOf m b.decode).isEmpty

/-- Bind the next entry of a live batch, or end it with the DETAIL of the failure (R282). A word of the code that cannot be corrected
fails the Halyard that loads it (R198, log entry 81). -/
def bindNext (k : Nat) (b : Bind) (s : State) : State :=
  let x := batchOf k s
  let m := modelOf x.model s
  let p := (planOf m x.decode).getD x.pos (0, 0)
  let d := newDispatch s
  let (bad, s1) := (bindEnv m p x.slots b s).readCode s
  if bad then failBatch k 0x0207 s1
  else match prepare (bindEnv m p x.slots b s) s1 with
    | .error e => failBatch k e s1
    | .ok y => startDispatch d k (tileDie (b.tiles.getD 0 0)) b.area y (modBatch k (fun x => { x with cur := some d }) s1)

/-- DISPATCH_BIND: an entry of a live batch, or the first of a new one; a choice out of rule binds nothing. -/
def dispatchBind (b : Bind) (s : State) : State :=
  if !serving s then s
  else match b.batch with
    | some k =>
      let x := batchOf k s
      let m := modelOf x.model s
      let plan := planOf m x.decode
      if x.live && x.cur.isNone && x.pos < plan.length && choiceOk m (kernAt m (plan.getD x.pos (0, 0)).2) x.slots b s then bindNext k b s else s
    | none =>
      let m := modelOf b.model s
      if !batchOk b s then s
      else
        let slots := b.slots.map (fun t => t.map (fun t => slotFor b.decode t.1 t.2 s))
        if !choiceOk m (kernAt m ((planOf m b.decode).getD 0 (0, 0)).2) slots b s then s
        else
          let k := (freeIdx s.srv.batches (fun x => x.live) 4096).getD 4096
          let s1 := modSrv (fun v => { v with batches := Tab.put v.batches k { live := true, model := b.model, decode := b.decode, slots := slots }
                                              steps := v.steps + 1 }) s
          bindNext k b ((slots.filterMap id).foldl (fun s t => modReq t.ctx (fun r => { r with inStep := true }) s) s1)

/-- DISPATCH_END: every tile has reached LOADED and every Halyard is IDLE. -/
def dispatchEnd (d : Nat) (s : State) : State :=
  let x := dispOf d s
  if x.live && !x.ending && x.tiles.all (fun t => (tileOf t s).st = .loaded) && x.hals.all (fun h => (halOf h s).st = .idle) then
    let outs := (List.range (batchOf x.batch s).slots.length).map (fun i => leNat (rawRead (x.info + 32 * i + 16) 4 s))
    modBatch x.batch (fun b => { b with pos := b.pos + 1, cur := none, outs := outs }) (freeDispatch d s)
  else s

/-- The DETAIL of what halts a dispatch: a tile's fault, a Halyard's, or a Cleat's overflow (R221, R263). -/
def haltCode (x : Dispatch) (s : State) : Option Nat :=
  match x.tiles.find? (fun t => (tileOf t s).st = .faulted) with
  | some t => some (0x0100 + (tileOf t s).fault)
  | none =>
    match x.hals.find? (fun h => (halOf h s).st = .fault) with
    | some h => some (0x0200 + (halOf h s).code)
    | none =>
      if x.gcl.any (fun c => (cleatOf true c s).ovf) ||
        x.tiles.any (fun t => (List.range 32).any (fun i => (cleatOf false (32 * t + i) s).ovf)) then some 0x0307 else none

/-- DISPATCH_HALT. -/
def dispatchHalt (d : Nat) (s : State) : State :=
  let x := dispOf d s
  if x.live && !x.ending then match haltCode x s with | some e => failBatch x.batch e s | none => s else s

/-- HALYARD_DRAIN_LIMIT (R272). -/
def drainLimit (d : Nat) (s : State) : State :=
  let x := dispOf d s
  if x.live && !x.ending && x.tiles.all (fun t => (tileOf t s).st = .loaded) then
    match x.hals.find? (fun h => (halOf h s).st ≠ .idle) with
    | some h => failBatch x.batch (0x0500 + h) s
    | none => s
  else s

/-- n positions from position p on have their KV. -/
def addDone (c : Nat) : Nat → Nat → State → State
  | 0, _, s => s
  | n + 1, p, s => addDone c n (p + 1) (modBlk c (p / 32) (fun b => if b.kind = .mapped then b else { b with done := max b.done (p % 32 + 1) }) s)

/-- A prefill step of a slot is over (R24). -/
def prefillDone (t : Slot) (s : State) : State :=
  publishAll t.ctx (modReq t.ctx (fun r => { r with prefill := r.prefill + t.new }) (addDone t.ctx t.new t.before s))

/-- A decode step of a slot is over: the pending token has its KV, and the output token is written (R25, R339). -/
def decodeDone (t : Slot) (tok : Nat) (s : State) : State :=
  let c := t.ctx
  let x := ctxOf c s
  let s1 := match t.new, x.pendTok with
    | 1, some p =>
      let y := modCtx c (fun x => { x with toks := x.toks ++ [p], blocks := extendBlocks x.blocks (x.toks.length + 1), pendTok := none }) s
      let z := addDone c 1 x.toks.length y
      match x.req with
      | some r => if r.pubDecode && (x.toks.length + 1) % 32 = 0 then decodePublish c (x.toks.length / 32) z else z
      | none => z
    | _, _ => s
  match x.req with
  | none => s1
  | some r =>
    if x.hosted.isNone && !canIssue x.fn s1 then endReq c .fault 1 0 s1
    else
      let s2 := match x.hosted with
        | some (src, h) => reefSend src (.token h tok) s1
        | none => writeHost x.fn (r.outAddr + 4 * r.out) (leBytes 4 tok) s1
      let s3 := modReq c (fun r => { r with out := r.out + 1 }) (modCtx c (fun x => { x with pendTok := some tok, tokensOut := x.tokensOut + 1 }) s2)
      if r.stop ≠ 0xFFFFFFFF && tok = r.stop then endReq c .ok 0 0 s3
      else if r.maxNew ≤ r.out + 1 then endReq c .ok 0 1 s3
      else s3

/-- STEP_BOUNDARY: every entry of the batch's step has ended. -/
def stepBoundary (k : Nat) (s : State) : State :=
  let x := batchOf k s
  if x.live && x.cur.isNone && (planOf (modelOf x.model s) x.decode).length ≤ x.pos then
    let s1 := dropBatch k s
    let s2 := (List.range x.slots.length).foldl (fun s i =>
      match x.slots.getD i none with
      | none => s
      | some t => boundary t.ctx (if x.decode then decodeDone t (x.outs.getD i 0) s else prefillDone t s)) s1
    furlSettle s2
  else s

/-- DECODE_START (R26). -/
def decodeStart (c : Nat) (s : State) : State :=
  let x := ctxOf c s
  match x.req with
  | some r => if !r.inStep && !r.decoding && kvReady x.toks.length 0 x.blocks then modReq c (fun r => { r with decoding := true }) s else s
  | none => s

/-- A SUBMIT on context c with a deadline that has been fetched and not started. -/
def waitingSubmit (c : Nat) (s : State) : Option Outst :=
  s.host.cmds.find? (fun o => o.prog = .queued && o.cmd.op = 0x0401 && fieldN (payloadOf o.cmd) 0 2 = c && fieldN (payloadOf o.cmd) 32 4 ≠ 0)

/-- SUBMIT_DEADLINE (R174, R175): it runs from fetch, so it may pass before the SUBMIT starts; waiting is a step boundary. -/
def submitDeadline (c : Nat) (s : State) : State :=
  match (ctxOf c s).req with
  | some r => if r.deadline = 0 then s else boundary c (modReq c (fun r => { r with due := true }) s)
  | none =>
    match waitingSubmit c s with
    | some o => finish (o.cmd.mb, o.id) .timedout 0 [] s
    | none => s

/-! ### Furl commands -/

/-- FURL_DOMAIN_CFG: open adds tenants, close removes them; a domain without tenants is closed. -/
def doFurlDomainCfg (c : Cmd) (_r : Nat × Nat) (s : State) : State × Answer :=
  let p := payloadOf c
  let d := fieldN p 0 2
  let op := fieldN p 2 1
  let m : BitVec 256 := BitVec.ofNat 256 (fieldN p 4 32)
  checks [(4096 ≤ d, .inval, 8), (2 ≤ op, .inval, 10), (!zeroAt p 3 1, .inval, 11)]
    (fun _ => okWith [] (modFurl (fun u => { u with doms := Tab.mod u.doms d (fun x =>
      let mask := if op = 0 then x.mask ||| m else x.mask &&& ~~~m
      { x with everOpen := x.everOpen || op = 0, mask := mask, opened := if op = 0 then true else x.opened && !(mask = 0) }) }) s)) s

/-- The blocks a context maps. -/
def mappedKeys (x : Ctx) : List (Nat × Nat) := (x.blocks.filter (fun b => b.kind = .mapped)).map (fun b => (b.key, b.dev))

/-- FURL_PIN (R348). -/
def doFurlPin (c : Cmd) (_r : Nat × Nat) (s : State) : State × Answer :=
  let h := fieldN (payloadOf c) 0 4
  let ks := mappedKeys (ctxOf (h % 65536) s)
  let idx := freeIdx s.furl.pins (fun x => x.live) 65536
  checkAll
    [ ctxChecks c h s, [ (!fnRunning 0x05 s, .busy, 0), (idx.isNone, .nospc, 0) ] ]
    (fun _ =>
      let i := idx.getD 0
      let g := firstGen (Tab.get s.furl.pins i).gen
      let s1 := ks.foldl (fun s k => holdRef k.1 s) s
      okWith (leBytes 4 (handleOf i g) ++ leBytes 4 ks.length)
        (modFurl (fun u => { u with pins := Tab.put u.pins i { gen := g, live := true, fn := mbFn c.mb s, keys := ks } }) s1)) s

/-- Drop a pin. -/
def dropPin (i : Nat) (s : State) : State :=
  let x := Tab.get s.furl.pins i
  furlSettle (x.keys.foldl (fun s k => dropRef k.1 s) (modFurl (fun u => { u with pins := Tab.put u.pins i { gen := nextGen x.gen } }) s))

/-- FURL_UNPIN. -/
def doFurlUnpin (c : Cmd) (_r : Nat × Nat) (s : State) : State × Answer :=
  let h := fieldN (payloadOf c) 0 4
  let x := Tab.get s.furl.pins (h % 65536)
  checks (objChecks c h 65536 x.gen x.live x.fn s) (fun _ => okWith [] (dropPin (h % 65536) s)) s

/-- FURL_EVICT_CFG (R346, R347). -/
def doFurlEvictCfg (c : Cmd) (_r : Nat × Nat) (s : State) : State × Answer :=
  let p := payloadOf c
  let lo := fieldN p 0 1
  let hi := fieldN p 1 1
  let fl := fieldN p 2 1
  checks [ (100 < lo, .inval, 8), (100 < hi || hi ≤ lo, .inval, 9), (2 ≤ fl, .inval, 10), (!zeroAt p 3 1, .inval, 11),
           (bitN fl 0 && fnState 0x05 s ≠ .stopped, .busy, 0) ]
    (fun _ => okWith [] (modFurl (fun u => { u with lowPct := lo, highPct := hi, quotaGib := if bitN fl 0 then fieldN p 4 4 else u.quotaGib }) s)) s

/-- FURL_PURGE: the domain's unreferenced blocks are asked for now, the others as they are released. -/
def doFurlPurge (c : Cmd) (_r : Nat × Nat) (s : State) : State × Answer :=
  let p := payloadOf c
  let d := fieldN p 0 2
  let fl := fieldN p 2 1
  checks [ (4096 ≤ d, .inval, 8), (2 ≤ fl, .inval, 10), (!zeroAt p 3 1, .inval, 11), (!fnRunning 0x05 s, .busy, 0) ]
    (fun _ => okWith [] (furlSettle (evictionStart (modFurl (fun u => { u with purging := u.purging.filter (fun q => q.1 ≠ d) ++ [(d, bitN fl 0)] }) s)))) s

/-- A finished probe answers. -/
def probeResult (p : Probe) : List Byte :=
  let n := fun (k : Nat) => (p.got.filter (· = k)).length
  leBytes 4 p.blocks ++ leBytes 4 ((p.got.takeWhile (· ≠ 0)).length) ++ leBytes 4 (n 1) ++ leBytes 4 (n 2) ++ leBytes 4 (n 3)

/-- Probes with every answer complete. -/
def probesDone (s : State) : State :=
  let s1 := s.furl.probes.foldl (fun s p => if p.left = 0 then finish p.ref .ok 0 (probeResult p) s else s) s
  if s.furl.probes.all (fun p => p.left = 0) then modFurl (fun u => { u with probes := [] }) s1 else s1

/-- The lookups of a probe: probe number, keys, tokens. -/
def probeLookups (k tag pdom : Nat) : List Nat → Nat → Nat → List Nat → State → State
  | [], _, _, _, s => s
  | key :: ks, i, parent, toks, s =>
    let s1 := if homeUp (homeOf key) s then
        furlSend (homeOf key) (.lookup key parent tag pdom (toks.take 32) 0 0 3)
          (modFurl (fun u => { u with asked := u.asked ++ [{ key := key, ctx := k, blk := i, offer := 0, mode := 3 }] }) s)
      else modFurl (fun u => { u with probes := u.probes.modify k (fun p => { p with left := p.left - 1 }) }) s
    probeLookups k tag pdom ks (i + 1) key (toks.drop 32) s1

/-- FURL_PROBE. -/
def doFurlProbe (c : Cmd) (r : Nat × Nat) (s : State) : State × Answer :=
  let p := payloadOf c
  let mh := fieldN p 0 4
  let m := modelOf (mh % 65536) s
  let pd := fieldN p 4 2
  let n := fieldN p 8 4
  let data := readHost (mbReq c.mb s) c.rd.data s
  let d := Tab.get s.furl.doms pd
  let ten := match sessOf c s with | some x => x.tenant | none => none
  checkAll
    [ [ (4096 ≤ pd, .inval, 12), (!zeroAt p 6 2, .inval, 14), (n = 0 || 262144 < n, .inval, 16), (!zeroAt p 12 4, .inval, 20),
        (fieldN p 16 8 % 4 ≠ 0, .inval, 24) ],
      modelChecks c mh s,
      [ (match ten with | some t => !(d.opened && d.mask.getLsbD t) | none => !d.opened, .noent, 0), (!fnRunning 0x05 s, .busy, 0),
        (data.isNone, .fault, 1) ] ]
    (fun _ =>
      let ids := (List.range n).map (fun j => fieldN (data.getD []) (4 * j) 4)
      let k := if m.blockBytes = 0 then 0 else n / 32
      let q : Probe := { ref := r, left := k, blocks := k, got := List.replicate k 0 }
      let s1 := modFurl (fun u => { u with probes := u.probes ++ [q] }) s
      let s2 := furlSettle (probeLookups s.furl.probes.length m.tag pd (keyChain m.tag pd k 0 ids) 0 0 ids s1)
      (probesDone s2, .later)) s

/-- The record of Table 14.6. -/
def furlStats (s : State) : List Byte := (Tab.getList s.furl.stats 0 16).flatMap (leBytes 8)

end Sys2Proof.Machine
end

