-- ==== Sys2Proof/Machine/Reef.lean ====
section
/-! DEFINITION. Reef: configuration, triggers, snapshots and their targets, evacuation, hosted contexts and proxies, restore
(spec/22_reef.md, R565 - R594). -/

namespace Sys2Proof.Machine

/-! ### Configuration -/

/-- REEF_CFG (Table 7.14, R6, R111), only while Reef is STOPPED; START checks the rest (R565). -/
def doReefCfg (c : Cmd) (_r : Nat × Nat) (s : State) : State × Answer :=
  let p := payloadOf c
  checks [ (3 ≤ fieldN p 0 1, .inval, 8), (8 ≤ fieldN p 1 1, .inval, 9), (fnState 0x09 s ≠ .stopped, .busy, 0) ]
    (fun _ => okWith [] (modReef (fun r => { r with
      target := fieldN p 0 1, triggers := fieldN p 1 1, peerDev := fieldN p 2 2, conn := fieldN p 4 4,
      cePerMin := fieldN p 8 4, thermDc := fieldN p 12 2 }) s)) s

/-- R565: REEF_CFG is in rule. -/
def reefValid (s : State) : Bool :=
  let r := s.reef
  let y := connOf (r.conn % 65536) s
  let peer := r.target = 0 || r.target = 2
  !(peer && (r.peerDev = devNum s || 71 < r.peerDev)) &&
  (r.conn = 0 || (r.conn / 65536 = y.gen && y.st = .opened && y.peer = .stay r.peerDev && y.tenant = 0xFFFF && y.chain = 2)) &&
  !((r.target = 1 || r.target = 2) && !reefOn 0 s && !reefOn 1 s) &&
  !(bitN r.triggers 0 && (r.cePerMin = 0 || 1000000 < r.cePerMin)) &&
  !(bitN r.triggers 2 && (r.thermDc = 0 || 1000 < r.thermDc)) &&
  decide (r.triggers < 8)

/-- Nothing of Reef is in progress (R594). -/
def reefDrained (s : State) : Bool :=
  !(s.reef.st = .snapping) && !(s.reef.st = .evacuating) && s.reef.restores.isEmpty

/-! ### The layout -/

/-- A context image as bytes. -/
def imageLayout (g : SnapCtx) : List Byte :=
  padTo (imageBytes g.image)
    (g.image.record ++ g.image.keys.flatMap (leBytes 16) ++ g.image.ids.flatMap (leBytes 4) ++
     Tab.getList (α := Byte) g.raw 0 (65536 * g.chunks.length))

/-- A snapshot with a header, as a stream of bytes. -/
def snapStream (hd : List Byte) (i : Nat) (s : State) : List Byte := padTo 64 hd ++ (snapOf i s).ctxs.flatMap imageLayout

/-- The 64-byte header with a CRC. -/
def snapHeader (i : Nat) (crc : Nat) (s : State) : List Byte :=
  let x := snapOf i s
  [0x56, 0x59, 0x52, 0x53] ++ leBytes 4 (handleOf i x.gen) ++ leBytes 2 (devNum s) ++ leBytes 2 x.ctxs.length ++ leBytes 4 crc ++
  leBytes 8 s.fuses.serial ++ leBytes 8 x.total ++ leBytes 8 (x.cutNs.getD 0) ++ leBytes 24 0

/-- The header, its CRC over the whole snapshot. -/
def snapHeaderOf (i : Nat) (s : State) : List Byte :=
  snapHeader i (crc32 (snapHeader i 0 s ++ (snapOf i s).ctxs.flatMap imageLayout)) s

/-! ### Starting a snapshot (R569, R579) -/

/-- Snapshots of its own that the device holds. -/
def snapsHeld (s : State) : Nat := (s.reef.snaps.filter (fun x => x.2.live)).length

/-- The oldest READY NVMe snapshot, which a new one may replace. -/
def replaceable (s : State) : Option Nat :=
  let ns := s.reef.snaps.filter (fun x => x.2.live && x.2.ready && match x.2.target with | .nvme _ => true | .peer _ => false)
  (ns.foldl (fun (m : Option (Nat × Nat)) x => match m with
    | none => some (x.1, x.2.at_)
    | some (k, t) => if x.2.at_ < t then some (x.1, x.2.at_) else some (k, t)) none).map (·.1)

/-- Room for one more snapshot. -/
def snapRoom (s : State) : Bool := snapsHeld s < 4 || (replaceable s).isSome

/-- The contexts that a snapshot of everything covers. -/
def snapScope (s : State) : List Nat :=
  (s.srv.ctxs.filter (fun c => c.2.live && !c.2.evacuated && c.2.hosted.isNone)).map (·.1)

/-- Start a snapshot of some contexts: a new SNAP, every context cut at its first step boundary. -/
def startSnap (cs : List Nat) (why : Nat) (ref : Option (Nat × Nat)) (held : List (Nat × Nat)) (s : State) : State :=
  let s0 := if snapsHeld s < 4 then s else match replaceable s with | some k => freeSnap k s | none => s
  let i := (freeIdx s0.reef.snaps (fun x => x.live) 8).getD 8
  let peer := s0.reef.target ≠ 1
  let x : Snap :=
    { gen := firstGen (snapOf i s0).gen, live := true, target := .peer s0.reef.peerDev, ref := ref, follow := peer && why < 4, held := held,
      at_ := s0.time.mono, ctxs := cs.map (fun c => { ctx := c, handle := ctxHandle c s0 }) }
  let s1 := modReef (fun r => { r with st := .snapping, lastTrigger := why, snaps := Tab.put r.snaps i x }) s0
  let s2 := if peer then reefSend s1.reef.peerDev (.ask (handleOf i x.gen)) s1 else toNvme i s1
  cs.foldl (fun s c => reefBoundary c s) s2

/-- REEF_SNAPSHOT. -/
def doReefSnapshot (c : Cmd) (r : Nat × Nat) (s : State) : State × Answer :=
  let p := payloadOf c
  let sc := fieldN p 0 1
  let h := fieldN p 4 4
  let x := ctxOf (h % 65536) s
  checkAll
    [ [ (2 ≤ sc, .inval, 8), (!zeroAt p 1 3, .inval, 9) ], (if sc = 1 then ctxChecks c h s else []),
      [ (!fnRunning 0x09 s || s.reef.st = .snapping || s.reef.st = .evacuating || (sc = 1 && x.evacuated), .busy, 0), (!snapRoom s, .nospc, 0) ] ]
    (fun _ => (furlSettle (startSnap (if sc = 1 then [h % 65536] else snapScope s) 4 (some r) c.rd.held s), .later)) s

/-! ### Evacuation (R580 - R584) -/

/-- The result of R590. -/
def evacResult (restored skipped mapped prefill : Nat) : List Byte := leBytes 4 restored ++ leBytes 4 skipped ++ leBytes 4 mapped ++ leBytes 4 prefill

/-- Change the evacuation in progress. -/
def modEvac (f : Evac → Evac) (s : State) : State := modReef (fun r => { r with evac := r.evac.map f }) s

/-- Every context confirmed or refused: the snapshot is freed, also where it is parked, and the command answers. -/
def evacDone (s : State) : State :=
  match s.reef.evac with
  | none => s
  | some e =>
    let x := snapOf e.snap s
    if x.ctxs.all (fun g => g.settled || g.lost) then
      let h := handleOf e.snap x.gen
      let s1 := reefSend e.dest (.finished h) s
      let s2 := match x.target with | .peer d => if d = e.dest then s1 else reefSend d (.finished h) s1 | .nvme _ => s1
      let s3 := furlSettle (reefRest (modReef (fun r => { r with evac := none }) (freeSnap e.snap s2)))
      match e.ref with
      | some r => finish r .ok 0 (evacResult e.restored e.skipped e.mapped e.prefill) s3
      | none => s3
    else s

/-- The context of a snapshot entry is still there, on this device. -/
def stillHere (g : SnapCtx) (s : State) : Bool :=
  let x := ctxOf g.ctx s
  x.live && !x.evacuated && ctxHandle g.ctx s = g.handle

/-- Evacuate a READY snapshot to a device: each context freezes at its next step boundary. -/
def startEvac (i dest : Nat) (ref : Option (Nat × Nat)) (s : State) : State :=
  let s1 := modSnap i (fun x => { x with ctxs := x.ctxs.map (fun g => if stillHere g s then g else { g with settled := true }) }) s
  let s2 := modReef (fun r => { r with st := .evacuating, evac := some { snap := i, dest := dest, ref := ref } }) s1
  evacDone ((snapOf i s2).ctxs.foldl (fun s g => reefBoundary g.ctx s) s2)

/-- A device can be a destination now (R580, R677). -/
def evacTo (dest : Nat) (s : State) : Bool := s.dev.mode ≠ .quarantine && !rmuGone s && activeMember dest s

/-- The checks of a snapshot handle. -/
def snapChecks (c : Cmd) (h : Nat) (s : State) : List (Bool × Status × Nat) :=
  let x := snapOf (h % 65536) s
  objChecks c h 65536 x.gen x.live 0 s

/-- REEF_EVACUATE. -/
def doReefEvacuate (c : Cmd) (r : Nat × Nat) (s : State) : State × Answer :=
  let p := payloadOf c
  let h := fieldN p 0 4
  let d := fieldN p 4 2
  checkAll
    [ [ (d = devNum s || 71 < d, .inval, 12), (!evacTo d s, .again, 0) ], snapChecks c h s,
      [ (!fnRunning 0x09 s || !(snapOf (h % 65536) s).ready || s.reef.st = .snapping || s.reef.st = .evacuating, .busy, 0) ] ]
    (fun _ => (startEvac (h % 65536) d (some r) (modSnap (h % 65536) (fun x => { x with held := c.rd.held }) s), .later)) s

/-- An entry of the snapshot being evacuated is confirmed or refused. -/
def settleEntry (handle : Nat) (s : State) : State :=
  match s.reef.evac with
  | some e => modSnap e.snap (fun x => { x with ctxs := x.ctxs.map (fun g => if g.handle = handle then { g with settled := true } else g) }) s
  | none => s

/-- The context that an evacuation has frozen under a handle. -/
def frozenOf (handle : Nat) (s : State) : Option Nat :=
  match s.reef.evac with
  | some e => ((snapOf e.snap s).ctxs.find? (fun g => g.handle = handle && g.frozen && !g.settled && stillHere g s)).map (·.ctx)
  | none => none

/-- B confirms a context (Evacuation, step 4): the source drops its references and its private KV, and the context is EVACUATED. -/
def confirmCtx (src handle mapped prefill : Nat) (s : State) : State :=
  match frozenOf handle s, s.reef.evac with
  | some c, some e =>
    if e.dest = src then
      let s1 := modCtx c (fun x => { x with frozen := false, evacuated := true, dest := src }) (dropPriv c (dropBlocks c s))
      let s2 := modEvac (fun e => { e with restored := e.restored + 1, mapped := e.mapped + mapped, prefill := e.prefill + prefill }) s1
      evacDone (furlSettle (settleEntry handle s2))
    else s
  | _, _ => s

/-- B refuses a context, which resumes as if never frozen (R582). -/
def refuseCtx (src handle : Nat) (s : State) : State :=
  match frozenOf handle s, s.reef.evac with
  | some c, some e =>
    if e.dest = src then
      evacDone (settleEntry handle (modEvac (fun e => { e with skipped := e.skipped + 1 }) (raise 0x164 (modCtx c (fun x => { x with frozen := false }) s))))
    else s
  | _, _ => s

/-! ### A snapshot that is complete -/

/-- Drop the entries that were lost, with the references on keys that only they list. -/
def dropLost (i : Nat) (s : State) : State :=
  let x := snapOf i s
  let live := x.ctxs.filter (fun g => !g.lost)
  let keys := (live.flatMap (fun g => g.image.keys)).filter (· ≠ 0)
  let gone := x.keys.filter (fun k => !keys.contains k)
  gone.foldl (fun s k => dropRef k s) (modSnap i (fun x => { x with
    ctxs := live, keys := x.keys.filter (fun k => keys.contains k), total := live.foldl (fun n g => n + imageBytes g.image) 64 }) s)

/-- Every context is copied: the images and the replicas that the peer lacks go to it, which parks the snapshot or refuses (R573, R575). -/
def snapSend (i d : Nat) (s : State) : State :=
  let s1 := dropLost i (endCopy i (readQueue s))
  let x := snapOf i s1
  let rs := replicasFor d x.held (x.ctxs.map (·.ctx)) s1
  let s2 := x.ctxs.foldl (fun s g => imageSend d g.handle (imageLayout g) s) (noteReplicas d rs s1)
  reefSend d (.park (handleOf i x.gen) (x.ctxs.map (·.image)) rs) (modSnap i (fun x => { x with sent := true }) s2)

/-- The snapshot is READY: its peer has parked it or its drives hold it, and an evacuation may follow. -/
def snapReady (i : Nat) (s : State) : State :=
  let s1 := dropLost i (endCopy i (readQueue s))
  let x := snapOf i s1
  let h := handleOf i x.gen
  let s2 := match x.target with
    | .peer _ => s1
    | .nvme n =>
      let m : NvSnap := { whole := true, header := snapHeaderOf i s1, images := x.ctxs.map (·.image) }
      (reefDrives s1).foldl (fun s d => modReef (fun r => { r with media := Tab.put r.media (4 * d + n) m }) s) s1
  let s3 := modReef (fun r => { r with st := .ready }) (modSnap i (fun x => { x with ready := true }) s2)
  let s4 := match x.ref with
    | some r => if x.poisoned then finish r .fault 3 [] s3 else finish r .ok 0 (leBytes 4 h ++ leBytes 4 0 ++ leBytes 8 x.total) s3
    | none => s3
  match x.target with
  | .peer d => if x.follow && evacTo d s4 then startEvac i d none s4 else furlSettle s4
  | .nvme _ => furlSettle s4

/-- REEF_COPY_DONE. -/
def copyDone (s : State) : State :=
  match takingSnap s with
  | none => s
  | some i =>
    let x := snapOf i s
    if x.ctxs.all (fun g => g.cut || g.lost) then
      match x.target with
      | .peer d => if x.sent then s else snapSend i d s
      | .nvme _ =>
        if !x.header then reefHeader i s
        else if clientIdle (.reef i) s then (if (reefDrives s).isEmpty then furlSettle (snapFailed i s) else snapReady i s) else s
    else s

/-- REEF_TARGET_FAIL: the peer refuses the park, or its connection fails. -/
def targetFail (s : State) : State :=
  match takingSnap s with
  | none => s
  | some i =>
    match (snapOf i s).target with
    | .nvme _ => s
    | .peer _ => furlSettle (if s.reef.target = 2 then toNvme i (modSnap i (fun x => { x with follow := false }) s) else snapFailed i s)

/-- A command of a snapshot's transfer is over, or a drive has left READY. -/
def reefNvme (s : State) : State :=
  match takingSnap s with
  | none => s
  | some i =>
    match (snapOf i s).target with
    | .nvme _ => if (reefDrives s).isEmpty then furlSettle (snapFailed i s) else reefHeader i s
    | .peer _ => s

/-! ### Triggers (R566 - R568) -/

/-- Corrected events of the last 60 buckets. -/
def ceTotal (s : State) : Nat := (s.reef.ce.take 60).sum

/-- The trend of Table 22.1 over samples taken once a second, newest first. -/
def thermTrend (r : Reef) : Bool :=
  match r.temps with
  | [] => false
  | t :: _ =>
    decide (850 < t) && decide (70 ≤ r.temps.length) &&
    decide (((r.temps.drop 60).take 10).sum + 10 * (r.thermDc : Int) ≤ (r.temps.take 10).sum)

/-- The enabled triggers that fire now, by their LAST_TRIGGER code. -/
def firing (s : State) : List Nat :=
  let r := s.reef
  let degraded := r.links.filter (fun l => decide (s.time.mono ≤ l.2 + 60000000000))
  (if bitN r.triggers 0 && decide (r.cePerMin < ceTotal s) then [1] else []) ++
  (if bitN r.triggers 1 && decide (3 ≤ degraded.length) then [2] else []) ++
  (if bitN r.triggers 2 && thermTrend r then [3] else [])

/-- One trigger that fires. -/
def fire (held : List (Nat × Nat)) (k : Nat) (s : State) : State :=
  let s1 := raise 0x162 s
  if s1.reef.st = .snapping || s1.reef.st = .evacuating then modReef (fun r => { r with merged := r.merged + 1 }) s1
  else if snapRoom s1 then startSnap (snapScope s1) k none held s1
  else s1

/-- REEF_TRIGGER_EVAL: once a second, while Reef is RUNNING (R566). -/
def triggerEval (held : List (Nat × Nat)) (s : State) : State :=
  let s0 := modReef (fun r => { r with temps := (s.rl.temp :: r.temps).take 70 }) s
  let s1 := if fnRunning 0x09 s0 then (firing s0).foldl (fun s k => fire held k s) s0 else s0
  furlSettle (modReef (fun r => { r with ce := (0 :: r.ce).take 60 }) s1)

/-- REEF_PROTECTED_WRITE: the chunk moves to the head of the queue, is read, and the write proceeds (R570). -/
def protectedWrite (a : Nat) (bs : List Byte) (s : State) : State :=
  if inHbm a && s.reef.queue.contains (a / 65536) then
    memWrite a bs (modReef (fun r => { r with queue := a / 65536 :: r.queue.filter (· ≠ a / 65536) }) s)
  else s

/-! ### Putting a context back (Evacuation, step 3, and restore on the same device) -/

/-- The model of an image: its MODEL_TAG and image CRC. -/
def modelFor (tag crc : Nat) (s : State) : Option Nat := (s.srv.models.find? (fun m => m.2.live && m.2.tag = tag && m.2.crc = crc)).map (·.1)

/-- The blocks of an image before its lookups: private ones hold what the image brought. -/
def imageBlocks (g : ReefImage) : List Blk :=
  let toks := fieldN g.record 24 4
  (List.range ((g.ids.length + 31) / 32)).map (fun i =>
    if g.keys.getD i 0 ≠ 0 then {} else { done := min 32 (toks - 32 * i) })

/-- Put an image into context index c with a generation: none where its private KV cannot be placed. -/
def placeCtx (c gen fn : Nat) (hosted : Option (Nat × Nat)) (m : Nat) (g : ReefImage) (s : State) : Option State :=
  let b := g.record
  let fl := fieldN b 21 1
  let pend := fieldN b 36 4
  let x : Ctx :=
    { gen := gen, live := true, fn := fn, tenant := fieldN b 4 2, model := m, pdom := fieldN b 6 2, prio := fieldN b 20 1, noFurl := bitN fl 0,
      toks := g.ids, blocks := imageBlocks g, pendTok := if hosted.isNone || pend = 0xFFFFFFFF then none else some pend,
      tokensOut := fieldN b 64 4, copied := bitN fl 1, hosted := hosted,
      req := if hosted.isSome && bitN fl 2 then
        some { ref := (255, 0), fetched := s.time.mono, deadline := fieldN b 48 4, maxNew := fieldN b 40 4, stop := fieldN b 44 4,
               pubDecode := bitN (fieldN b 52 1) 0, base := if bitN (fieldN b 52 1) 2 then g.ids.length else 0 }
      else none }
  match placePriv c (privNeed (modelOf m s) (g.ids.length + fieldN b 40 4)) (modCtx c (fun _ => x) s) with
  | none => none
  | some s1 =>
    let base := (ctxOf c s1).privPage * 0x200000
    let s2 := g.kv.foldl (fun s k => memWrite (base + k.1) [k.2] s) s1
    let ks := keyChain (modelOf m s).tag x.pdom (g.ids.length / 32) 0 g.ids
    some (if !furlServes (ctxOf c s2) s2 then s2 else
      (List.range g.keys.length).foldl (fun s i =>
        if g.keys.getD i 0 = 0 then s
        else lookupFrom c false [ks.getD i 0] i (if i = 0 then 0 else ks.getD (i - 1) 0) false s) s2)

/-- A context's lookups are all answered. -/
def answered (c : Nat) (s : State) : Bool := !(ctxOf c s).blocks.any (fun b => b.kind = .asked)

/-- Blocks mapped, and listed blocks that became prefill work. -/
def mappedOf (c : Nat) (s : State) : Nat := ((ctxOf c s).blocks.filter (fun b => b.kind = .mapped)).length

def prefillOf (c : Nat) (s : State) : Nat := ((ctxOf c s).blocks.filter (fun b => b.kind ≠ .mapped && b.done = 0)).length

/-! ### The holder and destination -/

/-- The replicas that neither a parked snapshot nor a hosted context uses are dropped (R573). -/
def dropReplicas (s : State) : State :=
  s.srv.models.foldl (fun s m =>
    if m.2.live && m.2.replica && !s.reef.parked.any (fun p => p.replicas.contains m.1) && !modelUsed m.1 s then
      dropRegion m.2.region (dropModel m.1 s)
    else s) s

/-- Place a replica as a model of the device domain that no session sees; none without room. -/
def placeReplica (x : ReefReplica) (s : State) : Option (Nat × State) :=
  match modelFor x.tag x.crc s with
  | some i => some (i, s)
  | none =>
    match freeRun x.pages s, freeIdx s.srv.models (fun m => m.live) 65536, freeIdx s.srv.regions (·.live) 65536 with
    | some p, some i, some j =>
      let lo := p * 0x200000
      let rg : MemRegion := { gen := firstGen (regionOf j s).gen, live := true, fn := unseen, tenant := 0xFFFF, page := p, pages := x.pages }
      let m : Model :=
        { gen := firstGen (modelOf i s).gen, live := true, fn := unseen, tenant := 0xFFFF, tag := x.tag, region := j, layers := x.layers
          stepsSect := x.stepsSect, blockBytes := x.blockBytes, crc := x.crc, replica := true
          sects := x.sects.map (fun y => { typ := y.typ, flags := y.flags, base := lo + y.base, memLen := y.memLen, file := y.file, written := true }) }
      let s1 := modSrv (fun v => { v with regions := Tab.put v.regions j rg }) (takePages (.region j) (some 0xFFFF) true p x.pages s)
      some (i, modModel i (fun _ => m) (x.bytes.foldl (fun s b => memWrite (lo + b.1) [b.2] s) s1))
    | _, _, _ => none

/-- Place every replica that comes; the models' indices. -/
def placeReplicas : List ReefReplica → State → List Nat × State
  | [], s => ([], s)
  | x :: xs, s =>
    match placeReplica x s with
    | some (i, s1) => let (l, s2) := placeReplicas xs s1; (i :: l, s2)
    | none => placeReplicas xs s

/-- The device takes snapshots and contexts of others. -/
def canHost (s : State) : Bool := s.dev.mode = .ready || s.dev.mode = .degraded

/-- A park fits (R575). -/
def parkFits (n : Nat) (s : State) : Bool :=
  s.reef.parked.length < 8 && decide (100 * (usedPages s + n) < s.furl.highPct * hbmPages)

/-- REEF_PARK at the holder: the snapshot is parked in device-domain HBM, or refused (R575). -/
def park (src snap : Nat) (images : List ReefImage) (rs : List ReefReplica) (s : State) : State :=
  let n := (images.foldl (fun n g => n + imageBytes g) 64 + 0x1FFFFF) / 0x200000
  match (if canHost s && activeMember src s && parkFits n s then freeRun n s else none) with
  | none => reefSend src (.parked snap false) s
  | some p =>
    let (ms, s1) := placeReplicas rs (takePages .reef (some 0xFFFF) true p n s)
    reefSend src (.parked snap true)
      (modReef (fun r => { r with parked := r.parked ++ [{ src := src, snap := snap, page := p, pages := n, images := images, replicas := ms }] }) s1)

/-- A message that comes with REEF_PARK. -/
def parkMsg (src : Nat) (m : ReefMsg) (s : State) : State :=
  match m with
  | .ask snap => reefSend src (.parked snap (canHost s && activeMember src s && parkFits 0 s)) s
  | .park snap images rs => park src snap images rs s
  | .parked snap ok =>
    match takingSnap s with
    | some i =>
      let x := snapOf i s
      if x.target = .peer src && handleOf i x.gen = snap then (if !ok then targetFail s else if x.sent then snapReady i s else s) else s
    | none => s
  | _ => s

/-- Parked snapshots that a test picks are freed (R578). -/
def dropParked (f : Parked → Bool) (s : State) : State :=
  let gone := s.reef.parked.filter f
  dropReplicas (gone.foldl (fun s p => dropPages p.page p.pages s) (modReef (fun r => { r with parked := r.parked.filter (fun p => !f p) }) s))

/-- Count for the REEF_RESTORE that waits on a device. -/
def countRestore (src : Nat) (f : Restore → Restore) (s : State) : State :=
  modReef (fun r => { r with restores := r.restores.map (fun x => if x.src = src then f x else x) }) s

/-- The context hosted for a source's handle. -/
def hostedOf (src handle : Nat) (s : State) : Option Nat :=
  (s.srv.ctxs.find? (fun c => c.2.live && c.2.hosted = some (src, handle))).map (·.1)

/-- A hosted context whose lookups are answered is confirmed to its source (R583). -/
def confirmHosted (c : Nat) (s : State) : State :=
  match (ctxOf c s).hosted with
  | some (src, h) =>
    if (ctxOf c s).live && (ctxOf c s).frozen && answered c s then
      reefSend src (.confirm h (mappedOf c s) (prefillOf c s))
        (countRestore src (fun x => { x with restored := x.restored + 1, mapped := x.mapped + mappedOf c s, prefill := x.prefill + prefillOf c s })
          (modCtx c (fun x => { x with frozen := false }) s))
    else s
  | none => s

/-- Every hosted context that can be confirmed. -/
def confirmAll (s : State) : State := s.srv.ctxs.foldl (fun s c => if c.2.hosted.isSome && c.2.frozen then confirmHosted c.1 s else s) s

/-- A context arrives: restored over its parked image, or refused (R581, R582). Until it is confirmed it does not run. -/
def catchUp (src snap : Nat) (g : ReefImage) (rs : List ReefReplica) (s : State) : State :=
  let h := fieldN g.record 0 4
  let old := match s.reef.parked.find? (fun p => p.src = src && p.snap = snap) with
    | some p => (p.images.find? (fun (i : ReefImage) => fieldN i.record 0 4 = h)).map (fun (i : ReefImage) => i.kv)
    | none => none
  let kv := g.kv.foldl (fun (t : Tab Byte) c => Tab.put t c.1 c.2) (old.getD [])
  let no := fun (s : State) => reefSend src (.refuse h) (countRestore src (fun x => { x with skipped := x.skipped + 1 }) s)
  if !canHost s || !activeMember src s || !hasHbmKey (fieldN g.record 4 2) s then no s
  else
    let s1 := (placeReplicas rs s).2
    match modelFor (fieldN g.record 8 8) (fieldN g.record 16 4) s1, freeIdx s1.srv.ctxs (fun x => x.live) 4096 with
    | some m, some c =>
      match placeCtx c (firstGen (ctxOf c s1).gen) unseen (some (src, h)) m { g with kv := kv } s1 with
      | some s2 => confirmAll (furlSettle (modCtx c (fun x => { x with frozen := true }) s2))
      | none => no (dropReplicas s1)
    | _, _ => no (dropReplicas s1)

/-- The evacuation to this device is over: the parked copy is freed and the REEF_RESTORE answers. -/
def evacOver (src snap : Nat) (s : State) : State :=
  let s1 := dropParked (fun p => p.src = src && p.snap = snap) s
  (s1.reef.restores.filter (fun x => x.src = src && x.snap = snap && x.ctxs.isEmpty)).foldl
    (fun s x => finish x.ref .ok 0 (evacResult x.restored x.skipped x.mapped x.prefill)
      (modReef (fun r => { r with restores := r.restores.filter (fun y => y.ref ≠ x.ref) }) s)) s1

/-- A message that comes with REEF_CONFIRM. -/
def confirmMsg (src : Nat) (m : ReefMsg) (s : State) : State :=
  match m with
  | .pull snap =>
    let i := snap % 65536
    let x := snapOf i s
    if x.live && x.ready && x.gen = snap / 65536 && !(s.reef.st = .snapping) && !(s.reef.st = .evacuating) && evacTo src s then startEvac i src none s else reefSend src (.noSnap snap) s
  | .noSnap snap =>
    (s.reef.restores.filter (fun x => x.src = src && x.snap = snap)).foldl
      (fun s x => finish x.ref .noent 0 [] (modReef (fun r => { r with restores := r.restores.filter (fun y => y.ref ≠ x.ref) }) s)) s
  | .catchUp snap g rs => catchUp src snap g rs s
  | .looked c => confirmHosted c s
  | .confirm h mapped prefill => confirmCtx src h mapped prefill s
  | .finished snap => evacOver src snap s
  | _ => s

/-! ### Proxies and hosted contexts (R584 - R587) -/

/-- The proxy of a handle at a destination. -/
def proxyOf (dev handle : Nat) (s : State) : Option Nat :=
  (s.srv.ctxs.find? (fun c => c.2.live && c.2.evacuated && c.2.dest = dev && ctxHandle c.1 s = handle)).map (·.1)

/-- A forwarded SUBMIT runs on the hosted context as on a local one. -/
def hostedSubmit (src h : Nat) (p : List Byte) (ids : List Nat) (s : State) : State :=
  match hostedOf src h s with
  | none => s
  | some c =>
    let x := ctxOf c s
    let fl := fieldN p 4 1
    let cont := bitN fl 2
    let q : Req :=
      { ref := (255, 0), fetched := s.time.mono, deadline := fieldN p 32 4, maxNew := fieldN p 6 2, stop := fieldN p 36 4, pubDecode := bitN fl 0
        furl := fnRunning 0x05 s }
    let s0 := if cont then s else furlSettle (dropPriv c (dropBlocks c s))
    if x.req.isSome then s
    else match placePriv c (privNeed (modelOf x.model s) ((if cont then x.toks.length else 0) + ids.length + q.maxNew)) s0 with
      | some s1 => furlSettle (startReq c q cont ids s1)
      | none => reefSend src (.ended h Status.nospc.code 0 0 0 0 0 0 0 0) s

/-- A forwarded CTX_FREE. -/
def hostedFree (src h : Nat) (s : State) : State :=
  match hostedOf src h s with
  | none => s
  | some c =>
    dropReplicas (match (ctxOf c s).req with
      | none => freeCtx c s
      | some _ => boundary c (modReq c (fun q => { q with cancelled := true, free := some (255, 0) }) s))

/-- A message that comes with REEF_OUTPUT_TOKEN: to the source a token or the end, to the destination a forwarded command. -/
def tokenMsg (src : Nat) (m : ReefMsg) (s : State) : State :=
  match m with
  | .token h tok =>
    match proxyOf src h s with
    | none => s
    | some c =>
      let x := ctxOf c s
      match x.req with
      | none => s
      | some r =>
        if !canIssue x.fn s then reefSend src (.cancel h) (endReq c .fault 1 0 s)
        else modReq c (fun r => { r with out := r.out + 1 }) (modCtx c (fun x => { x with tokensOut := x.tokensOut + 1 })
          (writeHost x.fn (r.outAddr + 4 * r.out) (leBytes 4 tok) s))
  | .ended h st detail endc _ hit built waited prefill _ =>
    match proxyOf src h s with
    | none => s
    | some c =>
      let st' := [Status.ok, .busy, .inval, .noent, .perm, .nospc, .timedout, .fault, .again, .unsup, .stale].getD st .fault
      endReq c st' detail endc (modReq c (fun r => { r with
        hit := r.hit + hit, built := r.built + built, waited := r.waited + waited, prefill := r.prefill + prefill }) s)
  | .submit h p ids => hostedSubmit src h p ids s
  | .cancel h =>
    match hostedOf src h s with
    | some c => boundary c (modReq c (fun q => { q with cancelled := true }) s)
    | none => s
  | .free h => hostedFree src h s
  | _ => s

/-- The connection to a device is lost: the device has left the membership, or the system connection to it is not open. -/
def reefLinkLost (dev : Nat) (s : State) : Bool :=
  !activeMember dev s || match (Tab.get s.rack.peers dev).sysConn with
    | some i => !((connOf i s).st = .opened)
    | none => true

/-- The proxies of a lost destination: their SUBMITs end with FAULT 0x0702 (R586). -/
def proxiesLost (dev : Nat) (s : State) : State :=
  (s.srv.ctxs.filter (fun c => c.2.live && c.2.evacuated && !c.2.destLost && c.2.dest = dev)).foldl
    (fun s c => raise 0x164 (modCtx c.1 (fun x => { x with destLost := true }) (endReq c.1 .fault 0x0702 0 s))) s

/-- Contexts of an evacuation that B has not confirmed resume here when B is lost: B confirms none of them any more. -/
def evacLost (s : State) : State :=
  match s.reef.evac with
  | none => s
  | some e =>
    let gs := (snapOf e.snap s).ctxs.filter (fun g => !g.settled && !g.lost)
    evacDone (gs.foldl (fun s g =>
      settleEntry g.handle (modEvac (fun e => { e with skipped := e.skipped + 1 })
        (raise 0x164 (if stillHere g s then modCtx g.ctx (fun x => { x with frozen := false }) s else s)))) s)

/-- REEF_PEER_LOSS. -/
def peerLoss (dev : Nat) (s : State) : State :=
  if !reefLinkLost dev s then s
  else
    let s1 := proxiesLost dev s
    let s2 := match takingSnap s1 with
      | some i => if (snapOf i s1).target = SnapTo.peer dev then targetFail s1 else s1
      | none => s1
    let s3 := match s2.reef.evac with | some e => if e.dest = dev then evacLost s2 else s2 | none => s2
    if activeMember dev s then s3 else dropParked (fun p => p.src = dev) s3

/-- REEF_HOSTED_EXPIRY: 30 s after the connection to a source was lost, its contexts here are freed (R587). -/
def hostedExpiry (src : Nat) (s : State) : State :=
  if !reefLinkLost src s then s
  else dropReplicas ((s.srv.ctxs.filter (fun c => c.2.live && match c.2.hosted with | some h => h.1 = src | none => false)).foldl
    (fun s c => match c.2.req with
      | some _ => endReq c.1 .fault 0 0 (modReq c.1 (fun q => { q with killed := true }) s)
      | none => freeCtx c.1 s) s)

/-- This device leaves the membership: a peer snapshot falls back or fails, the frozen contexts that B has not confirmed are lost,
and the proxies' SUBMITs end (R586, R593). -/
def reefOwnLoss (s : State) : State :=
  let s1 := match s.reef.evac with
    | none => s
    | some e =>
      let gs := (snapOf e.snap s).ctxs.filter (fun g => g.frozen && !g.settled && !g.lost && stillHere g s)
      evacLost (gs.foldl (fun s g => settleEntry g.handle (match (ctxOf g.ctx s).req with
        | some _ => freeCtx g.ctx (endReq g.ctx .fault 0x0702 0 s)
        | none => freeCtx g.ctx s)) s)
  let s2 := match takingSnap s1 with
    | some i => (match (snapOf i s1).target with | .peer _ => targetFail s1 | .nvme _ => s1)
    | none => s1
  (((s2.srv.ctxs.filter (fun c => c.2.live && c.2.evacuated)).map (fun c => c.2.dest)).eraseDups).foldl (fun s d => proxiesLost d s) s2

/-! ### Restore (R588 - R590) -/

/-- The owner of a context restored on its own device: the lowest VF bound to its tenant, or the PF. -/
def restoreOwner (t : Nat) (s : State) : Nat :=
  match firstIdx (fun k => decide (1 ≤ k) && Tab.get s.host.bound k = some t) 0 16 with
  | some k => k
  | none => 0

/-- Put one image of an own snapshot back; a context that cannot be is skipped. -/
def reinstate (g : ReefImage) (p : List Nat × Nat × State) : List Nat × Nat × State :=
  let s := p.2.2
  let b := g.record
  let h := fieldN b 0 4
  let c := h % 65536
  let skip := (p.1, p.2.1 + 1, s)
  if 4096 ≤ c || (ctxOf c s).live || !hasHbmKey (fieldN b 4 2) s then skip
  else match modelFor (fieldN b 8 8) (fieldN b 16 4) s with
    | none => skip
    | some m =>
      match placeCtx c (h / 65536) (restoreOwner (fieldN b 4 2) s) none m g s with
      | some s1 => (p.1 ++ [c], p.2.1, s1)
      | none => skip

/-- REEF_RESTOREs whose contexts' lookups are answered complete. -/
def restoresDone (s : State) : State :=
  (s.reef.restores.filter (fun x => !x.ctxs.isEmpty && x.ctxs.all (fun c => answered c s))).foldl (fun s x =>
    finish x.ref .ok 0 (evacResult x.restored x.skipped ((x.ctxs.map (fun c => mappedOf c s)).sum) ((x.ctxs.map (fun c => prefillOf c s)).sum))
      (modReef (fun r => { r with restores := r.restores.filter (fun y => y.ref ≠ x.ref) }) s)) s

/-- The copy of slot n that a restore reads: on drive 0 when it verifies, otherwise on drive 1 (R577). -/
def slotCopy (n : Nat) (s : State) : Option (Nat × NvSnap) :=
  let ok := fun (d : Nat) => driveUp d s && (Tab.get s.reef.media (4 * d + n)).whole
  if ok 0 then some (0, Tab.get s.reef.media n) else if ok 1 then some (1, Tab.get s.reef.media (4 + n)) else none

/-- REEF_RESTORE. -/
def doReefRestore (c : Cmd) (r : Nat × Nat) (s : State) : State × Answer :=
  let p := payloadOf c
  let h := fieldN p 0 4
  let d := fieldN p 4 2
  let x := snapOf (h % 65536) s
  let copy := match x.target with | .nvme n => if x.live && x.ready then slotCopy n s else none | .peer _ => none
  let own := decide (d = devNum s)
  checkAll
    [ [ (71 < d, .inval, 12) ], (if own then snapChecks c h s else []),
      [ (if own then copy.isNone else !activeMember d s, .noent, 0), (!fnRunning 0x09 s, .busy, 0) ] ]
    (fun _ =>
      if own then
        match copy with
        | none => (s, .now .noent 0 [])
        | some (k, m) =>
          let n := match x.target with | .nvme n => n | .peer _ => 0
          let s0 := nvSubmit k .read .none (slotFirst k n s) ((x.total + 4095) / 4096) 0 s
          let (cs, skipped, s1) := m.images.foldl (fun p g => reinstate g p) ([], 0, s0)
          let job : Restore := { ref := r, src := d, snap := h, restored := cs.length, skipped := skipped, ctxs := cs }
          if cs.isEmpty then (s1, .now .ok 0 (evacResult 0 skipped 0 0))
          else (furlSettle (modReef (fun y => { y with restores := y.restores ++ [job] }) s1), .later)
      else
        let job : Restore := { ref := r, src := d, snap := h }
        (reefSend d (.pull h) (modReef (fun y => { y with restores := y.restores ++ [job] }) s), .later)) s

/-- REEF_STATUS. -/
def doReefStatus (_c : Cmd) (_r : Nat × Nat) (s : State) : State × Answer :=
  let xs := s.reef.snaps.filter (fun x => x.2.live)
  let st := match s.reef.st with | .idle => 0 | .snapping => 1 | .ready => 2 | .evacuating => 3
  okWith (leBytes 1 st ++ leBytes 1 s.reef.lastTrigger ++ leBytes 2 0 ++ leBytes 4 xs.length ++
    leBytes 8 ((xs.map (fun x => x.2.total)).sum) ++ leBytes 4 ((xs.map (fun x => x.2.keys.length)).sum)) s

/-- Reef after a warm or cold reset: snapshots on NVMe stay held, everything else is lost (Table 22.4, R578, R707). -/
def reefReset (r : Reef) : Reef :=
  let snaps := Tab.mapAll r.snaps (fun _ x => match x.target with
    | .nvme _ => if x.live && x.ready then
        { x with ref := none, keys := [], ctxs := x.ctxs.map (fun g => { g with settled := false, frozen := false, dirty := [] }) } else default
    | .peer _ => default)
  { snaps := snaps, media := r.media }

end Sys2Proof.Machine
end

