-- ==== Sys2Proof/Machine/NvmeEv.lean ====
section
/-! DEFINITION. The NVMe root port's drives: their states, requirements, label and layout, commands that end, and configuration
(spec/18_host_storage.md, R460 - R473). -/

namespace Sys2Proof.Machine

/-- Change the port's state. -/
def modNvme (f : Nvme → Nvme) (s : State) : State := { s with nvme := f s.nvme }

/-- Add n to a saturating counter of 32 bits. -/
def sat32 (a n : Nat) : Nat := min (2 ^ 32 - 1) (a + n)

/-! ### Commands that end -/

/-- A client's transfer is over. -/
def clientEnd (cl : NvClient) (ok : Bool) (s : State) : State :=
  match cl with
  | .spill k => furlSettle (spillEnded k ok s)
  | .restore k => furlSettle (restoreEnded k ok s)
  | .reef _ => reefNvme s
  | .none => s

/-- A command of drive d fails to its client: the client's other commands serve it no longer. A Reef copy goes on with the other
drive when this one has left READY; otherwise the target has failed. -/
def clientFail (d : Nat) (cl : NvClient) (s : State) : State :=
  match cl with
  | .none => s
  | .reef i => if driveUp d s && takingSnap s = some i then furlSettle (snapFailed i s) else reefNvme s
  | _ => clientEnd cl false (dropClient cl s)

/-- Every outstanding command of a drive fails. -/
def failAll (d : Nat) (s : State) : State :=
  let cs := (driveOf d s).cmds
  let cls := (cs.map (·.client)).eraseDups
  let s1 := modDrive d (fun u => { u with cmds := [], errors := sat32 u.errors cs.length }) s
  cls.foldl (fun s cl => clientFail d cl s) s1

/-- A command is over. -/
def cmdDone (d cid : Nat) (s : State) : State := modDrive d (fun u => { u with cmds := u.cmds.filter (fun c => c.cid ≠ cid) }) s

/-- A completion of a drive (R468, R469). A transfer that ends while the port holds no media key fails to its client (R563). -/
def nvComplete (d cid : Nat) (r : NvResult) (s : State) : State :=
  match (driveOf d s).cmds.find? (fun c => c.cid = cid && !c.waiting) with
  | none => s
  | some c =>
    if c.aborted then cmdDone d cid (modDrive d (fun u => { u with lateCpl := sat32 u.lateCpl 1 }) s)
    else match r with
      | .ok data =>
        if (c.kind = .read || c.kind = .write) && c.lba ≠ 0 && !mediaHeld d s then clientFail d c.client (cmdDone d cid s)
        else
        let n := 4096 * c.nlb
        let s1 := cmdDone d cid (modDrive d (fun u => match c.kind with
          | .read => { u with readBytes := min (2 ^ 64 - 1) (u.readBytes + n) }
          | .write => { u with writeBytes := min (2 ^ 64 - 1) (u.writeBytes + n) }
          | _ => u) s)
        let s2 := match c.kind, c.client with
          | .read, .restore _ => memWrite c.loc (mediaRead d c data s1) s1
          | _, _ => s1
        if c.client = .none || !clientIdle c.client s2 then s2 else clientEnd c.client true s2
      | .err dnr =>
        let s1 := modDrive d (fun u => { u with errors := sat32 u.errors 1 }) s
        if !dnr && !c.retried then
          modDrive d (fun u => { u with cmds := u.cmds.map (fun x => if x.cid = cid then { x with waiting := true } else x) }) s1
        else clientFail d c.client (cmdDone d cid s1)

/-- 1 ms after an error that allows a retry (R469). -/
def nvRetry (d cid : Nat) (s : State) : State :=
  modDrive d (fun u =>
    { u with
      readCmds := sat32 u.readCmds (u.cmds.filter (fun c => c.cid = cid && c.waiting && c.kind = .read)).length
      writeCmds := sat32 u.writeCmds (u.cmds.filter (fun c => c.cid = cid && c.waiting && c.kind = .write)).length
      deallocCmds := sat32 u.deallocCmds (u.cmds.filter (fun c => c.cid = cid && c.waiting && c.kind = .dealloc)).length
      cmds := u.cmds.map (fun c => if c.cid = cid && c.waiting then { c with waiting := false, retried := true } else c) }) s

/-! ### States (Table 18.4) -/

/-- Enter RESETTING: every outstanding command fails, CC.EN is cleared. -/
def driveReset (d : Nat) (s : State) : State :=
  raise (0x144 + d) (failAll d (modDrive d (fun u => { u with st := .resetting }) s))

/-- Enter REJECTED or FAILED: the source rises and the drive's blocks are lost (R470). -/
def driveBad (d : Nat) (st : DriveState) (s : State) : State :=
  reefNvme (furlSettle (driveLost d (raise (0x146 + d) (failAll d (modDrive d (fun u => { u with st := st }) s)))))

/-- 250 ms: the command fails to its client and is aborted; an Abort unresolved for as long resets the drive (R468). -/
def nvTimeout (d cid : Nat) (s : State) : State :=
  match (driveOf d s).cmds.find? (fun c => c.cid = cid) with
  | none => s
  | some c =>
    if c.aborted then driveReset d s
    else
      let s1 := modDrive d (fun u => { u with
        timeouts := sat32 u.timeouts 1
        cmds := u.cmds.map (fun x => if x.cid = cid then { x with aborted := true, client := .none } else x) }) s
      clientFail d c.client (raise (0x142 + d) (emit (.nvAdmin d (.abort cid)) s1))

/-- CSTS.CFS, or a link error. -/
def driveFatal (d : Nat) (s : State) : State := if (driveOf d s).st = .ready then driveReset d s else s

/-- The link goes down: ABSENT. -/
def driveDown (d : Nat) (s : State) : State :=
  if (driveOf d s).st = .absent then s
  else reefNvme (furlSettle (driveLost d (failAll d (modDrive d (fun u => { u with st := .absent, width := 0, rate := 0, rxInv := 0, reversed := false }) s))))

/-- The drive's link exists in the wired MODE, and its PERST is released. -/
def driveWired (d : Nat) (s : State) : Bool :=
  (d = 0 || (d = 1 && s.nvme.wiredMode = 1)) && s.pins.nvmePerstN.getLsbD d && !domainLost 8 s && !(s.dev.mode = .safe)

/-- The link that a drive can train (R460): 32 GT/s or a lower rate (2.5 GT/s reads 2), at most the lanes that MODE gives it. -/
def driveTrains (width rate : Nat) (s : State) : Bool :=
  [2, 5, 8, 16, 32].contains rate && 0 < width && decide (width ≤ if s.nvme.wiredMode = 1 then 4 else 8)

/-- The link comes up: INIT. Training has corrected the P/N inversion of the lanes `inv`, and `rev` reversed lanes (R49). -/
def driveUpEv (d width rate : Nat) (inv : BitVec 8) (rev : Bool) (s : State) : State :=
  if driveWired d s && driveTrains width rate s && (driveOf d s).st = .absent then modDrive d (fun u => { u with st := .init, width := width, rate := rate, rxInv := inv, reversed := rev }) s else s

/-- Table 18.6. -/
def driveMeets (i : DriveInfo) : Bool :=
  decide (0x010400 ≤ i.vs) && i.nsActive && i.fmtOk && decide (4194560 ≤ i.nsze) && decide (63 ≤ i.mqes) && decide (1 ≤ i.granted)

/-- The areas of drive d for a namespace of n logical blocks (Layout of a drive). -/
def areasOf (d n : Nat) (s : State) : Nat × Nat × Nat × Nat :=
  let u := n - 256
  let reef := if reefOn d s then (if spillOn d s then u / 1024 * 256 else u) else 0
  let spill := if spillOn d s then u - reef else 0
  (256, spill, 256 + (u - reef), reef)

/-- The label that the configuration asks for, with a GEN. -/
def labelFor (d n gen : Nat) (s : State) : Label :=
  let (a, b, c, e) := areasOf d n s
  { serial := s.fuses.serial, roles := b2n (spillOn d s) + 2 * b2n (reefOn d s), gen := gen, spillFirst := a, spillLbas := b, reefFirst := c, reefLbas := e }

/-- A label as its first 56 bytes (Table 18.7). -/
def labelBytes (l : Label) : List Byte :=
  [0x56, 0x59, 0x46, 0x54, 0x4E, 0x56, 0x4D, 0x45] ++ leBytes 8 l.serial ++ leBytes 1 l.roles ++ leBytes 3 0 ++ leBytes 4 l.gen ++
  leBytes 8 l.spillFirst ++ leBytes 8 l.spillLbas ++ leBytes 8 l.reefFirst ++ leBytes 8 l.reefLbas

/-- The GEN that a label read holds; 0 for what is no label. -/
def genOf (b : List Byte) : Nat :=
  if b.take 8 = [0x56, 0x59, 0x46, 0x54, 0x4E, 0x56, 0x4D, 0x45] && fieldN b 56 4 = crc32 (b.take 56) then fieldN b 20 4 else 0

/-- The label read from a drive is the configuration's own (R466). -/
def labelKept (d n : Nat) (b : List Byte) (s : State) : Bool :=
  genOf b ≠ 0 && b.take 56 = labelBytes (labelFor d n (genOf b) s)

/-- Read the label of a drive and lay it out, a new label from staging SRAM: both areas are kept, or a new label makes both empty (R466, R470); then the media
key of its GEN, and the spill area deallocated once after a reset (R467). -/
def layDrive (d : Nat) (b : List Byte) (s : State) : State :=
  let n := (driveOf d s).nsze
  let keep := labelKept d n b s
  let gen := if keep then genOf b else (genOf b + 1) % 2 ^ 32
  let l := labelFor d n gen s
  let s1 := if keep then s else
    nvSubmit d .write .none 0 1 stagingBase (furlSettle (driveLost d (modReef (fun r => { r with media := Tab.dropIf r.media (fun k _ => k / 4 = d) }) s)))
  let s2 := modDrive d (fun u => { u with label := l }) s1
  let s3 := { s2 with sec := if d = 0 then { s2.sec with media0 := some gen } else { s2.sec with media1 := some gen } }
  let s4 := modDrive d (fun u => { u with cleaned := true }) s3
  if spillOn d s3 && !(driveOf d s3).cleaned then nvSubmit d .dealloc .none l.spillFirst l.spillLbas 0 s4 else s4

/-- The label as bytes of LBA 0. -/
def labelSector (l : Label) : List Byte := let b := labelBytes l; b ++ leBytes 4 (crc32 b)

/-- The admin commands that bring a drive up: it is identified and the queues are asked for; a drive that meets Table 18.6 gets its
queue pairs and the four Asynchronous Event Requests (Table 18.5, R463). -/
def driveIdentify (d : Nat) (s : State) : State :=
  [.identify 0, .identify 1, .identify 2, .setQueues s.nvme.ioq].foldl (fun s a => emit (.nvAdmin d a) s) s

def driveQueues (d : Nat) (s : State) : State :=
  let u := driveOf d s
  let as : List NvAdmin := (List.range u.pairs).flatMap (fun q => [NvAdmin.createCq (q + 1) u.entries, NvAdmin.createSq (q + 1) u.entries])
  (as ++ List.replicate 4 NvAdmin.asyncEvent).foldl (fun s a => emit (.nvAdmin d a) s) s

/-- CSTS.RDY changes: a drive in INIT is checked and becomes READY or REJECTED; one in RESETTING returns to INIT or has FAILED. -/
def driveRdy (d : Nat) (set : Bool) (i : DriveInfo) (s : State) : State :=
  let u := driveOf d s
  if set && u.st = .init then
    if driveMeets i then
      layDrive d i.label (driveQueues d (modDrive d (fun u => { u with
        st := .ready, nsze := i.nsze, maxBytes := if i.mdts = 0 then 262144 else min 262144 i.mdts,
        pairs := min s.nvme.ioq i.granted, entries := min 1024 (i.mqes + 1) }) (driveIdentify d s)))
    else driveBad d .rejected (driveIdentify d s)
  else if !set && u.st = .resetting then
    let ts := u.resetAt.filter (fun t => decide (s.time.mono < t + 600000000000)) ++ [s.time.mono]
    let s1 := modDrive d (fun u => { u with resetAt := ts, resets := sat32 u.resets 1 }) s
    if 3 ≤ ts.length then driveBad d .failed s1 else modDrive d (fun u => { u with st := .init }) s1
  else s

/-- CSTS.RDY is late beyond CAP.TO. -/
def driveLate (d : Nat) (s : State) : State :=
  match (driveOf d s).st with
  | .init => driveBad d .rejected s
  | .resetting => driveBad d .failed s
  | _ => s

/-- Logical block k of snapshot i on drive d, its header once that has been submitted (R576). -/
def snapBlock (d i k : Nat) (s : State) : List Byte :=
  let x := snapOf i s
  let n := match x.target with | .nvme n => n | .peer _ => 0
  padTo 4096 (slice (snapStream (if x.header then snapHeaderOf i s else []) i s) (4096 * (k - slotFirst d n s)) 4096)

/-- What a write command carries to the drive: the label at LBA 0, each other logical block, of a snapshot or of HBM, through the media
key (R465). -/
def mediaWrite (d : Nat) (c : NvCmd) (s : State) : List Byte :=
  (List.range c.nlb).flatMap (fun i =>
    let k := c.lba + i
    if k = 0 then padTo 4096 (labelSector (driveOf d s).label)
    else
      let b := match c.client with | .reef j => snapBlock d j k s | _ => rawRead (c.loc + 4096 * i) 4096 s
      padTo 4096 ((toMedia d k b s).take 4096))

/-- A DMA request of a drive (R464): in the buffer of an outstanding write command it gets the data, in that of a read command or in the
drive's queues and PRP lists it is served, anywhere else it is answered Unsupported Request and counted. -/
def driveDma (d a n : Nat) (s : State) : State :=
  match (driveOf d s).cmds.find? (fun c => (c.kind = .read || c.kind = .write) && decide (c.loc ≤ a) && decide (a + n ≤ c.loc + 4096 * c.nlb)) with
  | some c =>
    let s1 := match c.kind, c.client with | .write, .reef _ => readQueue s | _, _ => s
    if c.kind = .write then emit (.nvData d a (slice (mediaWrite d c s1) (a - c.loc) n)) s1 else s1
  | none =>
    if Config.nvmeQueue d a n then s
    else emit (.nvReject d a) (modDrive d (fun u => { u with dmaReject := sat32 u.dmaReject 1 }) s)

/-- An asynchronous event with the SMART critical warning byte: the log page is read and the request outstanding again (Table 18.5). -/
def driveAsync (d smart : Nat) (s : State) : State :=
  let s1 := modDrive d (fun u => { u with smart := smart % 256 }) (emit (.nvAdmin d .asyncEvent) (emit (.nvAdmin d (.getLog 2)) s))
  if smart % 256 = 0 then s1 else raise (0x148 + d) s1

/-! ### Configuration and START (R461) -/

/-- NVME_CFG (R6, R111): the ranges that the payload alone decides, and only while NVMe is STOPPED; START checks the rest. -/
def doNvmeCfg (c : Cmd) (_r : Nat × Nat) (s : State) : State × Answer :=
  let p := payloadOf c
  checks
    [ (2 ≤ fieldN p 0 1, .inval, 8), (16 ≤ fieldN p 1 1, .inval, 9), (fieldN p 2 2 = 0 || 64 < fieldN p 2 2, .inval, 10),
      (fnState 0x08 s ≠ .stopped, .busy, 0) ]
    (fun _ => okWith [] (modNvme (fun n => { n with
      mode := fieldN p 0 1, flags := fieldN p 1 1, ioq := fieldN p 2 2, nsid0 := fieldN p 4 4, nsid1 := fieldN p 8 4 }) s)) s

/-- R461. -/
def nvmeValid (s : State) : Bool :=
  let n := s.nvme
  decide (1 ≤ n.ioq) && decide (n.ioq ≤ 64) && decide (n.mode ≤ 1) && decide (n.flags < 16) && (n.mode = 1 || (!bitN n.flags 1 && !bitN n.flags 3))

/-- The PERST lines that a MODE uses. -/
def perstFor (mode : Nat) : BitVec 2 := if mode = 1 then 0b11 else 0b01

/-- NVME_PERST_N of the drives in `lines` is held low for 1 ms (Table 18.4, R461): their links go down, and they train again. -/
def perstPulse (lines : BitVec 2) (s : State) : State :=
  let s1 := emit (.nvPerst lines) s
  let s2 := if lines.getLsbD 0 then driveDown 0 s1 else s1
  if lines.getLsbD 1 then driveDown 1 s2 else s2

/-- START: a change of MODE holds PERST low and retrains; a drive REJECTED or FAILED is pulsed; a READY drive's label is read. -/
def nvmeStart (s : State) : State :=
  let pulse := fun (d : Nat) (s : State) => match (driveOf d s).st with
    | .rejected => perstPulse (BitVec.ofNat 2 (d + 1)) s
    | .failed => perstPulse (BitVec.ofNat 2 (d + 1)) s
    | .ready => layDrive d (labelSector (driveOf d s).label) s
    | _ => s
  let s1 := if s.nvme.mode = s.nvme.wiredMode then pulse 1 (pulse 0 s) else perstPulse 0b11 s
  { s1 with nvme := { s1.nvme with wiredMode := s.nvme.mode }, pins := { s1.pins with nvmePerstN := perstFor s.nvme.mode } }

/-- Every submitted command has completed or failed (R472). -/
def nvmeDrained (s : State) : Bool := s.nvme.d0.cmds.isEmpty && s.nvme.d1.cmds.isEmpty

/-- The drive record (Table 18.9). -/
def nvmeStats (d : Nat) (s : State) : List Byte :=
  let u := driveOf d s
  let st := match u.st with | .absent => 0 | .init => 1 | .ready => 2 | .resetting => 3 | .rejected => 4 | .failed => 5
  leBytes 8 u.readBytes ++ leBytes 8 u.writeBytes ++ leBytes 4 u.readCmds ++ leBytes 4 u.writeCmds ++ leBytes 4 u.deallocCmds ++
  leBytes 4 u.errors ++ leBytes 4 u.timeouts ++ leBytes 4 u.lateCpl ++ leBytes 4 u.resets ++ leBytes 4 u.dmaReject ++
  leBytes 4 (s.furl.spilled.filter (fun x => x.2.live && x.2.drive = d)).length ++ leBytes 1 st ++ leBytes 1 u.width ++ leBytes 1 u.rate ++
  leBytes 1 u.smart ++ leBytes 4 u.label.gen ++ leBytes 4 0

/-- CLEAR of the counters. -/
def nvmeClear (d : Nat) (s : State) : State :=
  modDrive d (fun u => { u with readBytes := 0, writeBytes := 0, readCmds := 0, writeCmds := 0, deallocCmds := 0, errors := 0, timeouts := 0,
                                lateCpl := 0, resets := 0, dmaReject := 0 }) s

end Sys2Proof.Machine
end

