-- ==== Sys2Proof/Machine/Post.lean ====
section
/-! DEFINITION. Final completions and the ends of sessions (spec/06_mailbox_transport.md, R141 - R145, R148, R155 - R159). -/

namespace Sys2Proof.Machine

/-! ### MCTP messages out (PRESUMED DSP0236; log entry 14) -/

/-- Cut a message into packets of 64 bytes. -/
def mcpPackets (dest src tag : Nat) : Nat → Nat → List Byte → List McPacket
  | 0, _, _ => []
  | fuel + 1, k, bs =>
    let rest := bs.drop 64
    { dest := dest, src := src, som := k = 0, eom := rest.isEmpty, seq := k % 4, tag := tag, owner := false, body := bs.take 64 } ::
      (if rest.isEmpty then [] else mcpPackets dest src tag fuel (k + 1) rest)

/-- A response message waits for block reads on its segment (R156, R630). -/
def mcpRespond (bus dest tag : Nat) (body : List Byte) (s : State) : State :=
  let ps := mcpPackets dest (s.smb0.eid.getD 0) tag (body.length / 64 + 1) 0 body
  if bus = 1 then { s with smb0 := { s.smb0 with waiting1 := s.smb0.waiting1 ++ ps } }
  else { s with smb0 := { s.smb0 with waiting := s.smb0.waiting ++ ps } }

/-- The head of a vendor-defined message: type 0x7E and the PCI vendor ID. -/
def vendorHead : List Byte := [0x7E, 0x1F, 0x5A]

/-! ### Posting -/

/-- Commands that leave the list of outstanding ones. -/
def dropCmds (p : Outst → Bool) (s : State) : State := { s with host := { s.host with cmds := s.host.cmds.filter (fun o => !p o) } }

/-- Commands cancelled with their completions discarded, counted in CPL_DISCARD (R148). -/
def discardCmds (p : Outst → Bool) (s : State) : State :=
  (s.host.cmds.filter p).foldl (fun s o => modMbx o.cmd.mb (fun m => { m with cplDiscard := satInc 32 m.cplDiscard }) s) (dropCmds p s)

/-- Count posted completions. -/
def countPosted (m n : Nat) (s : State) : State := modMbx m (fun x => { x with completed := x.completed + n }) s

/-- A register buffer with its completion message: BUSY clears and DONE sets. -/
def RegMbx.complete (r : RegMbx) (st : Nat) (msg : List Byte) : RegMbx :=
  { r with busy := false, done := true, status := st, clen := msg.length, cpl := Tab.putList [] 0 msg }

/-- The final completion of a command of mailboxes 16 - 19, on its transport. -/
def postDirect (o : Outst) (c : Cpl) (s : State) : State :=
  let msg := cplMessage c
  let s1 := countPosted o.cmd.mb 1 (dropCmds (isRef o.cmd.mb o.id) s)
  match o.cmd.mb with
  | 16 => mcpRespond o.cmd.bus (o.cmd.sqIdx % 256) (o.cmd.sqIdx / 256) (vendorHead ++ msg) s1
  | 17 => { s1 with host := { s1.host with plb := s1.host.plb.complete c.status msg } }
  | 18 =>
    let s2 := emit (.uart (lineText (.reply msg))) s1
    match s2.uart.nextBaud with
    | some b => { s2 with uart := { s2.uart with baud := b, nextBaud := none } }
    | none => s2
  | _ => { s1 with host := { s1.host with inl := { s1.host.inl.complete c.status (encodeCpl c) with clen := 0 } } }

/-- Post every known completion of the mailboxes without rings. -/
def postDirects (s : State) : State :=
  (s.host.cmds.filter (fun o => 16 ≤ o.cmd.mb)).foldl
    (fun s o => match o.known? with | some c => postDirect o c s | none => s) s

/-- Places for completions in the ring (R142). -/
def Page.cqRoom (p : Page) : Nat :=
  let n := 2 ^ bitsN p.sizes.toNat 8 4
  (p.cqHead + n - 1 - p.cqTail) % n

/-- Write one completion at CQ_TAIL. -/
def postOne (m : Nat) (c : Cpl) (s : State) : State :=
  let p := Tab.get s.host.pages m
  let t := (p.cqTail + 1) % 2 ^ bitsN p.sizes.toNat 8 4
  modPage m (fun p => { p with cqTail := t, phase := if t = 0 then !p.phase else p.phase })
    (writeHost (mbReq m s) (p.cqBase.toNat + 64 * p.cqTail) (encodeCpl { c with phase := p.phase }) s)

/-- R145: a ring read or write has failed. The mailbox goes to STOPPED through STOPPING. -/
def ringFault (m : Nat) (s : State) : State :=
  let s1 := modPage m (fun p => { p with ringFault := true }) s
  if (Tab.get s1.host.pages m).st = .running then setFn (16 + m) .stopping s1 else s1

/-- Completions wait for room in the ring of mailbox m, or wait no longer (R142): CQ_FULL, and its count. -/
def noteFull (m : Nat) (full : Bool) (s : State) : State :=
  let s1 := if full && !(Tab.get s.host.pages m).cqFull then modMbx m (fun x => { x with cqFullEv := satInc 32 x.cqFullEv }) s else s
  modPage m (fun q => { q with cqFull := full }) s1

/-- A batch of at most n completions of mailbox m, posted in fetch order (R142, R144, R459). Those that find no room are held, and nothing
is written for them. `ok` says that the writes of the others succeed; when they fail, they alone are discarded (R145). -/
def postRing (m n : Nat) (ok : Bool) (s : State) : State :=
  let p := Tab.get s.host.pages m
  let fn := mbReq m s
  let ks := (s.host.cmds.filter (fun o => o.cmd.mb = m && o.known?.isSome)).take (min n 8)
  let now := ks.take p.cqRoom
  let full := now.length < ks.length
  if 16 ≤ m || ks.isEmpty || (Tab.get s.pcie.fns fn).d3hot then s
  else if now.isEmpty then noteFull m full s
  else if !ok || !canIssue fn s then noteFull m full (ringFault m (discardCmds (fun o => now.any (fun k => isRef m k.id o)) s))
  else
    let s1 := now.foldl (fun s o => match o.known? with | some c => postOne m c s | none => s) s
    let s2 := noteFull m full (countPosted m now.length (dropCmds (fun o => now.any (fun k => isRef m k.id o)) s1))
    if p.ctl.getLsbD 1 && now.any (fun o => !bitN o.cmd.flags 1) then sendMsix fn (bitsN p.ctl.toNat 8 6) s2 else s2

/-- Every known completion of mailbox m that finds room, batch after batch: at most 256 commands are outstanding (R146). -/
def postRingAll (m : Nat) (s : State) : State := (List.range 33).foldl (fun s _ => postRing m 8 true s) s

/-! ### Ends of sessions (Table 6.5) -/

/-- The requests of a mailbox end at their step boundaries. -/
def cancelReqs (m : Nat) (s : State) : State :=
  s.srv.ctxs.foldl (fun s c =>
    match (ctxOf c.1 s).req with
    | some r => if r.ref.1 = m then boundary c.1 (modReq c.1 (fun r => { r with cancelled := true }) s) else s
    | none => s) s

/-- The session of a mailbox ends. -/
def endSession (m : Nat) (s : State) : State := modMbx m (fun x => { x with session := none }) s

/-- The commands of a mailbox are cancelled, their completions discarded, and its session ends. -/
def cancelSession (m : Nat) (s : State) : State := endSession m (cancelReqs m (discardCmds (fun o => o.cmd.mb = m) s))

/-- FORCE: each outstanding command of a mailbox but (m, seq) that has no result yet ends with STALE. -/
def forceStale (m : Nat) (but : Option Nat) (s : State) : State :=
  cancelReqs m { s with host := { s.host with cmds := s.host.cmds.map (fun o =>
    if o.cmd.mb = m && some o.id ≠ but && o.known?.isNone then { o with prog := .known (mkCpl o .stale 0 []) } else o) } }

/-- Command r of the list is posted after every other one that is known: a forced close completes when the commands it cancels have
(Table 6.5). -/
def postLast (r : Nat × Nat) (s : State) : State :=
  { s with host := { s.host with cmds := s.host.cmds.filter (fun o => !isRef r.1 r.2 o) ++ s.host.cmds.filter (isRef r.1 r.2) } }

/-- An SMB0 target reset (R622), or a new endpoint ID: partial and waiting packets are dropped and the session ends. -/
def smbReset (s : State) : State :=
  cancelSession 16 { s with smb0 := { s.smb0 with partialMsg := [], assembling := none, waiting := [], waiting1 := [] } }

/-! ### Objects that an event destroys -/

/-- Every object of function fn passes to the dying ones; its requests end without completions. -/
def condemn (fn : Nat) (s : State) : State :=
  let s1 : State := { s with
    srv := { s.srv with regions := Tab.mapAll s.srv.regions (fun _ r => if r.live && r.fn = fn then { r with fn := dying } else r)
                        models := Tab.mapAll s.srv.models (fun _ r => if r.live && r.fn = fn then { r with fn := dying } else r)
                        ctxs := Tab.mapAll s.srv.ctxs (fun _ r => if r.live && r.fn = fn then { r with fn := dying } else r) }
    furl := { s.furl with pins := Tab.mapAll s.furl.pins (fun _ r => if r.live && r.fn = fn then { r with fn := dying } else r) }
    shr := { s.shr with conns := Tab.mapAll s.shr.conns (fun _ c => if c.st ≠ .free && !c.sys && c.fn = fn then { c with fn := dying } else c)
                        maps := Tab.mapAll s.shr.maps (fun _ r => if r.live && r.fn = fn then { r with fn := dying } else r) }
    frame := { s.frame with ctxs := Tab.mapAll s.frame.ctxs (fun _ r => if r.live && r.fn = fn then { r with fn := dying } else r) } }
  let s2 := (s1.shr.conns.filter (fun c => c.2.fn = dying && c.2.st ≠ .free && c.2.st ≠ .closing)).foldl (fun s c => connClose c.1 true none s) s1
  (s2.srv.ctxs.filter (fun c => c.2.live && c.2.fn = dying)).foldl (fun s c =>
    match (ctxOf c.1 s).req with
    | some _ => boundary c.1 (modReq c.1 (fun r => { r with cancelled := true, killed := true }) s)
    | none => freeCtx c.1 s) s2

/-- A frame context that dies: its queued frames go, and it goes when none is begun. -/
def dyingFctx (f : Nat) (s : State) : State :=
  let s1 := (List.range 4).foldl (fun s n =>
    let t := slotOf f n s
    if t.st = .queued then
      let s' := modFslot f n (fun t => { t with st := .free, wait := none }) s
      match t.wait with
      | some r => finish r .stale 0 [] s'
      | none => s'
    else s) s
  if anySlot f (fun t => t = .begun) s1 || frameHeld f none s1 then s1 else freeFctx f s1

/-- Dying objects that nothing uses any more go. -/
def dyingSweep (s : State) : State :=
  if !(s.srv.regions.any (fun r => r.2.fn = dying) || s.srv.models.any (fun r => r.2.fn = dying) || s.furl.pins.any (fun r => r.2.fn = dying) ||
       s.shr.maps.any (fun r => r.2.fn = dying) || s.frame.ctxs.any (fun r => r.2.fn = dying)) then s
  else
    let s1 := { s with shr := { s.shr with maps := Tab.mapAll s.shr.maps (fun _ m => if m.live && m.fn = dying then { gen := nextGen m.gen } else m) } }
    let s2 := (s1.furl.pins.filter (fun p => p.2.live && p.2.fn = dying)).foldl (fun s p => dropPin p.1 s) s1
    let s3 := (s2.frame.ctxs.filter (fun p => p.2.live && p.2.fn = dying)).foldl (fun s p => dyingFctx p.1 s) s2
    let s4 := (s3.srv.models.filter (fun p => p.2.live && p.2.fn = dying)).foldl (fun s p => if modelUsed p.1 s then s else dropModel p.1 s) s3
    (s4.srv.regions.filter (fun p => p.2.live && p.2.fn = dying)).foldl (fun s p => if regionUsed p.1 s then s else dropRegion p.1 s) s4

/-- No object is dying: the destruction has finished (R457). -/
def noneDying (s : State) : Bool :=
  !(s.srv.regions.any (fun r => r.2.fn = dying) || s.srv.models.any (fun r => r.2.fn = dying) || s.srv.ctxs.any (fun r => r.2.fn = dying) ||
    s.furl.pins.any (fun r => r.2.fn = dying) || s.shr.maps.any (fun r => r.2.fn = dying) || s.frame.ctxs.any (fun r => r.2.fn = dying))

end Sys2Proof.Machine
end

