-- ==== Sys2Proof/Machine/Pcie.lean ====
section
/-! DEFINITION. Events of the PCIe functions and of the host link (spec/18_host_storage.md, Tables 18.3 and 18.8, R446 - R459; R84, R91).
What the host's enumeration writes in configuration space comes with the events that make it write (log entry 15). -/

namespace Sys2Proof.Machine

/-- HCLK runs. -/
def hclkRuns (s : State) : Bool := !domainLost 7 s

/-- A function's configuration as the host has written it. -/
def PcieFn.configured (p : PcieFn) (c : FnCfg) : PcieFn :=
  { p with busMaster := c.busMaster, msixEn := c.msixEn, msixFnMask := c.fnMask, vecMask := c.vecMask, ats := c.ats
           msgs := c.msgs.foldl (fun t x => Tab.put t x.1 x.2) p.msgs }

/-- The messages of a function's pending vectors that are no longer masked go out, each once (R454). -/
def sendPending (fn : Nat) (s : State) : State :=
  (List.range 64).foldl (fun s v =>
    let p := Tab.get s.pcie.fns fn
    if p.pend.getLsbD v && p.msixEn && !p.msixFnMask && !p.vecMask.getLsbD v then
      msixRaw fn v (modPcieFn fn (fun p => { p with pend := setBit p.pend v false }) s)
    else s) s

/-- Apply the host's configuration of functions that exist. While the endpoint answers with Configuration Retry Status nothing is
written, and the host repeats its requests. -/
def hostConfigure (cs : List FnCfg) (s : State) : State :=
  if crs s then { s with pcie := { s.pcie with retried := cs } }
  else cs.foldl (fun s c => if (liveFns s).contains c.fn then sendPending c.fn (modPcieFn c.fn (fun p => p.configured c) s) else s) s

/-- Configuration Retry Status has ended (Table 4.7, R99): the repeated requests complete. -/
def crsEnd (s : State) : State := hostConfigure s.pcie.retried { s with pcie := { s.pcie with retried := [] } }

/-- A doorbell page at its reset values, its mailbox STOPPED. -/
def resetPage (m : Nat) (s : State) : State := modPage m (fun _ => {}) (setFn (16 + m) .stopped s)

/-- What function fn has of its own in BAR0 and in configuration space, at its reset values; LOCAL_BASE 0. -/
def resetFnRegs (fn : Nat) (s : State) : State :=
  modPcieFn fn (fun _ => { flr := true }) { s with host := { s.host with views := Tab.put s.host.views fn {} } }

/-- FLR of VF m, or the disappearance of VF m: its session, commands and objects (Table 6.5). -/
def endVf (m : Nat) (s : State) : State :=
  dyingSweep (condemn m (resetFnRegs m (resetPage m (cancelSession m s))))

/-- VF Enable is cleared. -/
def vfClear (s : State) : State :=
  if !s.pcie.vfEnable then s
  else
    let s1 := (liveFns s).foldl (fun s m => if m = 0 then s else endVf m s) s
    { s1 with pcie := { s1.pcie with vfEnable := false, numVfs := 0 } }

/-- The PF's session on mailbox m ends as with FORCE (Table 18.3): every outstanding command ends with STALE or its result, and the
completions are posted. The mailbox passes to the VF in this step, so that a completion that finds no room, or a ring whose write fails,
is discarded and counted (DEDUCED; log entry 78). -/
def forceEnd (m : Nat) (s : State) : State :=
  endSession m (discardCmds (fun o => o.cmd.mb = m) (postRingAll m (forceStale m none s)))

/-- VF Enable is set with n VFs: a PF session on one of their mailboxes ends as with FORCE, and the mailbox stands in STOPPED. -/
def vfSet (n : Nat) (cfg : List FnCfg) (s : State) : State :=
  if s.pcie.vfEnable || n = 0 || 15 < n || !s.pcie.linkUp || crs s then s
  else
    let s1 := (List.range n).foldl (fun s k =>
      resetPage (k + 1) (forceEnd (k + 1) s)) s
    hostConfigure cfg { s1 with pcie := { s1.pcie with vfEnable := true, numVfs := n } }

/-- The host's sessions end, their objects are destroyed and the endpoint's fields return to their reset values (Table 4.3,
PCIe reset). The inline mailbox's command is among those cancelled: BUSY clears. -/
def endpointReset (s : State) : State :=
  let s1 := vfClear s
  let s2 := (List.range 16).foldl (fun s m => resetPage m (cancelSession m s)) s1
  let s3 := cancelSession 19 s2
  let s4 := { s3 with host := { s3.host with inl := { s3.host.inl with busy := false } } }
  dyingSweep (condemn 0 (resetFnRegs 0 s4))

/-- A loss of the host link raises its source once (Table 18.8); what the host still repeated is given up. -/
def linkLost (s : State) : State :=
  if s.pcie.linkUp then
    raise 0x13E { s with pcie := { s.pcie with linkUp := false, rate := 0, width := 0, flit := false, rxInv := 0, reversed := false
                                               retried := [] } }
  else s

/-- PCIE_RESET (R91). In COLD the endpoint is in reset already, and PERST_N alone moves. -/
def pcieReset (c : PcieResetCause) (s : State) : State :=
  let s1 := if c = .perst then { s with pins := { s.pins with perstN := false } } else s
  if s.dev.mode = .cold then s1 else endpointReset (linkLost s1)

/-- PERST_N rises (R98): the endpoint may train. -/
def perstRelease (s : State) : State := { s with pins := { s.pins with perstN := true } }

/-- The host link comes up at a rate and width that the partner allows (R447). `inv` marks the receive lanes that arrive with P and N
inverted, `rev` says that the board reversed the lanes: the training corrects both (R49), so the link comes up for every value of them. -/
def pcieLinkUp (rate width : Nat) (flit : Bool) (inv : BitVec 16) (rev : Bool) (cfg : List FnCfg) (s : State) : State :=
  let ok := [25, 50, 80, 160, 320, 640].contains rate
  if s.dev.mode = .cold || !s.pins.perstN || s.pcie.linkUp || !hclkRuns s || width = 0 || 16 < width || !ok then s
  else hostConfigure cfg { s with pcie := { s.pcie with linkUp := true, rate := rate, width := width, flit := flit || rate = 640
                                                        rxInv := inv, reversed := rev } }

/-- Function level reset (R456 - R458). -/
def flrFn (fn : Nat) (cfg : List FnCfg) (s : State) : State :=
  if !(liveFns s).contains fn || !s.pcie.linkUp || crs s then s
  else hostConfigure cfg (if fn = 0 then endpointReset s else endVf fn s)

/-- D3hot entry and return (R459): writes of configuration space. -/
def d3Entry (fn : Nat) (s : State) : State :=
  if (liveFns s).contains fn && s.pcie.linkUp && !crs s then modPcieFn fn (fun p => { p with d3hot := true }) s else s

def d0Back (fn : Nat) (s : State) : State :=
  if (liveFns s).contains fn && s.pcie.linkUp && !crs s then modPcieFn fn (fun p => { p with d3hot := false }) s else s

/-- An ATS invalidation (R452). Each request that used the translation has gone out in the step that made it, so the invalidation
completes at once, and no later request uses the translation. -/
def atsDrop (fn : Nat) (pages : List Nat) (s : State) : State :=
  if !(liveFns s).contains fn || !s.pcie.linkUp then s
  else emit (.atsDone fn) (modPcieFn fn (fun p => { p with atc := p.atc.filter (fun a => !pages.contains a) }) s)

/-- A vector is unmasked by a write of BAR4: a pending message is sent once (R454). -/
def msixUnmaskVec (fn vec : Nat) (s : State) : State :=
  if !(liveFns s).contains fn || !s.pcie.linkUp || crs s || (Tab.get s.pcie.fns fn).d3hot || 64 ≤ vec then s
  else sendPending fn (modPcieFn fn (fun p => { p with vecMask := setBit p.vecMask vec false }) s)

/-! ### Identity (Tables 18.1 and 18.2) -/

/-- What a function's configuration space reports of itself: sizes of BARs are powers of two, features as Table 18.1 marks them. -/
structure PciIdentity where
  vendor : Nat := 0x1F5A
  device : Nat
  revision : Nat := 0xB0
  classCode : Nat := 0x120000
  subVendor : Nat := 0x1F5A
  subDevice : Nat := 0x0001
  /-- Sizes in bits of BAR0, BAR2 and BAR4, all of 64 bits, and which are prefetchable. -/
  barBits : List Nat := [24, 39, 16]
  prefetch : List Bool := [false, true, false]
  deviceSerial : Nat
  maxPayload : Nat := 512
  maxReadRequest : Nat := 4096
  msixVectors : Nat := 64
  interruptPin : Nat := 0
  deriving DecidableEq, Repr, Inhabited

/-- R446: the PF's identity and every VF's. -/
def pciIdentity (fn : Nat) (s : State) : PciIdentity :=
  { device := if fn = 0 then 0x0900 else 0x0901, deviceSerial := s.fuses.serial }

/-- The SR-IOV capability: TotalVFs, InitialVFs, First VF Offset, VF Stride, and the supported page size in bytes. -/
def sriovCap : Nat × Nat × Nat × Nat × Nat := (15, 15, 1, 1, 4096)

/-- A transfer of mailbox m fails: of command seq, or of the ring itself (R451). A request ends with it. -/
def transferFail (m : Nat) (seq : Option Nat) (s : State) : State :=
  match seq with
  | none => if m < 16 && (Tab.get s.host.pages m).st ≠ .stopped then ringFault m s else s
  | some q =>
    match s.host.cmds.find? (fun o => o.cmd.mb = m && o.seq = q) with
    | some o =>
      match s.srv.ctxs.find? (fun c => match c.2.req with | some r => decide (r.ref = (m, o.id)) | none => false) with
      | some c => endReq c.1 .fault 1 0 s
      | none => finish (m, o.id) .fault 1 [] s
    | none => s

/-- The FLR mark of a function clears when nothing dies any more (R457). -/
def flrSweep (s : State) : State :=
  if s.pcie.fns.any (fun p => p.2.flr) && noneDying s then
    { s with pcie := { s.pcie with fns := Tab.mapAll s.pcie.fns (fun _ p => { p with flr := false }) } }
  else s

end Sys2Proof.Machine
end

