-- ==== Sys2Proof/Machine/Security.lean ====
section
/-! DEFINITION. The security block: key import and destruction, firmware images and updates, measurement and the debug lock
(spec/21_security.md, R534 - R564). -/

namespace Sys2Proof.Machine

def modSec (f : Sec → Sec) (s : State) : State := { s with sec := f s.sec }

/-! ### Measurement (Table 21.6) -/

/-- An event record extends MR4 (R549). -/
def secEvent (typ arg : Nat) (s : State) : State :=
  modSec (fun x => { x with mr4 := extend x.mr4 (leBytes 1 typ ++ leBytes 1 arg ++ leBytes 14 0), events := x.events + 1 }) s

/-- SVN_MIN as its 64-bit thermometer. -/
def svnBytes (n : Nat) : List Byte := leBytes 8 (2 ^ min n 64 - 1)

/-- A boot begins (R545, R556): fresh nonce and keys, cleared registers, tenant keys and challenge gone, lock closed; MR0 takes the boot
ROM. A cold reset also clears the failure count and a lockout. -/
def secBoot (cold : Bool) (s : State) : State :=
  let (a, s1) := drawFree s
  let (b, s2) := drawFree s1
  let d := s2.free
  let (_, s3) := drawFree s2
  modSec (fun x => { x with
    hbm := [], shr := [], seqHigh := none, drbg := d, nonce := leBytes 8 a.toNat ++ leBytes 8 b.toNat
    mr0 := extend mrZero Config.bootRomHash, mr1 := mrZero, mr2 := mrZero, mr3 := mrZero, mr4 := mrZero, events := 0
    lock := if x.lock = .lockedOut && !cold then .lockedOut else .closed
    fails := if cold then 0 else x.fails
    chal := none, media0 := none, media1 := none }) s3

/-- FUSE: MR1 takes ROOT_HASH, SVN_MIN, OWNER_PUB and the latched straps. -/
def secFuse (s : State) : State :=
  modSec (fun x => { x with mr1 := extend x.mr1 (sha384 (x.fuse.rootHash ++ svnBytes x.fuse.svnMin ++ x.fuse.ownerPub.getD (List.replicate 32 0) ++
    Config.strapBytes s.pins.straps.toNat)) }) s

/-! ### Firmware images (Table 21.5) -/

/-- What verify finds. -/
inductive Verdict where
  | ok | badSig | badSvn
  deriving DecidableEq, Repr, Inhabited

/-- VERSION and SVN of an image. -/
def fwVersion (img : List Byte) : Nat := fieldN img 8 4

def fwSvn (img : List Byte) : Nat := fieldN img 12 4

/-- The steps of verify but the last. -/
def fwSigOk (img : List Byte) (x : SecFuses) : Bool :=
  let body := img.drop 512
  img.take 4 = [0x56, 0x59, 0x46, 0x57] && fieldN img 4 4 = 512 && zeroAt img 11 1 && zeroAt img 20 4 && zeroAt img 456 56 &&
  512 + fieldN img 16 4 = img.length && sha384 (slice img 72 96) = x.rootHash &&
  Config.ecdsaVerify (slice img 72 96) (sha384 (slice img 168 96)) (slice img 264 96) &&
  Config.ecdsaVerify (slice img 168 96) (sha384 (img.take 360)) (slice img 360 96) && sha384 body = slice img 24 48

/-- verify(image). -/
def fwVerify (img : List Byte) (x : SecFuses) : Verdict :=
  if !fwSigOk img x then .badSig else if fwSvn img < x.svnMin then .badSvn else .ok

/-- A verified image is measured (MR2, MR3) and becomes the running firmware's identity. -/
def secMeasure (img : List Byte) (svn : Nat) (s : State) : State :=
  modSec (fun x => { x with mr2 := extend x.mr2 (sha384 (img.take 512)), mr3 := extend x.mr3 (slice img 24 48), runSvn := svn }) s

/-- A flash slot, and a change of it. -/
def fwSlot (n : Nat) (s : State) : FwSlot := if n = 0 then s.sec.slotA else s.sec.slotB

def modFwSlot (n : Nat) (f : FwSlot → FwSlot) (s : State) : State :=
  modSec (fun x => if n = 0 then { x with slotA := f x.slotA } else { x with slotB := f x.slotB }) s

/-- A slot's image verifies. -/
def slotVerifies (n : Nat) (s : State) : Bool :=
  let x := fwSlot n s
  x.committed && x.sigOk && decide (s.sec.fuse.svnMin ≤ x.svn)

/-- The slot the boot ROM runs from flash: the higher VERSION first, slot A first when equal (R95, R547). -/
def bootSlot (s : State) : Option Nat :=
  let order := if s.sec.slotA.version < s.sec.slotB.version then [1, 0] else [0, 1]
  order.find? (fun n => slotVerifies n s)

/-- R548: SVN_MIN rises to the lowest SVN of the slots that verify, unless PWR_FAIL_N has fallen. A raise that the fuses do not take, or
for which the thermometer has no bits, fails (Tables 21.3 and 21.10). -/
def svnRaise (fails : Bool) (s : State) : State :=
  let svns := ([0, 1].filter (fun n => slotVerifies n s)).map (fun n => (fwSlot n s).svn)
  match svns with
  | [] => s
  | a :: r =>
    let n := r.foldl min a
    if s.pins.pwrFallen || n ≤ s.sec.fuse.svnMin then s
    else if fails || 64 < n then raise 0x161 s
    else modSec (fun x => { x with fuse := { x.fuse with svnMin := n } }) s

/-! ### Keys -/

/-- A connection that is not FREE uses a key slot. -/
def keySlotUsed (slot : Nat) (s : State) : Bool := s.shr.conns.any (fun c => !(c.2.st = .free) && !c.2.sys && c.2.keySlot = slot)

/-- The domain has pages: in regions or private KV. -/
def domainInUse (t : Nat) (s : State) : Bool :=
  s.srv.regions.any (fun c => c.2.live && c.2.tenant = t) || s.srv.ctxs.any (fun c => c.2.live && c.2.tenant = t && 0 < c.2.privPages)

/-- SEC_KEY_SET (R541 - R543). -/
def doSecKeySet (c : Cmd) (_r : Nat × Nat) (s : State) : State × Answer :=
  let p := payloadOf c
  let tn := fieldN p 0 2
  let kind := fieldN p 2 1
  let slot := fieldN p 4 4
  let w := slice p 16 96
  let seq := fieldN w 0 4
  let aad := leBytes 8 s.fuses.serial ++ s.sec.nonce ++ leBytes 2 tn ++ leBytes 1 kind ++ leBytes 1 0 ++ leBytes 4 slot ++ leBytes 4 seq
  let plain := s.sec.fuse.kik.bind (fun k => Config.gcmOpen k (slice w 4 12) aad (slice w 16 64) (slice w 80 16))
  let k := plain.getD []
  let badSlot : Bool := if kind = 0 then slot ≠ 0 else 16383 < slot
  let refused := plain.isNone || (match s.sec.seqHigh with | some q => decide (seq ≤ q) | none => false) ||
    (if kind = 0 then slice k 0 32 = slice k 32 32 else !zeroAt k 32 32)
  if s.sec.fuse.kik.isNone then (s, .now .perm 0 [])
  else checks
    [ (256 ≤ tn, .inval, 8), (2 ≤ kind, .inval, 10), (!zeroAt p 3 1, .inval, 11), (!zeroAt p 8 8, .inval, 16),
      (!badSlot && s.sec.lock = .opened, .again, 0) ]
    (fun _ =>
      if badSlot || refused then (raise 0x15D s, .now .inval 24 [])
      else if kind = 0 then
        if (Tab.get s.sec.hbm tn).isSome && domainInUse tn s then (s, .now .busy 0 [])
        else okWith [] (modSec (fun x => { x with hbm := Tab.put x.hbm tn (some (slice k 0 64)), seqHigh := some seq }) s)
      else if keySlotUsed slot s then (s, .now .busy 0 [])
      else okWith [] (modSec (fun x => { x with shr := Tab.put x.shr slot (some { tenant := tn, key := slice k 0 32 }), seqHigh := some seq }) s)) s

/-- SEC_KEY_DESTROY (R544). -/
def doSecKeyDestroy (c : Cmd) (_r : Nat × Nat) (s : State) : State × Answer :=
  let p := payloadOf c
  let tn := fieldN p 0 2
  let kind := fieldN p 2 1
  let slot := fieldN p 4 4
  let there := if kind = 0 then (Tab.get s.sec.hbm tn).isSome else (match Tab.get s.sec.shr slot with | some k => k.tenant = tn | none => false)
  checks
    [ (256 ≤ tn, .inval, 8), (2 ≤ kind, .inval, 10), (!zeroAt p 3 1, .inval, 11), ((if kind = 0 then slot ≠ 0 else 16383 < slot), .inval, 12),
      (!there, .noent, 0), ((if kind = 0 then domainInUse tn s else keySlotUsed slot s), .busy, 0) ]
    (fun _ => okWith [] (modSec (fun x => if kind = 0 then { x with hbm := Tab.put x.hbm tn none } else { x with shr := Tab.put x.shr slot none }) s)) s

/-! ### Firmware update (R551 - R555) -/

/-- What a chunk marked FINAL finds: the slot is verified and committed. -/
def fwFinal (n : Nat) (s : State) : State × Answer :=
  let img := (fwSlot n s).written
  match fwVerify img s.sec.fuse with
  | .badSig => (s, .now .fault 2 [])
  | .badSvn => (s, .now .fault 3 [])
  | .ok => okWith [] (secEvent 3 n (modFwSlot n (fun x => { x with
      committed := true, version := fwVersion img, svn := fwSvn img, sigOk := true }) s))

/-- FW_UPDATE. -/
def doFwUpdate (c : Cmd) (_r : Nat × Nat) (s : State) : State × Answer :=
  let p := payloadOf c
  let inMsg := 16 ≤ c.mb && c.mb ≤ 18
  let addr := fieldN p 0 8
  let len := fieldN p 8 4
  let off := fieldN p 12 4
  let fl := fieldN p 16 1
  let final := bitN fl 0
  let n := 1 - s.dev.slot
  let x := fwSlot n s
  let data := if inMsg then some (slice p 20 len) else readHost (mbReq c.mb s) c.rd.data s
  let img := (if off = 0 then [] else x.written) ++ slice (data.getD []) 0 len
  checks
    [ (inMsg && addr ≠ 0, .inval, 8),
      (len = 0 || (if inMsg then 996 < len || c.plen ≠ 20 + len else 1048576 < len) || 33554432 < off + len, .inval, 16),
      (2 ≤ fl, .inval, 24), (!zeroAt p 17 3, .inval, 25), (final && (off + len) % 4096 ≠ 0, .inval, 16), (s.pins.pwrFallen, .again, 0),
      (off ≠ 0 && off ≠ x.written.length, .inval, 20),
      (final && data.isSome && off + len ≠ 512 + fieldN img 16 4, .inval, 16),
      (data.isNone, .fault, 1) ]
    (fun _ =>
      let s1 := modFwSlot n (fun _ => { written := img }) s
      if final then fwFinal n s1 else okWith [] s1) s

/-! ### MEASURE (Table 21.7) -/

/-- The code of the lock state. -/
def LockSt.code : LockSt → Nat
  | .closed => 0 | .opened => 1 | .lockedOut => 2

/-- The report's first 408 bytes. -/
def reportBody (nonce : List Byte) (s : State) : List Byte :=
  let x := s.sec
  [0x56, 0x59, 0x4D, 0x52] ++ leBytes 2 504 ++ leBytes 2 0 ++ leBytes 8 s.fuses.serial ++ padTo 16 (nonce.take 16) ++ padTo 16 (x.nonce.take 16) ++
  leBytes 4 (s.dev.fwPatch + 256 * s.dev.fwMinor + 65536 * s.dev.fwMajor) ++ leBytes 1 s.dev.slot ++ leBytes 1 x.lock.code ++ leBytes 1 s.dev.mode.code ++
  leBytes 1 0 ++ leBytes 4 x.runSvn ++ leBytes 4 x.fuse.svnMin ++ leBytes 4 x.events ++ leBytes 4 0 ++
  padTo 48 (x.mr0.take 48) ++ padTo 48 (x.mr1.take 48) ++ padTo 48 (x.mr2.take 48) ++ padTo 48 (x.mr3.take 48) ++ padTo 48 (x.mr4.take 48) ++
  padTo 96 ((Config.attestPub x.fuse.secret).take 96)

/-- MEASURE. -/
def doMeasure (c : Cmd) (_r : Nat × Nat) (s : State) : State × Answer :=
  let b := reportBody (slice (payloadOf c) 8 16) s
  okWith (b ++ padTo 96 ((Config.attestSign s.sec.fuse.secret (sha384 b)).take 96)) s

/-! ### The debug lock (Table 21.8) -/

/-- The characters of the unlock password. -/
def pwChar (b : Byte) : Bool :=
  let n := b.toNat
  (0x41 ≤ n && n ≤ 0x5A && n ≠ 0x49 && n ≠ 0x4F) || (0x32 ≤ n && n ≤ 0x39)

/-- DEBUG_CHALLENGE: a fresh nonce; it voids the one before (R560). -/
def doDebugChallenge (_c : Cmd) (_r : Nat × Nat) (s : State) : State × Answer :=
  let (a, s1) := drawFree s
  let (b, s2) := drawFree s1
  let n := leBytes 8 a.toNat ++ leBytes 8 b.toNat
  okWith n (modSec (fun x => { x with chal := some n }) s2)

/-- Some tenant key is installed. -/
def anyTenantKey (s : State) : Bool := !s.sec.hbm.isEmpty || !s.sec.shr.isEmpty

/-- The message of a challenge response. -/
def challengeMessage (nonce : List Byte) (s : State) : List Byte :=
  [0x56, 0x59, 0x46, 0x54, 0x2D, 0x44, 0x42, 0x47] ++ leBytes 8 s.fuses.serial ++ nonce

/-- A counted failure (R191, R562, R564). -/
def unlockFail (s : State) : State :=
  let s1 := raise 0x15E (modSec (fun x => { x with fails := x.fails + 1 }) s)
  if 5 ≤ s1.sec.fails && s1.sec.lock = .closed then raise 0x15F (modSec (fun x => { x with lock := .lockedOut }) s1) else s1

/-- The pool and the directory of Furl are discarded. -/
def discardFurl (s : State) : State :=
  let s1 := (s.furl.pool.map (·.1)).foldl (fun s p => freeSlot p s) (discardDirectory s)
  modFurl (fun u => { u with pool := [], spilled := [] }) s1

/-- Entry to OPEN. -/
def lockOpen (method : Nat) (s : State) : State :=
  let s1 := discardFurl ((List.range 128).foldl (fun s t => cleanTile t s) s)
  let s2 := { s1 with comp := { s1.comp with gcl := Tab.mapAll s1.comp.gcl (fun _ c => { c with count := 0 }) } }
  raise 0x160 (secEvent 1 method (modSec (fun x => { x with lock := .opened, fails := 0 }) s2))

/-- The session of mailbox 18 takes the class that the lock gives it (Table 6.1). -/
def consoleClass (s : State) : State :=
  modMbx 18 (fun m => { m with session := m.session.map (fun x => { x with cls := if s.sec.lock = .opened then .admin else .console }) }) s

/-- DEBUG_UNLOCK (R191, R558 - R562). While the lock is OPEN an attempt is verified and counted too, and leaves the lock as it is. -/
def doDebugUnlock (c : Cmd) (_r : Nat × Nat) (s : State) : State × Answer :=
  let p := payloadOf c
  let method := fieldN p 0 1
  let pw := slice p 4 16
  let verified : Bool := if method = 0 then sha384 (leBytes 8 s.fuses.serial ++ pw) = s.sec.fuse.pwHash
    else match s.sec.chal, s.sec.fuse.ownerPub with
      | some n, some k => Config.ed25519Verify k (challengeMessage n s) (slice p 4 64)
      | _, _ => false
  let used := modSec (fun x => { x with chal := none }) s
  checks
    [ (2 ≤ method, .inval, 8), (!zeroAt p 1 3, .inval, 9), (method = 0 && !pw.all pwChar, .inval, 12),
      (s.sec.lock = .lockedOut || 5 ≤ s.sec.fails, .again, 0), (anyTenantKey s || fnState 0x05 s ≠ .stopped, .busy, 0),
      (method = 1 && s.sec.fuse.ownerPub.isNone, .perm, 0) ]
    (fun _ =>
      if verified && s.sec.lock = .opened then okWith [] (modSec (fun x => { x with fails := 0 }) used)
      else if verified then okWith [] (consoleClass (lockOpen method used))
      else (unlockFail used, .now .perm 0 [])) s

/-- DEBUG_LOCK. -/
def doDebugLock (_c : Cmd) (_r : Nat × Nat) (s : State) : State × Answer :=
  if s.sec.lock = .opened then
    let s1 := secEvent 2 0 (modSec (fun x => { x with lock := .closed }) s)
    okWith [] (consoleClass { s1 with jtag := if s1.jtag.reg = .privateDebug then { s1.jtag with reg := .bypass } else s1.jtag })
  else okWith [] s

/-- DEBUG_NONCE_EXPIRY: 60 s (R560). -/
def nonceExpiry (s : State) : State := modSec (fun x => { x with chal := none }) s

/-- DBG_STATUS. -/
def dbgStatus (s : State) : Nat := s.sec.lock.code + 4 * min 7 s.sec.fails + 65536 * (s.sec.events % 65536)

end Sys2Proof.Machine
end

