-- ==== Sys2Proof/Machine/Rack.lean ====
section
/-! DEFINITION. Membership of the rack: epochs, the configuration digest, the verdict, peer messages, active members and system
connections (spec/25_rack.md, R659 - R680). -/

namespace Sys2Proof.Machine

/-- Change the rack's state. -/
def modRack (f : Rack → Rack) (s : State) : State := { s with rack := f s.rack }

def peerOf (e : Nat) (s : State) : RackPeer := Tab.get s.rack.peers e

def modPeer (e : Nat) (f : RackPeer → RackPeer) (s : State) : State := modRack (fun r => { r with peers := Tab.mod r.peers e f }) s

/-! ### The configuration digest (Table 25.4, R666) -/

/-- The canonical configuration string. -/
def canonicalString (s : State) : List Byte :=
  [0x52, 0x43, 0x44, 0x31] ++
  s.furl.doms.flatMap (fun d => if d.2.opened && d.2.mask ≠ 0 then leBytes 2 d.1 ++ leBytes 32 d.2.mask.toNat else []) ++
  leBytes 4 s.shr.target ++ leBytes 4 s.shr.ai ++ leBytes 2 s.shr.md ++ leBytes 2 0 ++ leBytes 4 s.shr.minRate

/-- LOCAL_DIGEST of the configuration. -/
def localDigest (s : State) : Nat := leNat ((sha256 (canonicalString s)).take 8)

/-- The running firmware's version, encoded as FW_MIN. -/
def fwCode (s : State) : Nat := s.dev.fwPatch + 256 * s.dev.fwMinor + 65536 * s.dev.fwMajor

/-! ### Peer messages that the device sends (R671, R672) -/

/-- The device may speak: from READY until SAFE or the start of a warm reset. -/
def speaks (s : State) : Bool := s.dev.mode = .ready || s.dev.mode = .degraded || s.dev.mode = .quarantine

/-- Bytes 5 - 23 of ANNOUNCE: STATE, MSTATE, REASONS, EPOCH and LOCAL_DIGEST. -/
def sayNow (s : State) : List Byte :=
  let m := match s.rack.mstate with | .unset => 0 | .member => 1 | .grace => 2 | .quarantine => 3
  leBytes 1 s.dev.mode.code ++ leBytes 1 m ++ leBytes 1 s.rack.reasons.toNat ++ leBytes 8 s.rack.view.epoch ++ leBytes 8 s.rack.digest

/-- ANNOUNCE (Table 25.7). -/
def announceMsg (s : State) : List Byte :=
  let b := [0x01, 0x01] ++ leBytes 2 340 ++ leBytes 1 (devNum s) ++ sayNow s ++ leBytes 4 (fwCode s) ++ leBytes 8 s.fuses.serial ++
    padTo 16 (s.sec.nonce.take 16) ++ padTo 96 ((Config.ecdhPub s.sec.drbg).take 96) ++ padTo 96 ((Config.attestPub s.sec.fuse.secret).take 96)
  b ++ padTo 96 ((Config.attestSign s.sec.fuse.secret (sha384 b)).take 96)

/-- Send ANNOUNCE to every peer. -/
def announce (s : State) : State :=
  if speaks s then modRack (fun r => { r with said := sayNow s }) (staySend 0x7F 3 3 0 (announceMsg s) true s) else s

/-- Send LEAVE with a reason: 1 QUARANTINE, 2 warm reset. -/
def sendLeave (why : Nat) (s : State) : State :=
  staySend 0x7F 3 3 0 ([0x02, 0x01] ++ leBytes 2 8 ++ leBytes 1 (devNum s) ++ leBytes 1 why ++ [0, 0]) true s

/-! ### The verdict (Table 25.5, R667 - R669, R680) -/

/-- Nanoseconds of 10 s. -/
def tenSeconds : Nat := 10000000000

/-- Running commands whose effect QUARANTINE forbids complete with AGAIN (Table 6.7): SHR_CONN_OPEN, REEF_EVACUATE, and a REEF_RESTORE
from another device, which is an evacuation to this one. -/
def quarantineAgain (s : State) : State :=
  let s1 := s.shr.conns.foldl (fun s c => match c.2.openRef with
    | some r => if c.2.st = .opening then connFree c.1 (finish r .again 0 [] s) else s
    | none => s) s
  let s2 := match s1.reef.evac.bind (·.ref) with
    | some r => finish r .again 0 [] (modEvac (fun e => { e with ref := none }) s1)
    | none => s1
  let away := s2.reef.restores.filter (fun x => x.src ≠ devNum s2)
  away.foldl (fun s x => finish x.ref .again 0 [] s)
    (modReef (fun r => { r with restores := r.restores.filter (fun x => x.src = devNum s2) }) s2)

/-- MSTATE becomes QUARANTINE. -/
def enterQuarantine (why : BitVec 4) (s : State) : State :=
  let s1 := modRack (fun r => { r with mstate := .quarantine, reasons := why }) (sendLeave 1 s)
  let s2 := if s1.dev.mode = .ready || s1.dev.mode = .degraded then setMode .quarantine s1 else s1
  reefOwnLoss (furlQuarantine (quarantineAgain s2))

/-- MSTATE becomes MEMBER. -/
def enterMember (s : State) : State :=
  let s1 := modRack (fun r => { r with mstate := .member, reasons := 0 }) s
  if s1.dev.mode = .quarantine then setMode (goodMode s1) s1 else s1

/-- MSTATE becomes GRACE, and its timer starts. -/
def enterGrace (s : State) : State := modRack (fun r => { r with mstate := .grace, graceAt := s.time.mono }) s

/-- LOCAL_DIGEST agrees with the held DIGEST. -/
def digestsEqual (s : State) : Bool := s.rack.digest = s.rack.view.digest

/-- The held view lists this device. -/
def listedHere (s : State) : Bool := devNum s < 72 && s.rack.view.members.getLsbD (devNum s)

/-- The running firmware lies in the window. -/
def fwInWindow (s : State) : Bool := decide (s.rack.view.fwMin ≤ fwCode s) && decide (fwCode s ≤ s.rack.view.fwMax)

/-- A duplicate ANNOUNCE has come within the last 10 s. -/
def dupRecent (s : State) : Bool := match s.rack.dupAt with | some t => decide (s.time.mono < t + tenSeconds) | none => false

/-- The four reasons as bits. -/
def reasonBits (listed digest fw dup : Bool) : BitVec 4 :=
  BitVec.ofNat 4 (b2n (!listed) + 2 * b2n (!digest) + 4 * b2n (!fw) + 8 * b2n dup)

/-- The verdict at an accepted epoch. -/
def verdict (s : State) : State :=
  let ok := listedHere s && fwInWindow s
  match s.rack.mstate with
  | .quarantine =>
    if ok && digestsEqual s && !dupRecent s then enterMember s
    else modRack (fun r => { r with reasons := reasonBits (listedHere s) (digestsEqual s) (fwInWindow s) (dupRecent s) }) s
  | .grace => if !ok then enterQuarantine (reasonBits (listedHere s) true (fwInWindow s) false) s else if digestsEqual s then enterMember s else s
  | _ =>
    if !ok then enterQuarantine (reasonBits (listedHere s) true (fwInWindow s) false) s
    else if digestsEqual s then enterMember s else enterGrace s

/-- A FURL_DOMAIN_CFG or SHR_CC_CFG has changed the configuration: LOCAL_DIGEST anew, and what it does to MSTATE. -/
def digestChanged (s : State) : State :=
  let s1 := modRack (fun r => { r with digest := localDigest s }) s
  if s1.rack.mstate = .member && !digestsEqual s1 then enterGrace s1
  else if s1.rack.mstate = .grace && digestsEqual s1 then enterMember s1
  else s1

/-- GRACE_EXPIRY. -/
def graceExpiry (s : State) : State := if s.rack.mstate = .grace then enterQuarantine 0b0010 s else s

/-! ### Active members and system connections (R674 - R676) -/

/-- The active members now. -/
def activeMask (s : State) : BitVec 72 := (List.range 72).foldl (fun m e => if activeMember e s then setBit m e true else m) 0

/-- The device number of a peer of a system connection and the key: a new ECDH_PUB brings a new connection, once no other connection
to the peer is OPENING (R392). -/
def sysEnsure (e : Nat) (s : State) : State :=
  match (peerOf e s).ann with
  | none => s
  | some a =>
    if a.ecdh = (peerOf e s).sysKey || rmuGone s || s.dev.mode = .quarantine || !shrRuns s ||
        s.shr.conns.any (fun x => x.2.st = .opening && x.2.peer = .stay e && some x.1 ≠ (peerOf e s).sysConn) then s
    else
      let s1 := match (peerOf e s).sysConn with
        | some i => connClose i true none s
        | none => s
      match freeIdx s1.shr.conns (fun x => !(x.st = .free)) 16384 with
      | none => s1
      | some i =>
        let key := Config.sysKey s.sec.drbg a.ecdh (min e (devNum s)) (max e (devNum s))
        connOpen i { fn := unseen, peer := .stay e, tenant := 0xFFFF, sys := true, key := key, chain := 2 }
          (modPeer e (fun p => { p with sysConn := some i, sysKey := a.ecdh }) s1)

/-- A peer has stopped being an active member: Furl loses its home and Reef its peer. -/
def memberLost (e : Nat) (s : State) : State := peerLoss e (furlMemberLost e s)

/-- What follows from a change of the active members. -/
def memberSweep (s : State) : State :=
  let now := activeMask s
  let lost := (List.range 72).filter (fun e => s.rack.active.getLsbD e && !now.getLsbD e)
  let s1 := if now = s.rack.active then s else modRack (fun r => { r with active := now }) s
  let s2 := lost.foldl (fun s e => memberLost e s) s1
  if now = 0 then s2 else (List.range 72).foldl (fun s e => if now.getLsbD e then sysEnsure e s else s) s2

/-- ANNOUNCE within 1 ms of a change of what it says (R671). -/
def announceSweep (s : State) : State := if speaks s && s.rack.said ≠ sayNow s then announce s else s

/-- SYSTEM_CONN_EXPIRY. -/
def sysExpiry (e : Nat) (s : State) : State :=
  if activeMember e s then s
  else match (peerOf e s).sysConn with
    | some i => connClose i true none (modPeer e (fun p => { p with sysConn := none }) s)
    | none => s

/-! ### Peer messages that arrive (R673, R674) -/

/-- A message that R673 discards. -/
def rackDiscard (s : State) : State := modRack (fun r => { r with discarded := r.discarded + 1 }) s

/-- A valid ANNOUNCE. -/
def rxAnnounce (b : List Byte) (s : State) : State :=
  let e := fieldN b 4 1
  let serial := fieldN b 28 8
  if e = devNum s then
    if serial = s.fuses.serial then s
    else
      let s1 := modRack (fun r => { r with dupAt := some s.time.mono }) s
      if s1.rack.mstate = .quarantine then s1 else enterQuarantine 0b1000 s1
  else
    let a : PeerAnn := { state := fieldN b 5 1, mstate := fieldN b 6 1, epoch := fieldN b 8 8, serial := serial, ecdh := slice b 52 96, fresh := true }
    modPeer e (fun p => { p with ann := some a, left := false }) s

/-- A peer message of a device (PROTO 0x03). -/
def rackMsg (src : Nat) (b : List Byte) (s : State) : State :=
  if !speaks s then s
  else if b.length < 4 || fieldN b 1 1 ≠ 1 || fieldN b 2 2 ≠ b.length then rackDiscard s
  else if fieldN b 0 1 = 1 then
    if b.length = 340 && fieldN b 4 1 < 72 && Config.ecdsaVerify (slice b 148 96) (sha384 (b.take 244)) (slice b 244 96) then rxAnnounce b s else rackDiscard s
  else if fieldN b 0 1 = 2 then
    if b.length = 8 then modPeer src (fun p => { p with left := true }) s else rackDiscard s
  else rackDiscard s

/-- A message of one MTYPE arrives. -/
def rackArrive (mtype src : Nat) (b : List Byte) (s : State) : State := if fieldN b 0 1 = mtype && src < 72 then rackMsg src b s else s

/-- ACTIVE_MEMBER_EXPIRY: no valid ANNOUNCE for 3 s. -/
def annExpiry (e : Nat) (s : State) : State := modPeer e (fun p => { p with ann := p.ann.map (fun a => { a with fresh := false }) }) s

/-- OLD_EPOCH_WINDOW_EXPIRY. -/
def oldEpochExpiry (s : State) : State := modRack (fun r => { r with oldWindow := false }) s

/-- RMU_LOST_TIMEOUT (R677). -/
def rmuTimeout (s : State) : State := modRack (fun r => { r with rmuLost := true }) s

/-! ### Commands -/

/-- The view that a RACK_EPOCH payload gives. -/
def viewOf (p : List Byte) : RackView :=
  { epoch := fieldN p 0 8, digest := fieldN p 8 8, fwMin := fieldN p 16 4, fwMax := fieldN p 20 4, gmId := fieldN p 24 8
    members := BitVec.ofNat 72 (fieldN p 32 9) }

/-- MSTATE's code. -/
def MState.code : MState → Nat
  | .unset => 0 | .member => 1 | .grace => 2 | .quarantine => 3

/-- RACK_EPOCH (R192, R659 - R662). -/
def doRackEpoch (c : Cmd) (_r : Nat × Nat) (s : State) : State × Answer :=
  let p := payloadOf c
  let v := viewOf p
  let old := s.rack.view
  checkAll
    [ [ (2 ^ 24 ≤ v.fwMin, .inval, 24), (2 ^ 24 ≤ v.fwMax, .inval, 28), (v.fwMax < v.fwMin, .inval, 24) ],
      [ (v.epoch < old.epoch, .stale, 0) ], [ (v.epoch = old.epoch && v ≠ old, .inval, 8) ] ]
    (fun _ =>
      let s1 := modRack (fun r => { r with view := v, epochAt := s.time.mono, rmuLost := false, oldWindow := r.oldWindow || old.epoch < v.epoch }) s
      let s2 := verdict (if v.gmId = old.gmId then s1 else dropSync s1)
      let s3 := if old.epoch < v.epoch then psFirmware 1 (p.take 41) s2 else s2
      okWith (leBytes 1 (b2n (s3.rack.mstate = .quarantine)) ++ leBytes 1 s3.rack.mstate.code ++ leBytes 1 s3.rack.reasons.toNat ++ leBytes 5 0) s3) s

/-- MS_SINCE_RMU. -/
def msSinceRmu (s : State) : Nat :=
  if s.rack.mstate = .unset then 0xFFFFFFFF else min 0xFFFFFFFE ((s.time.mono - s.rack.epochAt) / 1000000)

/-- Grace left, in seconds, rounded up. -/
def graceLeft (s : State) : Nat :=
  if s.rack.mstate = .grace then (s.rack.graceAt + tenSeconds - s.time.mono + 999999999) / 1000000000 else 0

/-- RACK_STATUS (Table 25.6). While MSTATE is UNSET, MS_SINCE_RMU reads 0xFFFF_FFFF and RMU_LOST with it. -/
def doRackStatus (_c : Cmd) (_r : Nat × Nat) (s : State) : State × Answer :=
  let r := s.rack
  let own : Bool := r.mstate = .member || r.mstate = .grace
  let act := (activeMask s).toNat + (if own && devNum s < 72 then 2 ^ devNum s else 0)
  okWith (leBytes 8 r.view.epoch ++ leBytes 8 r.view.digest ++ leBytes 1 r.mstate.code ++ leBytes 1 r.reasons.toNat ++
    leBytes 1 (b2n (rmuGone s) + 2 * b2n s.time.synced) ++ leBytes 1 (graceLeft s) ++ leBytes 4 (msSinceRmu s) ++ leBytes 8 r.digest ++
    leBytes 9 act ++ leBytes 7 0) s

/-- Record 0x0001 as the held epoch, with MSTATE UNSET (R663). -/
def loadEpoch (s : State) : State :=
  let v := match psRead 1 s with
    | some b => if b.length = 41 then viewOf b else {}
    | none => {}
  modRack (fun r => { r with view := v, digest := localDigest s }) s

end Sys2Proof.Machine
end

