-- ==== Sys2Proof/Machine/Boot.lean ====
section
/-! DEFINITION. Resets, straps, the boot stages and the clocks' losses (spec/02_signals_board.md R30 - R40, R44;
spec/04_clocks_reset_bringup.md, R83 - R101; R54, R62, R685, R686, R707). -/

namespace Sys2Proof.Machine

/-! ### Straps (R36, R38) -/

/-- The majority of three levels. -/
def maj3 (a b c : Bool) : Bool := (a && b) || (a && c) || (b && c)

/-- The strap, 0 BOOT_SRC to 5 SMB_ADDR, that bit i of STRAPS belongs to. -/
def strapOf (i : Nat) : Nat := if i < 2 then 0 else if i < 4 then 1 else if i = 4 then 2 else if i < 11 then 3 else if i = 11 then 4 else 5

/-- The latched straps and the straps whose three samples disagree. -/
def latchStraps (a b c : BitVec 14) : BitVec 14 × BitVec 6 :=
  (List.range 14).foldl (fun (v, d) i =>
    let x := a.getLsbD i
    let y := b.getLsbD i
    let z := c.getLsbD i
    (setBit v i (maj3 x y z), if x == y && y == z then d else setBit d (strapOf i) true)) (0, 0)

/-- STRAP_SAMPLE: the samples count while cold reset holds, power-on reset has released and SYS_RST_N is high. -/
def strapSampled (levels : BitVec 14) (s : State) : State :=
  if !(s.dev.mode = .cold) || s.pins.por || !s.pins.sysRstN || 3 ≤ s.pins.samples.length then s
  else
    let l := s.pins.samples ++ [levels]
    let p := { s.pins with samples := l }
    match l with
    | [a, b, c] => { s with pins := { p with straps := (latchStraps a b c).1, disagree := (latchStraps a b c).2 } }
    | _ => { s with pins := p }

/-- Strap k holds an invalid value (Table 2.8). -/
def strapInvalid (v : BitVec 14) (k : Nat) : Bool :=
  let n := v.toNat
  (k = 0 && n % 4 = 3) || (k = 1 && bitsN n 2 2 = 3) || (k = 3 && 36 ≤ bitsN n 5 6)

/-- The item of a strap fault in the order of R38: disagreement, invalid value, invalid combination. -/
def strapFault (p : Pins) : Option Nat :=
  let n := p.straps.toNat
  match firstIdx (fun k => p.disagree.getLsbD k) 0 6 with
  | some k => some k
  | none =>
    match firstIdx (fun k => strapInvalid p.straps k) 0 6 with
    | some k => some k
    | none => if (bitsN n 2 2 = 1 && !bitN n 4) || (n % 4 = 2 && bitsN n 2 2 = 2) then some 6 else none

/-! ### Boot records (R97) -/

/-- Tenths of a millisecond of ACLK cycles. -/
def tenthsOf (aclk : Nat) : Nat := aclk / 2500

/-- Entry to a stage: BOOT_STAGE and its line. -/
def enterStage (n tenths : Nat) (s : State) : State :=
  emit (.uart (lineText (.boot n s.dev.fault tenths none))) { s with dev := { s.dev with stage := n } }

/-- The boot halts in its stage (R93): FAIL, the fault code, the item and the halt line. -/
def haltBoot (fault item tenths : Nat) (s : State) : State :=
  emit (.uart (lineText (.boot (s.dev.stage + 128) fault tenths (some item))))
    { s with dev := { s.dev with fail := true, fault := fault, item := item } }

/-! ### What each reset leaves (Table 4.3) -/

/-- The policy record of an order code at cold reset (Table 3.5). -/
def coldPolicy (is9612 : Bool) : Policy :=
  if is9612 then { pcap := 950, noncore := 260, freq0 := 1600, freq1 := 1600 } else {}

/-- Flash, fuses and drives keep what they hold; the pins' input levels are the board's. The TAP is not reset (R637), but its private
instructions go with the debug lock. Whether PWR_FAIL_N has fallen is forgotten while the pin keeps its level: a PWR_FAIL_N that stays
low through a cold reset counts as fallen again at its next fall event (DESIGN CHOICE; log entry 77). -/
def coldState (s : State) : State :=
  { fuses := s.fuses
    pins := { por := s.pins.por, sysRstN := s.pins.sysRstN, perstN := s.pins.perstN, pwrFailN := s.pins.pwrFailN, hiZ := true
              thermTrip := s.pins.thermTrip, nvmeRefclk := false, plbClkoDiv := 0 }
    pow := { policy := coldPolicy s.fuses.is9612 }
    dev := { mode := .cold, porSince := s.dev.porSince, lostRefs := s.dev.lostRefs, lostPlls := s.dev.lostPlls }
    jtag := if s.jtag.reg = .privateDebug then { s.jtag with reg := .bypass } else s.jtag
    ps := { slots := psCut s }
    sec := { s.sec with hbm := [], shr := [], media0 := none, media1 := none, chal := none, nonce := [], lock := .closed, fails := 0 }
    reef := reefReset s.reef
    out := s.out, free := s.free + b2n s.ps.writing.isSome, pending := s.pending }

/-- A rail over a warm reset: the regulator holds its set point, the pinned counters stay (R76), YCLK runs at 800 MHz. While PWR_FAIL_N
has fallen the limiter keeps the die at 800 MHz (R60). -/
def warmRail (fallen : Bool) (r : Rail) : Rail :=
  { v := r.v, want := (800, r.v), vt := r.v, milliamp := r.milliamp, temp := r.temp, vminPin := r.vminPin, vmaxPin := r.vmaxPin
    limF := if fallen then 800 else 2000, fallLim := fallen }

/-- The time unit over a warm reset: time, PTP and PPS go on (Table 4.3). TOD_ADJ_PPB is RW and SET_INVAL and WR_IGN are W1C in BAR0, so
they take their reset values (R10, Table 0.4; log entry 37); the trim follows TOD_ADJ_PPB while the discipline is STOPPED. -/
def warmTime (disc : FnState) (t : TimeUnit) : TimeUnit :=
  { t with adjPpb := 0, setInval := false, wrIgn := false, trim := if disc = .stopped then 0 else t.trim }

/-- The state right after a warm reset begins (SEQ of mailboxes 16 to 18, which have no START, counts from 0 again, as after a cold reset:
DESIGN CHOICE; log entry 78): the always-on domain, the time unit, the PCIe link and the PLB arbiter go on. -/
def warmState (s : State) : State :=
  { fuses := s.fuses
    pins := { s.pins with gpioDir := 0, gpioOut := 0, nvmePerstN := 0 }
    pow := { policy := coldPolicy s.fuses.is9612, r0 := warmRail s.pins.pwrFallen s.pow.r0, r1 := warmRail s.pins.pwrFallen s.pow.r1, capPin := s.pow.capPin, floorPin := s.pow.floorPin }
    dev := { cause := 2, warm := true, fuseRead := s.dev.fuseRead, porSince := s.dev.porSince, lostRefs := s.dev.lostRefs, lostPlls := s.dev.lostPlls }
    tt := { sevs := s.tt.sevs }
    host := { fns := Tab.put [] 0x0A (fnState 0x0A s), mbx := Tab.put [] 19 { nextSeq := (Tab.get s.host.mbx 19).nextSeq } }
    pcie := { s.pcie with fns := Tab.mapAll s.pcie.fns (fun _ p => { p with localBase := 0, flr := false }) }
    smb0 := s.smb0
    smb1 := { s.smb1 with retry := none }
    uart := { s.uart with baud := 115200, nextBaud := none, buf := [], lastCr := false }
    jtag := if s.jtag.reg = .privateDebug then { s.jtag with reg := .bypass } else s.jtag
    time := warmTime (fnState 0x0A s) s.time
    rl := { s.rl with sweep := none }
    ps := { slots := psCut s }
    mem := { bytes := s.mem.bytes, pages := Tab.mapAll s.mem.pages (fun _ p => if p.use = .retired then { p with tenant := none } else {}), listed := s.mem.listed }
    sec := s.sec
    stay := { links := s.stay.links }
    bow := { arb := s.bow.arb, tenure := s.bow.tenure, lastGrant := s.bow.lastGrant, low := s.bow.low, reqLow := s.bow.reqLow, mst := s.bow.mst
             accs := if s.bow.mst = .active then (s.bow.accs.take 1).map (fun a => { a with ref := none, cycles := a.cycles.take 1 }) else []
             inw := [(0, plbIn0 (s.pins.straps.getLsbD 11))] }
    reef := reefReset s.reef
    out := s.out, free := s.free + b2n s.ps.writing.isSome, pending := s.pending }

/-! ### Power-on, cold and warm reset -/

/-- SYS_RST_N low, or VAON low: the Cold column of Table 4.3. -/
def coldReset (s : State) : State := coldState s

/-- VAON falls below 0.75 V (R85): power is removed, so THERM_TRIP_N is let go (R35), and the TAP is reset (R637). -/
def powerOn (s : State) : State :=
  let s1 := coldState { s with pins := { s.pins with por := true, thermTrip := false }, dev := { s.dev with porSince := true } }
  { s1 with jtag := {} }

/-- SYS_RST_N falls (R87). -/
def sysRstLow (s : State) : State := coldState { s with pins := { s.pins with sysRstN := false } }

/-- SYS_RST_N rises, or power-on reset releases: sampling starts anew. The pins stay high impedance until cold reset releases (R30, R33). -/
def sysRstRise (s : State) : State := { s with pins := { s.pins with sysRstN := true, samples := [] } }

def porRelease (s : State) : State := { s with pins := { s.pins with por := false, samples := [] } }

/-- A domain's clock-loss source asserts: on the direct path where Table 23.1 puts it there; not for a clock that SAFE gates (R616). -/
def clockLoss (d : Nat) (s : State) : State :=
  if s.dev.gated && d < 2 then s
  else if directPath (0x170 + d) then directAssert (0x170 + d) s
  else raise (0x170 + d) s

/-- The domains whose reference may be absent at cold reset release: LCLK, ECLK, HCLK, and PCLK when it comes from PLB_CLK. The others
come from XTAL, and the release waits for their PLLs (R86). -/
def freeDomains (s : State) : List Nat := [5, 6, 7] ++ (if s.pins.straps.getLsbD 4 then [11] else [])

/-- The sources of the clocks that are lost at cold reset release (R83). -/
def lossAtRelease (s : State) : State := ((freeDomains s).filter (fun d => domainLost d s)).foldl (fun s d => clockLoss d s) s

/-- Every XTAL-referenced domain has its clock. -/
def xtalRuns (s : State) : Bool := (List.range 14).all (fun d => (freeDomains s).contains d || !domainLost d s)

/-- The regulators' voltages are read in ROM_START (R62, Table 4.6). -/
def vrmRead (s : State) : State := avsSend 1 .readVoltage (avsSend 0 .readVoltage s)

/-- Cold reset releases: BOOT at ROM_START, the cause (Table 4.3), the PLB clock and references driven (R44), Stay training. PLB_CLKO
follows PLB_CLKSEL alone: with PLB_ROLE 0b10 and PLB_CLKSEL 0 it is driven at 50 MHz, where R42 and R44 leave open which of them governs
that ball (DESIGN CHOICE; log entry 76). Clocks that are lost at the release raise their sources (R83). -/
def coldBoot (s : State) : State :=
  let s1 : State := { s with
    dev := { s.dev with mode := .boot, stage := 1, fail := false, fault := 0, item := 0xFF, cause := if s.dev.porSince then 0 else 1
                        porSince := false, pllWait := false, warm := false }
    pins := { s.pins with hiZ := false, nvmeRefclk := true, plbClkoDiv := if s.pins.straps.getLsbD 4 then 0 else 48 }
    bow := { inw := [(0, plbIn0 (s.pins.straps.getLsbD 11))] } }
  enterStage 1 0 (lossAtRelease (secBoot true (if lclkRuns s1 then s1 else linksDown s1)))

/-- COLD_RESET_RELEASE (R86): once the three samples are taken, and the PLLs are locked. -/
def coldRelease (locked : Bool) (s : State) : State :=
  if !(s.dev.mode = .cold) || s.pins.por || !s.pins.sysRstN || s.pins.samples.length < 3 then s
  else if locked && xtalRuns s then vrmRead (coldBoot s)
  else { s with dev := { s.dev with pllWait := true } }

/-- PLL_LOCK_TIMEOUT (R86): BOOT with fault 0x08, and nothing of ROM_START's work. -/
def pllTimeout (s : State) : State :=
  if s.dev.mode = .cold && s.dev.pllWait && !s.pins.por && s.pins.sysRstN then haltBoot 8 0xFF 0 (coldBoot s) else s

/-- A warm reset begins (R88 - R90): LEAVE, every Stay link resynchronises with zero credits, and the boot ROM starts again. -/
def warmReset (s : State) : State :=
  let s1 := secBoot false (warmState (sendLeave 2 s))
  vrmRead (enterStage 1 0 ((List.range 12).foldl (fun s k => startResync k s) (enableLinks s1)))

/-! ### The stages (Table 4.4) -/

/-- Firmware runs from a slot. -/
def runFirmware (slot version : Nat) (s : State) : State :=
  { s with dev := { s.dev with slot := slot, fwMajor := version / 65536 % 256, fwMinor := version / 256 % 256, fwPatch := version % 256 } }

/-- Entry to FW_INIT: the poll list of SMB1 (R626), the commit words again (R656), the rails under control. -/
def fwInit (tenths : Nat) (s : State) : State :=
  let s1 := if s.pins.pwrFallen then s else psRecommit s
  let s2 := enterStage 5 tenths { s1 with smb1 := { s1.smb1 with devs := pollList (psRead 0x10 s1), retry := none } }
  reformAll s2

/-- The firmware image of the PLB boot flash (R498), of HOST_LOAD and of the flash slots: verified, measured and run. -/
def runImage (img : List Byte) (s : State) : Option State :=
  if fwVerify img s.sec.fuse = Verdict.ok then some (runFirmware 0 (fwVersion img) (secMeasure img (fwSvn img) s)) else none

/-- FW_LOAD (R95). -/
def fwLoad (r : StageReport) (s : State) : Option State :=
  if s.pins.straps.toNat % 4 = 2 then
    match r.image with
    | some img => runImage img s
    | none => none
  else
    match bootSlot s with
    | some n => some (runFirmware n (fwSlot n s).version (secMeasure (fwSlot n s).written (fwSlot n s).svn s))
    | none => none

/-- The retired pages of record 0x0000 (R311). -/
def retiredRecord (s : State) : List Nat :=
  match psRead 0 s with
  | some b => (List.range (b.length / 4)).map (fun k => fieldN b (4 * k) 4)
  | none => []

/-- MEM_INIT: every memory is zero, and the retired pages are out of use. -/
def memInit (s : State) : State :=
  let ps := retiredRecord s
  let keep := Tab.mapAll s.mem.pages (fun _ p => if p.use = .retired && p.unrecorded then p else {})
  { s with mem := { pages := ps.foldl (fun t p => Tab.put t p { use := .retired }) keep, listed := ps } }

/-- TILE_TEST: failed tiles are fenced (R96). -/
def fenceTiles (f : BitVec 128) (s : State) : State :=
  { s with
    dev := { s.dev with fenced := f }
    comp := { s.comp with tiles := (List.range 128).foldl (fun t i => if f.getLsbD i then Tab.put t i { st := .fenced } else t) s.comp.tiles } }

/-- PORT_INIT: the NVMe resets, the functions of Table 5.12, the rack view. -/
def portInit (s : State) : State :=
  let s1 := (List.range 8).foldl (fun s k => setFn (k + 2) .running s) s
  loadEpoch (bowStart { s1 with pins := { s1.pins with nvmePerstN := perstFor 0 } })

/-- FINAL completes (Table 4.7): READY or DEGRADED, or QUARANTINE where a view accepted before has it so (R669), the end of Configuration
Retry Status, Stay credits, Ethernet enabled, SVN_MIN raised (R548). -/
def bootDone (tenths : Nat) (svnFails : Bool) (s : State) : State :=
  let s1 := enterStage 0x0A tenths { s with dev := { s.dev with fwShown := true, warm := false } }
  let s2 := setFn 1 .running (setFn 0 .running (crsEnd (setMode (if s1.rack.mstate = .quarantine then .quarantine else goodMode s1) s1)))
  svnRaise svnFails (reformAll ((List.range 12).foldl (fun s k => grantCredits k s) s2))

/-- What a regulator answered to the Voltage read of ROM_START, and the transition rate it is then given (R62). A read whose repeats all
failed (R66) leaves the voltage as the last one known. -/
def vrmAnswer (d mv : Nat) (s : State) : State :=
  let v := if (railOf d s).lastFrame.isSome then mv else (railOf d s).v
  let s1 := avsSend d .writeRate s
  setRail d { railOf d s1 with v := v, vt := v, want := (800, v), rateSet := true } s1

/-- Both regulators. -/
def vrmStart (mv0 mv1 : Nat) (s : State) : State := vrmAnswer 1 mv1 (vrmAnswer 0 mv0 s)

/-- BOOT_STAGE_DONE (R93 - R96). HOST_WAIT ends by HOST_LOAD alone. Masthead's core runs on CCLK, and does nothing while it is lost (R83). -/
def stageDone (r : StageReport) (s : State) : State :=
  let t := tenthsOf r.aclk
  if !(s.dev.mode = .boot) || s.dev.fail || domainLost 9 s then s
  else match s.dev.stage with
    | 1 =>
      let s1 := vrmStart r.vrmMv0 r.vrmMv1 s
      match watchedRows r.railsOut with
      | k :: ks => haltBoot 2 (ks.foldl min k) t s1
      | [] =>
        match strapFault s1.pins with
        | some k => haltBoot 1 k t s1
        | none => enterStage 2 t s1
    | 2 =>
      let s1 := secFuse { s with dev := { s.dev with fuseRead := true } }
      if s.pins.straps.toNat % 4 = 1 then crsEnd (enterStage 4 t s1) else enterStage 3 t s1
    | 3 =>
      match fwLoad r s with
      | some s1 => fwInit t s1
      | none => haltBoot 3 0xFF t s
    | 5 => if r.linksOk then enterStage 6 t s else haltBoot 6 0xFF t s
    | 6 => if r.hbmOk then enterStage 7 t (memInit s) else haltBoot 5 0xFF t s
    | 7 =>
      let s1 := fenceTiles r.failedTiles s
      if 8 < popcount r.failedTiles 128 then haltBoot 7 0xFF t s1 else enterStage 8 t s1
    | 8 => enterStage 9 t (portInit s)
    | 9 => bootDone t r.svnFails s
    | _ => s

/-- BOOT_STAGE_TIMEOUT: fault 0x04. HOST_WAIT has no limit. -/
def stageTimeout (aclk : Nat) (s : State) : State :=
  if !(s.dev.mode = .boot) || s.dev.fail || s.dev.stage = 4 then s else haltBoot 4 0xFF (tenthsOf aclk) s

/-! ### HOST_LOAD in HOST_WAIT (R99, R100, R162) -/

/-- What the boot ROM answers a command of the inline mailbox in BOOT: status, detail, and the state. Reserved bytes 20 to 63 that are not
zero answer INVAL with DETAIL 20 in HOST_WAIT (R6; that DETAIL is the model's choice, log entry 78). -/
def bootInline (c : Cmd) (s : State) : State × Status × Nat :=
  let p := c.body
  let len := fieldN p 8 4
  if c.op ≠ 0x000C || s.dev.stage ≠ 4 || s.dev.fail then (s, .again, 0)
  else if fieldN p 0 8 % 4096 ≠ 0 then (s, .inval, 8)
  else if len < 4096 || 0x2000000 < len || len % 4096 ≠ 0 then (s, .inval, 16)
  else if !zeroAt p 12 44 then (s, .inval, 20)
  else match readHost 0 c.rd.data s with
    | none => (s, .fault, 1)
    | some d =>
      match runImage (slice d 0 len) s with
      | none => (s, .fault, 2)
      | some s1 => (fwInit (tenthsOf c.rd.aclk) s1, .ok, 0)

/-! ### Clocks (R83, R84) -/

/-- The domains of a reference, by their place in Table 4.1. -/
def refDomains (r : Ref) (s : State) : List Nat :=
  match r with
  | .xtal => [0, 1, 2, 3, 4, 8, 9, 10] ++ (if s.pins.straps.getLsbD 4 then [] else [11]) ++ [12, 13]
  | .pcie => [7]
  | .serdes => [5, 6]
  | .plb => if s.pins.straps.getLsbD 4 then [11] else []

/-- The place of a domain in Table 4.1. -/
def domIdx : Domain → Nat
  | .yclk0 => 0 | .yclk1 => 1 | .mclk0 => 2 | .mclk1 => 3 | .fclk => 4 | .lclk => 5 | .eclk => 6 | .hclk => 7
  | .nclk => 8 | .cclk => 9 | .vclk => 10 | .pclk => 11 | .aclk => 12 | .tclk => 13

/-- The bit of a reference among those lost. -/
def refIdx : Ref → Nat
  | .xtal => 0 | .pcie => 1 | .serdes => 2 | .plb => 3

/-- What stops with the clocks: Stay links, Ethernet links, the host link with its PCIe reset. -/
def clocksStopped (ds : List Nat) (s : State) : State :=
  let s1 := if ds.contains 5 then linksDown s else s
  let s2 := if ds.contains 6 then ethLinkChange 1 false (ethLinkChange 0 false s1) else s1
  if ds.contains 7 && s2.pcie.linkUp then endpointReset (linkLost s2) else s2

/-- The domains of a clock source; PCLK comes from the CCLK PLL when PLB_CLKSEL is 0 (Table 4.1). -/
def srcDomains (c : ClockSrc) (s : State) : List Nat :=
  match c with
  | .ref r => refDomains r s
  | .pll d => if domIdx d = 9 && !s.pins.straps.getLsbD 4 then [9, 11] else [domIdx d]

/-- Mark a clock source as lost or back. -/
def markClock (c : ClockSrc) (lost : Bool) (s : State) : State :=
  match c with
  | .ref r => { s with dev := { s.dev with lostRefs := setBit s.dev.lostRefs (refIdx r) lost } }
  | .pll d => { s with dev := { s.dev with lostPlls := setBit s.dev.lostPlls (domIdx d) lost } }

/-- REFERENCE_LOSS (R83, R84). -/
def clockLost (c : ClockSrc) (s : State) : State :=
  let ds := (srcDomains c s).filter (fun d => !domainLost d s)
  let s1 := markClock c true s
  if s.dev.mode = .cold then s1 else clocksStopped ds (ds.foldl (fun s d => clockLoss d s) s1)

/-- The first FCLK cycle the collector runs in again sets the sticky bits of the latched direct-path sources (R709). -/
def latchedSticky (s : State) : State :=
  if fclkRuns s then
    ((List.range 448).filter (fun i => s.tt.latched.getLsbD i && !s.tt.sticky.getLsbD i)).foldl (fun s i => setSticky i s) s
  else s

/-- REFERENCE_RETURN (R84): the domains run again; Stay retrains. The Ethernet and PCIe links come up by events of their own. -/
def clockBack (c : ClockSrc) (s : State) : State :=
  let s1 := markClock c false s
  if s.dev.mode = .cold then s1
  else
    let s2 := if (srcDomains c s).contains 4 then latchedSticky s1 else s1
    if (srcDomains c s).contains 5 then (List.range 12).foldl (fun s k => trainDown k s) s2 else s2

/-- THERMAL_TRIP (R686, R35): 0 M0, 1 M1, 2 RG. The pin is driven in every state, COLD among them; the direct path is armed from cold reset
release on (R613). -/
def thermalTripped (die : Nat) (s : State) : State :=
  if 3 ≤ die then s
  else directAssert (0x17E + die) { s with pins := { s.pins with thermTrip := true } }

/-- RAIL_OUT_OF_RANGE (R685): the k-th watched rail of Table 23.1. -/
def railOut (k : Nat) (s : State) : State := if 7 ≤ k then s else raise (0x165 + k) s

/-- HEARTBEAT_TICK (R122). -/
def heartbeatTick (s : State) : State :=
  if s.dev.mode = .cold || s.dev.mode = .safe || s.dev.fail || s.dev.stage < 5 || domainLost 9 s then s
  else { s with dev := { s.dev with heartbeat := s.dev.heartbeat + 1 } }

end Sys2Proof.Machine
end

