-- ==== Sys2Proof/Machine/Func.lean ====
section
/-! DEFINITION. Functions of Table 5.4: START, validation, STOP and drain (spec/05_registers.md, Tables 5.5 and 5.12, R114 - R116,
R127, R128, R187, R707). -/

namespace Sys2Proof.Machine

/-- The START of a doorbell page is valid (R128). -/
def pageValid (p : Page) : Bool :=
  let z := p.sizes.toNat
  let a := bitsN z 0 4
  let b := bitsN z 8 4
  p.sqBase.toNat % 4096 = 0 && p.cqBase.toNat % 4096 = 0 && decide (4 ≤ a) && decide (a ≤ 12) && decide (4 ≤ b) && decide (b ≤ 12) &&
  z = a + 256 * b && p.ctl.toNat % 2 ^ 14 = p.ctl.toNat && bitsN p.ctl.toNat 2 6 = 0

/-- What the START of function f validates (Table 5.12). -/
def fnValid (f : Nat) (s : State) : Bool :=
  if 16 ≤ f then pageValid (Tab.get s.host.pages (f - 16))
  else match f with
    | 3 => shrValid s
    | 4 => trimValid s
    | 5 => decide (s.furl.lowPct < s.furl.highPct) && decide (s.furl.highPct ≤ 100)
    | 7 => bowValid s
    | 8 => nvmeValid s
    | 9 => reefValid s
    | 10 => decide (s.time.source ≤ 3) && decide (s.time.ptpDomain ≤ 127)
    | _ => true

/-- The work in flight of function f is over (Table 5.4). -/
def fnDrained (f : Nat) (s : State) : Bool :=
  if 16 ≤ f then !s.host.cmds.any (fun o => o.cmd.mb = f - 16)
  else match f with
    | 0 => (List.range 8).all (fun q => (queueOf 0 q s).pkts.isEmpty)
    | 1 => (List.range 8).all (fun q => (queueOf 1 q s).pkts.isEmpty)
    | 2 => stayDrained s
    | 3 => shrDrained s
    | 5 => s.furl.asked.isEmpty
    | 6 => frameDrained s
    | 7 => bowDrained s
    | 8 => nvmeDrained s
    | 9 => reefDrained s
    | _ => true

/-- What function f does as it reaches RUNNING. -/
def fnStarted (f : Nat) (s : State) : State :=
  if 16 ≤ f then
    modMbx (f - 16) (fun m => { m with nextSeq := 0 })
      (modPage (f - 16) (fun p => { p with sqHead := 0, cqTail := 0, phase := true, cqFull := false }) s)
  else match f with
    | 3 => shrStart s
    | 4 => zeroBuckets s
    | 7 => bowStart s
    | 8 => nvmeStart s
    | _ => s

/-- What function f does as it leaves RUNNING. -/
def fnStopping (f : Nat) (s : State) : State := if f = 6 then frameStop s else if f = 0x0A then ppsFall s else s

/-- What function f does as it reaches STOPPED. -/
def fnStopped (f : Nat) (s : State) : State :=
  if 16 ≤ f then endSession (f - 16) s
  else if f = 7 then bowStopped s
  else s

/-- The outstanding commands with an opcode that name function f and run. -/
def fnWaiters (op f : Nat) (s : State) : List (Nat × Nat) :=
  (s.host.cmds.filter (fun o => o.cmd.op = op && o.prog = .running && fieldN (payloadOf o.cmd) 0 1 = f)).map (fun o => (o.cmd.mb, o.id))

/-- The FUNC_START or FUNC_STOP commands that wait for function f complete. -/
def fnAnswer (op f : Nat) (st : Status) (detail : Nat) (s : State) : State :=
  (fnWaiters op f s).foldl (fun s r => finish r st detail [] s) s

/-- A write of ENABLE held during a transition (R127): the opposite transition begins when it differs. -/
def heldEnable (m : Nat) (s : State) : State :=
  match (Tab.get s.host.pages m).heldEnable with
  | none => s
  | some b => enableWrite m b (modPage m (fun p => { p with heldEnable := none }) s)

/-- FUNC_VALIDATED (R115): RUNNING, or STOPPED with INVAL. -/
def funcValid (f : Nat) (s : State) : State :=
  if !(fnState f s = .starting) then s
  else
    let ok := fnValid f s
    let s1 := if ok then fnStarted f (setFn f .running s) else setFn f .stopped s
    if 16 ≤ f then heldEnable (f - 16) (if ok then s1 else modPage (f - 16) (fun p => { p with startInval := true }) s1)
    else if ok then fnAnswer 7 f .ok 0 s1 else fnAnswer 7 f .inval 0xFFFF s1

/-- FUNC_DRAINED (R114). -/
def funcDrain (f : Nat) (s : State) : State :=
  if !(fnState f s = .stopping) || !fnDrained f s then s
  else
    let s1 := fnStopped f (setFn f .stopped s)
    if 16 ≤ f then heldEnable (f - 16) s1 else fnAnswer 8 f .ok 0 s1

/-- FUNC_START (R187, Table 5.5). Of Stay, running or not, it enables the links that retrains have disabled (R377, Table 15.9). -/
def doFuncStart (c : Cmd) (_r : Nat × Nat) (s : State) : State × Answer :=
  let f := fieldN (payloadOf c) 0 1
  checks [ (0x0A < f, .inval, 8), (fnState f s = .starting || fnState f s = .stopping, .busy, 0) ]
    (fun _ =>
      let s1 := if f = 2 then enableLinks s else s
      if fnState f s = .running then okWith [] s1 else (setFn f .starting s1, .later)) s

/-- FUNC_STOP (R187, Table 5.5). -/
def doFuncStop (c : Cmd) (_r : Nat × Nat) (s : State) : State × Answer :=
  let f := fieldN (payloadOf c) 0 1
  checks [ (0x0A < f, .inval, 8), (fnState f s = .starting || fnState f s = .stopping, .busy, 0) ]
    (fun _ => if fnState f s = .stopped then okWith [] s else (fnStopping f (setFn f .stopping s), .later)) s

end Sys2Proof.Machine
end

