-- ==== Sys2Proof/Machine/Session.lean ====
section
/-! DEFINITION. Device and session commands (spec/07_command_catalogue.md, Table 7.4; spec/06_mailbox_transport.md, R149, R153 - R155,
R185, R186; the records that STATS_READ returns). -/

namespace Sys2Proof.Machine

/-! ### READINESS and IDENTITY -/

/-- The 16 bytes of READINESS (Table 7.4, R624). -/
def readinessBytes (s : State) : List Byte :=
  let flags : Nat := b2n s.rl.orphaned + 2 * b2n s.time.synced + 4 * b2n ((shownSticky s).getLsbD 0x185)
  leBytes 1 s.dev.mode.code ++ leBytes 1 (s.dev.stage + 128 * b2n s.dev.fail) ++ leBytes 1 s.dev.fault ++ leBytes 1 s.dev.item ++
  leBytes 4 s.dev.heartbeat.toNat ++ leBytes 1 (devNum s) ++ leBytes 1 flags ++ List.replicate 6 0

/-- One die's 12 bytes of IDENTITY. -/
def dieBytes (d : Nat) (s : State) : List Byte :=
  let f := dieShown d s
  slice f.lot 0 6 ++ leBytes 1 (f.wafer % 32) ++ leBytes 1 f.x ++ leBytes 1 f.y ++ leBytes 1 d ++ [0, 0]

/-- The 64 bytes of IDENTITY (Table 7.4, R120). -/
def identityBytes (s : State) : List Byte :=
  let caps := readIdentity 8 s
  let fw := readIdentity 0xC s
  leBytes 4 (readIdentity 0 s) ++ leBytes 1 (bitsN (readIdentity 4 s) 0 8) ++ leBytes 1 3 ++ leBytes 2 (caps % 65536) ++
  leBytes 2 (caps / 65536) ++ leBytes 1 (bitsN fw 0 8) ++ leBytes 1 (bitsN fw 8 8) ++ leBytes 1 (bitsN fw 16 8) ++
  leBytes 1 (bitsN fw 24 1) ++ leBytes 1 (devNum s) ++ leBytes 1 0 ++ leBytes 8 (serialShown s) ++
  slice (dieBytes 0 s ++ dieBytes 1 s ++ dieBytes 2 s) 0 40

/-- READINESS. -/
def doReadiness (_c : Cmd) (_r : Nat × Nat) (s : State) : State × Answer := okWith (readinessBytes s) s

/-- IDENTITY. -/
def doIdentity (_c : Cmd) (_r : Nat × Nat) (s : State) : State × Answer := okWith (identityBytes s) s

/-! ### Sessions -/

/-- The class of a mailbox (Table 6.1). -/
def mbClass (m : Nat) (s : State) : Cls :=
  if m = 16 || m = 17 then .mgmt
  else if m = 18 then (if s.sec.lock = .opened then .admin else .console)
  else if m = 19 || mbFn m s = 0 then .admin
  else .tenant

/-- The number of a class in the result of SESSION_OPEN. -/
def clsCode : Cls → Nat
  | .admin => 0 | .tenant => 1 | .mgmt => 2 | .console => 3

/-- The tenant domain bound to the VF of mailbox m. -/
def boundTenant (m : Nat) (s : State) : Option Nat := if mbClass m s = .tenant then Tab.get s.host.bound m else none

/-- The longest Shroud operation timeout configured on the device, in microseconds (R149). -/
def longestShrTimeout (s : State) : Nat := s.shr.conns.foldl (fun n c => if c.2.st = .free || c.2.sys then n else max n c.2.timeout) 0

/-- SESSION_OPEN (R149, R153, R457); step 2 has judged R154. -/
def doSessionOpen (c : Cmd) (_r : Nat × Nat) (s : State) : State × Answer :=
  let t := fieldN (payloadOf c) 0 4
  let ms := if t = 0 then 1000 else t
  let cls := mbClass c.mb s
  let tenant := boundTenant c.mb s
  let flr := (c.mb < 16 || c.mb = 19) && (Tab.get s.pcie.fns (mbReq c.mb s)).flr
  checks
    [ (decide (ms < 10) || decide (60000 < ms), .inval, 8),
      (flr, .again, 0),
      (decide (ms * 1000 < 8 * longestShrTimeout s), .inval, 8),
      ((sessOf c s).isSome, .busy, 0) ]
    (fun _ =>
      let id := s.host.nextSession
      let x : Session := { id := id, cls := cls, tenant := tenant, timeoutMs := ms }
      let s1 := modMbx c.mb (fun m => { m with session := some x }) s
      okWith (leBytes 2 (tenant.getD 0xFFFF) ++ leBytes 1 (clsCode cls) ++ leBytes 1 0 ++ leBytes 4 id)
        { s1 with host := { s1.host with nextSession := if id = 0xFFFFFFFF then 1 else id + 1 } }) s

/-- SESSION_CLOSE (Table 6.5). -/
def doSessionClose (c : Cmd) (r : Nat × Nat) (s : State) : State × Answer :=
  let fl := fieldN (payloadOf c) 0 1
  checks
    [ (2 ≤ fl, .inval, 8),
      (fl = 0 && s.host.cmds.any (fun o => o.cmd.mb = c.mb && o.id ≠ r.2), .busy, 0) ]
    (fun _ => okWith [] (endSession c.mb (if fl = 1 then postLast r (forceStale c.mb (some r.2) s) else s))) s

/-- VF_BIND (R154). -/
def doVfBind (c : Cmd) (_r : Nat × Nat) (s : State) : State × Answer :=
  let p := payloadOf c
  let vf := fieldN p 0 1
  let op := fieldN p 1 1
  let t := fieldN p 2 2
  let sess : Bool := (Tab.get s.host.mbx vf).session.isSome && mbFn vf s = vf
  checks
    [ (vf = 0 || 15 < vf, .inval, 8), (1 < op, .inval, 9), (op = 0 && 256 ≤ t, .inval, 10),
      (op = 0 && (Tab.get s.sec.hbm t).isNone, .noent, 0),
      (sess || (op = 0 && (Tab.get s.host.bound vf).isSome), .busy, 0) ]
    (fun _ => okWith [] { s with host := { s.host with bound := Tab.put s.host.bound vf (if op = 0 then some t else none) } }) s

/-! ### DEVICE_RESET -/

/-- Post whatever is known, on every transport, ring by ring until none is left or the ring is full. -/
def postAll (s : State) : State :=
  postDirects ((List.range 16).foldl (fun s m => postRingAll m s) s)

/-- Every outstanding command but one ends with FAULT, one whose result is known and not yet posted among them (R89, R186). -/
def faultOthers (r : Nat × Nat) (s : State) : State :=
  { s with host := { s.host with cmds := s.host.cmds.map (fun o =>
      if !isRef r.1 r.2 o then { o with prog := .known (mkCpl o .fault 0 []) } else o) } }

/-- DEVICE_RESET (R186): FAULT for the others, OK for itself, then the warm reset. -/
def doDeviceReset (c : Cmd) (r : Nat × Nat) (s : State) : State × Answer :=
  checks [ (fieldN (payloadOf c) 0 1 ≠ 1, .inval, 8) ]
    (fun _ => (warmReset (postAll (finish r .ok 0 [] (postAll (faultOthers r s)))), .later)) s

/-! ### STATS_READ -/

/-- The mailbox record (block 0). -/
def mbxStats (m : Mbx) : List Byte :=
  leBytes 8 m.fetched ++ leBytes 8 m.completed ++ leBytes 4 m.lateCpl ++ leBytes 4 m.cplDiscard ++ leBytes 4 m.timedOut ++ leBytes 4 m.cqFullEv

def mbxClear (m : Mbx) : Mbx := { m with fetched := 0, completed := 0, lateCpl := 0, cplDiscard := 0, timedOut := 0, cqFullEv := 0 }

/-- The port record (Table 17.4) and the policer record (Table 17.5). -/
def trimStats (p : Nat) (s : State) : List Byte :=
  let q (k : Nat) : TrimQ := queueOf p k s
  (List.range 8).flatMap (fun k => leBytes 8 (q k).txBytes) ++ (List.range 8).flatMap (fun k => leBytes 4 (q k).txUnits) ++
  (List.range 8).flatMap (fun k => leBytes 4 (q k).holdUs)

def policerStats (p : Policer) : List Byte :=
  leBytes 8 p.inBytes ++ leBytes 8 p.oopBytes ++ leBytes 4 p.oopPkts ++ leBytes 4 p.dropped ++ List.replicate 8 0

/-- The record of an Ethernet port, whose fields no chapter gives: 64 bytes of free values. -/
def drawBytes : Nat → State → List Byte × State
  | 0, s => ([], s)
  | n + 1, s =>
    let (v, s1) := drawFree s
    let (bs, s2) := drawBytes n s1
    (leBytes 8 v.toNat ++ bs, s2)

/-- The record of a block and index. -/
def statsRecord (block idx : Nat) (s : State) : List Byte × State :=
  match block with
  | 0 => (mbxStats (Tab.get s.host.mbx idx), s)
  | 1 => (furlStats s, s)
  | 2 => (connStats idx s, s)
  | 3 => (if idx < 14 then trimStats idx s else policerStats (Tab.get s.trim.policers (idx - 256)), s)
  | 4 => (frameStats (fctxOf idx s), s)
  | 5 => (nvmeStats idx s, s)
  | 6 => (stayStats idx s, s)
  | _ => drawBytes 8 s

/-- CLEAR of a block and index (R172). -/
def statsClear (block idx : Nat) (s : State) : State :=
  match block with
  | 0 => modMbx idx mbxClear s
  | 1 => modFurl (fun u => { u with stats := [] }) s
  | 2 => { s with shr := { s.shr with conns := Tab.mod s.shr.conns idx (fun c => { c with cnt := [] }) } }
  | 3 =>
    if idx < 14 then (List.range 8).foldl (fun s k => modQ idx k (fun q => { q with txBytes := 0, txUnits := 0, holdUs := 0 }) s) s
    else modTrim (fun t => { t with policers := Tab.mod t.policers (idx - 256) (fun p => { p with inBytes := 0, oopBytes := 0, oopPkts := 0, dropped := 0 }) }) s
  | 4 => modFctx idx frameStatsClear s
  | 5 => nvmeClear idx s
  | 6 => { s with stay := { s.stay with links := Tab.mod s.stay.links idx (fun l => { l with cnt := [] }) } }
  | _ => modEth idx (fun e => { e with discarded := 0 }) s

/-- The block has the index, and the object behind it exists. A FREE connection has its record too (R422), a system connection none. -/
def statsFound (block idx : Nat) (s : State) : Bool :=
  match block with
  | 0 => idx < 20
  | 1 => true
  | 2 => idx < 16384 && !(Tab.get s.shr.conns idx).sys
  | 3 => idx < 14 || (256 ≤ idx && idx < 512)
  | 4 => idx < 256 && (fctxOf idx s).live
  | 5 => idx < 2
  | 6 => idx < 12
  | _ => idx < 2

/-- A TENANT session may read the object. -/
def statsOwn (c : Cmd) (block idx : Nat) (s : State) : Bool :=
  match block with
  | 0 => idx = c.mb
  | 2 => (Tab.get s.shr.conns idx).fn = mbFn c.mb s
  | _ => (fctxOf idx s).fn = mbFn c.mb s

/-- STATS_READ. -/
def doStatsRead (c : Cmd) (_r : Nat × Nat) (s : State) : State × Answer :=
  let p := payloadOf c
  let block := fieldN p 8 1
  let fl := fieldN p 9 1
  let idx := fieldN p 10 2
  checks
    [ (7 < block, .inval, 16), (1 < fl, .inval, 17),
      (!statsFound block idx s, .noent, 0), (isTenant c s && !statsOwn c block idx s, .noent, 0) ]
    (fun _ =>
      let (rec, s1) := statsRecord block idx s
      okWith rec (if fl = 1 then statsClear block idx s1 else s1)) s

end Sys2Proof.Machine
end

