-- ==== Sys2Proof/Machine/Catalogue.lean ====
section
/-! DEFINITION. The command catalogue (spec/07_command_catalogue.md): which opcodes there are, who may issue each, the payload length
of its row, the checks that come before a row's own (Table 7.2), the objects a command acts on (R147), and what runs it. -/

namespace Sys2Proof.Machine

/-! ### Rows -/

/-- The classes that may issue an opcode, one bit each for A, T, M, C (Tables 7.4 - 7.19); 0 for an opcode that is no row. -/
def rowClasses (op : Nat) : Nat :=
  if op = 0x0001 || op = 0x0002 || op = 0x0003 || op = 0x0004 || op = 0x0009 || op = 0x0B02 then 0b1111
  else if op = 0x0005 || op = 0x000C || op = 0x0205 || op = 0x0504 || op = 0x0505 || op = 0x0606 || (0x0701 ≤ op && op ≤ 0x0703) ||
    (0x0901 ≤ op && op ≤ 0x0904) || op = 0x0C01 || op = 0x0C02 then 0b0001
  else if op = 0x0006 || op = 0x0007 || op = 0x0008 || op = 0x000A || op = 0x0501 || op = 0x0905 || op = 0x0A01 || op = 0x0A03 ||
    op = 0x0B01 || op = 0x0C03 || op = 0x0C04 || (0x0D01 ≤ op && op ≤ 0x0D04) || op = 0x0E02 || op = 0x0E03 || op = 0x0E05 || op = 0x0E06 then 0b0101
  else if op = 0x000B || op = 0x0A02 || op = 0x0E01 || op = 0x0E04 || op = 0x0E08 then 0b1101
  else if op = 0x0C05 || op = 0x0C06 || op = 0x0C07 then 0b1001
  else if op = 0x0103 then 0b0111
  else if op = 0x0E07 then 0b0100
  else if op = 0x0101 || op = 0x0102 || (0x0201 ≤ op && op ≤ 0x0204) || (0x0301 ≤ op && op ≤ 0x0303) || op = 0x0401 || op = 0x0402 ||
    op = 0x0502 || op = 0x0503 || op = 0x0506 || (0x0601 ≤ op && op ≤ 0x0605) || (0x0801 ≤ op && op ≤ 0x0805) then 0b0011
  else 0

/-- The bit of a class. -/
def clsBit (x : Cls) : Nat := clsCode x

/-- The class may issue the opcode. -/
def mayIssue (op : Nat) (x : Cls) : Bool := bitN (rowClasses op) (clsBit x)

/-- The payload lengths of a row: one past the last byte its row names (R165; log entry 17). -/
def rowLens (op : Nat) : List Nat :=
  match op with
  | 0x0001 => [0] | 0x0002 => [8] | 0x0003 => [4] | 0x0004 => [1] | 0x0005 => [4] | 0x0006 => [1] | 0x0007 => [1] | 0x0008 => [1]
  | 0x0009 => [12] | 0x000A => [0, 16] | 0x000B => [1] | 0x000C => [56]
  | 0x0101 => [10] | 0x0102 => [5] | 0x0103 => [4]
  | 0x0201 => [11] | 0x0202 => [4] | 0x0203 => [29] | 0x0204 => [8] | 0x0205 => [12]
  | 0x0301 => [27] | 0x0302 => [4] | 0x0303 => [32]
  | 0x0401 => [44] | 0x0402 => [4]
  | 0x0501 => [36] | 0x0502 => [4] | 0x0503 => [4] | 0x0504 => [8] | 0x0505 => [3] | 0x0506 => [24]
  | 0x0601 => [32] | 0x0602 => [5] | 0x0603 => [8] | 0x0604 => [26] | 0x0605 => [4] | 0x0606 => [16]
  | 0x0701 => [12] | 0x0702 => [12] | 0x0703 => [12]
  | 0x0801 => [24] | 0x0802 => [4] | 0x0803 => [8] | 0x0804 => [16] | 0x0805 => [20]
  | 0x0901 => [14] | 0x0902 => [8] | 0x0903 => [6] | 0x0904 => [6] | 0x0905 => [0]
  | 0x0A01 => [3] | 0x0A02 => [8] | 0x0A03 => [3] | 0x0B01 => [8] | 0x0B02 => [0]
  | 0x0C01 => [112] | 0x0C02 => [8] | 0x0C03 => [20] | 0x0C04 => [24] | 0x0C05 => [0] | 0x0C06 => [20, 68] | 0x0C07 => [0]
  | 0x0D01 => [24] | 0x0D02 => [12] | 0x0D03 => [4] | 0x0D04 => [4]
  | 0x0E01 => [10] | 0x0E02 => [8] | 0x0E03 => [3] | 0x0E04 => [4] | 0x0E05 => [12] | 0x0E06 => [12] | 0x0E07 => [41] | 0x0E08 => [0]
  | _ => []

/-- The payload length fits the row: two rows carry their data in the message on mailboxes 16 - 18. -/
def rowLenOk (c : Cmd) : Bool :=
  if 16 ≤ c.mb && c.mb ≤ 18 && c.op = 0x0C03 then 20 ≤ c.plen
  else if 16 ≤ c.mb && c.mb ≤ 18 && c.op = 0x0E06 then 16 ≤ c.plen && c.plen = 16 + fieldN c.body 10 2
  else (rowLens c.op).contains c.plen

/-- The inline payload reaches past byte n, so that step 2 can judge what stands there. -/
def inlineTo (c : Cmd) (n : Nat) : Bool := !bitN c.flags 2 && n ≤ c.plen

/-- Step 2: the row's restriction on the mailbox or on the object named does not let the command in. -/
def rowPerm (c : Cmd) (x : Cls) (s : State) : Bool :=
  let p := c.body
  if c.op = 0x0003 then x = .tenant && (boundTenant c.mb s).isNone
  else if c.op = 0x0006 then !(c.mb = 16 || (c.mb < 16 && mbFn c.mb s = 0))
  else if c.op = 0x000C then true
  else if c.op = 0x0E07 then !(c.mb = 16)
  else if c.op = 0x0009 then
    inlineTo c 10 && ((x = .console && bitN (fieldN p 9 1) 0) ||
      (x = .tenant && !(fieldN p 8 1 = 0 || fieldN p 8 1 = 2 || fieldN p 8 1 = 4) && fieldN p 8 1 ≤ 7))
  else if c.op = 0x000B then inlineTo c 1 && x = .console && bitN (fieldN p 0 1) 0
  else if c.op = 0x0301 then inlineTo c 27 && x = .tenant && bitN (fieldN p 26 1) 0
  else if c.op = 0x0E06 then inlineTo c 10 && fieldN p 8 2 < 0x10
  else false

/-- READINESS, IDENTITY, SESSION_OPEN and HOST_LOAD need no session (R153). -/
def needsSession (op : Nat) : Bool := !(op = 1 || op = 2 || op = 3 || op = 0xC)

/-- Steps 1 to 3c of Table 7.2, but for the fields of a row's own. `dup`: the TAG was in use at the fetch (R136). -/
def headChecks (c : Cmd) (dup : Bool) (s : State) : List (Bool × Status × Nat) :=
  let sess := sessOf c s
  let cls := match sess with | some x => x.cls | none => mbClass c.mb s
  let ind := bitN c.flags 2
  let ring : Bool := c.mb < 16 || c.mb = 19
  let rbuf := fieldN (payloadOf c) 0 8
  [ (c.version ≠ 3 || rowClasses c.op = 0 || (c.op = 0x0401 && c.mb = 19), .unsup, 0),
    ((needsSession c.op && sess.isNone) || !mayIssue c.op cls || rowPerm c cls s, .perm, 0),
    (8 ≤ c.flags || (ind && !ring), .inval, 2),
    (if ind then c.plen < 57 || 65535 < c.plen else (if ring then 56 else 1016) < c.plen, .inval, 6),
    (!rowLenOk c, .inval, 6),
    (ind && fieldN c.body 0 8 % 8 ≠ 0, .inval, 8),
    ((match c.msgLen with | some n => c.mb = 16 && n ≠ 8 + c.plen | none => false), .inval, 6),
    (dup, .inval, 4),
    (ind && (readHost (mbReq c.mb s) c.rd.indirect s).isNone, .fault, 1),
    (ind && !zeroAt c.body 8 48, .inval, 16),
    (hasRbuf c.op && (if ring then rbuf = 0 else rbuf ≠ 0), .inval, 8) ]

/-- HOST_LOAD is Masthead's on no mailbox (R161): step 2 has answered it. -/
def doHostLoad (_c : Cmd) (_r : Nat × Nat) (s : State) : State × Answer := (s, .now .perm 0 [])

/-- What carries out an opcode once the common checks have passed. -/
def doRow (c : Cmd) (r : Nat × Nat) (s : State) : State × Answer :=
  match c.op with
  | 0x0001 => doReadiness c r s | 0x0002 => doIdentity c r s | 0x0003 => doSessionOpen c r s | 0x0004 => doSessionClose c r s
  | 0x0005 => doVfBind c r s | 0x0006 => doDeviceReset c r s | 0x0007 => doFuncStart c r s | 0x0008 => doFuncStop c r s
  | 0x0009 => doStatsRead c r s | 0x000A => doPowerPolicy c r s | 0x000B => doPowerStatus c r s | 0x000C => doHostLoad c r s
  | 0x0101 => doCtxAlloc c r s | 0x0102 => doCtxFree c r s | 0x0103 => doCtxQuery c r s
  | 0x0201 => doMemAlloc c r s | 0x0202 => doMemFree c r s | 0x0203 => doMemCopy c r s | 0x0204 => doApertureSet c r s
  | 0x0205 => doNvmeCfg c r s
  | 0x0301 => doModelLoad c r s | 0x0302 => doModelUnload c r s | 0x0303 => doWeightsLoad c r s
  | 0x0401 => doSubmit c r s | 0x0402 => doSubmitCancel c r s
  | 0x0501 => doFurlDomainCfg c r s | 0x0502 => doFurlPin c r s | 0x0503 => doFurlUnpin c r s | 0x0504 => doFurlEvictCfg c r s
  | 0x0505 => doFurlPurge c r s | 0x0506 => doFurlProbe c r s
  | 0x0601 => doShrConnOpen c r s | 0x0602 => doShrConnClose c r s | 0x0603 => doShrConnTimeout c r s | 0x0604 => doShrMap c r s
  | 0x0605 => doShrUnmap c r s | 0x0606 => doShrCcCfg c r s
  | 0x0701 => doTrimMode c r s | 0x0702 => doTrimShaper c r s | 0x0703 => doTrimPolicer c r s
  | 0x0801 => doFrameCtxCfg c r s | 0x0802 => doFrameCtxFree c r s | 0x0803 => doFrameRc c r s | 0x0804 => doFrameRoi c r s
  | 0x0805 => doFrameSubmit c r s
  | 0x0901 => doReefCfg c r s | 0x0902 => doReefSnapshot c r s | 0x0903 => doReefEvacuate c r s | 0x0904 => doReefRestore c r s
  | 0x0905 => doReefStatus c r s
  | 0x0A01 => doTtSeverity c r s | 0x0A02 => doTtRead c r s | 0x0A03 => doTtClear c r s
  | 0x0B01 => doTimeSource c r s | 0x0B02 => doTimeStatus c r s
  | 0x0C01 => doSecKeySet c r s | 0x0C02 => doSecKeyDestroy c r s | 0x0C03 => doFwUpdate c r s | 0x0C04 => doMeasure c r s
  | 0x0C05 => doDebugChallenge c r s | 0x0C06 => doDebugUnlock c r s | 0x0C07 => doDebugLock c r s
  | 0x0D01 => doPlbWindow c r s | 0x0D02 => doPlbAccess c r s | 0x0D03 => doPlbIrqRoute c r s | 0x0D04 => doPlbArbCfg c r s
  | 0x0E01 => doSensorRead c r s | 0x0E02 => doRatlineSweep c r s | 0x0E03 => doGpioCfg c r s | 0x0E04 => doConsoleCfg c r s
  | 0x0E05 => doPstoreRead c r s | 0x0E06 => doPstoreWrite c r s | 0x0E07 => doRackEpoch c r s | 0x0E08 => doRackStatus c r s
  | _ => (s, .now .unsup 0 [])

/-! ### The objects a command acts on (R147) -/

/-- A kind of object, and the handle or number that names one. -/
inductive ObjKind where
  | ctx | region | model | pin | conn | map | fctx | frame | snap | pdom | tenant | keySlot | vf | plbWin | irqLine | record | func
  | policy | lock | rackView | fwSlot | console | severity
  deriving DecidableEq, Repr, Inhabited

/-- The objects of a command. -/
def objsOf (c : Cmd) (s : State) : List (ObjKind × Nat) :=
  let p := payloadOf c
  let h (o : Nat) : Nat := fieldN p o 4
  let n (o : Nat) : Nat := fieldN p o 2
  match c.op with
  | 0x0005 => [(.vf, fieldN p 0 1), (.tenant, n 2)]
  | 0x0007 => [(.func, fieldN p 0 1)]
  | 0x0008 => [(.func, fieldN p 0 1)]
  | 0x0009 =>
    let i := n 10
    if fieldN p 8 1 = 2 then [(.conn, handleOf i (Tab.get s.shr.conns i).gen)]
    else if fieldN p 8 1 = 4 then [(.fctx, handleOf i (fctxOf i s).gen)] else []
  | 0x000A => if c.plen = 16 then [(.policy, 0)] else []
  | 0x0101 => [(.model, h 0), (.tenant, n 4), (.pdom, n 6)]
  | 0x0102 => [(.ctx, h 0)]
  | 0x0103 => [(.ctx, h 0)]
  | 0x0201 => [(.tenant, n 8)]
  | 0x0202 => [(.region, h 0)]
  | 0x0203 => [(.region, h 24)]
  | 0x0205 => [(.func, 8)]
  | 0x0301 => [(.region, h 12), (.tenant, n 24)]
  | 0x0302 => [(.model, h 0)]
  | 0x0303 => [(.model, h 0), (.conn, h 28)]
  | 0x0401 => (.ctx, h 0) :: (if bitN (fieldN p 4 1) 1 then [(.frame, h 12)] else [])
  | 0x0402 => [(.ctx, h 0)]
  | 0x0501 => [(.pdom, n 0)]
  | 0x0502 => [(.ctx, h 0)]
  | 0x0503 => [(.pin, h 0)]
  | 0x0504 => [(.func, 5)]
  | 0x0505 => [(.pdom, n 0)]
  | 0x0506 => [(.model, h 0), (.pdom, n 4)]
  | 0x0601 => [(.tenant, n 2), (.keySlot, h 28)]
  | 0x0602 => [(.conn, h 0)]
  | 0x0603 => [(.conn, h 0), (.func, 3)]
  | 0x0604 => [(.conn, h 0), (.region, h 4)]
  | 0x0605 => [(.map, h 0)]
  | 0x0606 => [(.func, 3)]
  | 0x0701 => [(.func, 4)]
  | 0x0702 => [(.func, 4)]
  | 0x0703 => [(.tenant, n 0), (.func, 4)]
  | 0x0801 => [(.region, h 16), (.tenant, n 22)]
  | 0x0802 => [(.fctx, h 0)]
  | 0x0803 => [(.fctx, h 0), (.func, 6)]
  | 0x0804 => [(.fctx, h 0), (.func, 6)]
  | 0x0805 => [(.fctx, h 0)]
  | 0x0901 => if h 4 = 0 then [(.func, 9)] else [(.func, 9), (.conn, h 4)]
  | 0x0902 => if fieldN p 0 1 = 1 then [(.ctx, h 4)] else []
  | 0x0903 => [(.snap, h 0)]
  | 0x0904 => [(.snap, h 0)]
  | 0x0A01 => [(.severity, 0)]
  | 0x0B01 => [(.func, 10)]
  | 0x0C01 => (.tenant, n 0) :: (if fieldN p 2 1 = 1 then [(.keySlot, h 4)] else [])
  | 0x0C02 => (.tenant, n 0) :: (if fieldN p 2 1 = 1 then [(.keySlot, h 4)] else [])
  | 0x0C03 => [(.fwSlot, 0)]
  | 0x0C05 => [(.lock, 0)]
  | 0x0C06 => [(.lock, 0)]
  | 0x0C07 => [(.lock, 0)]
  | 0x0D01 => [(.plbWin, 8 * fieldN p 0 1 + fieldN p 1 1), (.func, 7)]
  | 0x0D03 => [(.irqLine, fieldN p 0 1), (.func, 7)]
  | 0x0D04 => [(.func, 7)]
  | 0x0E04 => [(.console, 0)]
  | 0x0E05 => [(.record, n 8)]
  | 0x0E06 => [(.record, n 8)]
  | 0x0E07 => [(.rackView, 0)]
  | _ => []

/-- The host buffer that a command reads, for the translation cache. -/
def sourceAddr (c : Cmd) : Option Nat :=
  let p := payloadOf c
  match c.op with
  | 0x0203 => if fieldN p 28 1 = 0 then some (fieldN p 0 8) else none
  | 0x0301 => some (fieldN p 0 8)
  | 0x0303 => if fieldN p 24 1 = 0 then some (fieldN p 8 8) else none
  | 0x0401 => some (fieldN p 16 8)
  | 0x0506 => some (fieldN p 16 8)
  | 0x0805 => if bitN (fieldN p 4 1) 0 then none else some (fieldN p 8 8)
  | 0x0C03 => some (fieldN p 0 8)
  | 0x0E06 => some (fieldN p 0 8)
  | _ => none

end Sys2Proof.Machine
end

