-- ==== Sys2Proof/Machine/Engine.lean ====
section
/-! DEFINITION. Masthead: fetching, starting and completing commands (spec/06_mailbox_transport.md, R136, R140, R146 - R148,
R150, R151; Table 7.2), and the work that follows every step. -/

namespace Sys2Proof.Machine

/-- Masthead runs: it serves commands and CCLK runs. -/
def mhRuns (s : State) : Bool := serving s && !domainLost 9 s

/-! ### Fetching -/

/-- The outstanding commands of a mailbox. -/
def outCount (m : Nat) (s : State) : Nat := (s.host.cmds.filter (fun o => o.cmd.mb = m)).length

/-- A command is fetched: SEQ, FETCHED, and the judgement of its TAG (R136, R141, R146). -/
def accept (c : Cmd) (prog : Progress) (s : State) : State :=
  let m := Tab.get s.host.mbx c.mb
  let dup := s.host.cmds.any (fun o => o.cmd.mb = c.mb && o.cmd.tag = c.tag)
  let o : Outst := { cmd := c, seq := m.nextSeq, id := s.host.nextId, prog := prog, dup := dup, at_ := s.time.mono, furlUp := fnRunning 0x05 s }
  let s1 := modMbx c.mb (fun m => { m with nextSeq := wrapInc 32 m.nextSeq, fetched := m.fetched + 1 }) s
  { s1 with host := { s1.host with cmds := s1.host.cmds ++ [o], nextId := s1.host.nextId + 1 } }

/-! ### Starting (R147) -/

/-- A request in progress on a context that an evacuation has frozen, or a command on such a context, waits for its answer. -/
def frozenWait (o : Outst) (s : State) : Bool :=
  (o.cmd.op = 0x0401 || o.cmd.op = 0x0402 || o.cmd.op = 0x0102) &&
    (let x := ctxOf (fieldN (payloadOf o.cmd) 0 2) s; x.live && x.frozen && x.gen = fieldN (payloadOf o.cmd) 2 2)

/-- A MEM_COPY waits while the clock of a memory controller that it reads or writes is lost (R82, R83). -/
def copyWait (o : Outst) (s : State) : Bool :=
  let b := payloadOf o.cmd
  o.cmd.op = 0x0203 && ((fieldN b 28 1 ≠ 0 && !rangeRuns (fieldN b 0 8) (fieldN b 16 8) s) ||
    (fieldN b 28 1 ≠ 1 && !rangeRuns (fieldN b 8 8) (fieldN b 16 8) s))

/-- The command may start, given those fetched before it. -/
def startable (before : List Outst) (o : Outst) (s : State) : Bool :=
  let mine := before.filter (fun p => p.cmd.mb = o.cmd.mb)
  let objs := objsOf o.cmd s
  o.prog = .queued && mine.all (fun p => p.prog ≠ .queued && !bitN p.cmd.flags 0) && (!bitN o.cmd.flags 0 || mine.isEmpty) &&
    before.all (fun p => p.accepted || (objsOf p.cmd s).all (fun x => !objs.contains x)) && !frozenWait o s && !copyWait o s

/-- The first command, in fetch order, that may start. -/
def nextStart : List Outst → List Outst → State → Option Outst
  | _, [], _ => none
  | before, o :: os, s => if startable before o s then some o else nextStart (before ++ [o]) os s

/-- Change one outstanding command. -/
def modCmd (r : Nat × Nat) (f : Outst → Outst) (s : State) : State :=
  { s with host := { s.host with cmds := s.host.cmds.map (fun o => if isRef r.1 r.2 o then f o else o) } }

/-- Start a command: the checks of Table 7.2, its row, and its result or the work that will give it. -/
def startCmd (o : Outst) (s : State) : State :=
  let c := o.cmd
  let r : Nat × Nat := (c.mb, o.id)
  let s1 := modCmd r (fun p => { p with prog := .running }) s
  let s2 := match sourceAddr c with | some a => if c.mb < 16 || c.mb = 19 then noteAts (mbReq c.mb s1) a s1 else s1 | none => s1
  let res := checks (headChecks c o.dup s2) (fun _ => doRow c r s2) s2
  match res.2 with
  | .now st d bs =>
    let s3 := finish r st d bs res.1
    if st = .ok && (c.op = 0x0501 || c.op = 0x0606) then digestChanged s3 else s3
  | .later => if c.op = 0x0401 then modCmd r (fun p => { p with accepted := true }) res.1 else res.1

/-- Start what may start, one after the other, and post what has no ring. -/
def startAll : Nat → State → State
  | 0, s => s
  | n + 1, s =>
    match nextStart [] s.host.cmds s with
    | some o => startAll n (postDirects (startCmd o s))
    | none => s

/-! ### What follows every step -/

/-- The retired pages that the persistent store holds (R311): written again when they have changed. -/
def retireSweep (s : State) : State :=
  let ps := ((s.mem.pages.filter (fun p => p.2.use = .retired && !p.2.unrecorded)).map (·.1)).take 1024
  if ps = s.mem.listed then s
  else psFirmware 0 (ps.flatMap (leBytes 4)) { s with mem := { s.mem with listed := ps } }

/-- The conditions that Masthead watches and acts on as soon as they hold. -/
def sweeps (s : State) : State :=
  retireSweep (dyingSweep (announceSweep (memberSweep (restoresDone (confirmAll (probesDone (frameFaults (furlSettle (lostBlocks (loadsDone (cowSweep (lookupsFailed (endDispatches s)))))))))))))

/-- What Masthead does after a step: completions without rings are posted, commands start, conditions that hold are acted on. -/
def mastheadSettles (s : State) : State :=
  if mhRuns s then
    let s1 := postDirects s
    let s2 := sweeps (startAll (s1.host.cmds.length + 1) s1)
    let s3 := postDirects s2
    flrSweep (startAll (s3.host.cmds.length + 1) s3)
  else flrSweep (dyingSweep s)

/-- What follows a step. Stay follows last: it gives back the packets of VCs that are no longer ready (R368) and tells the peers of a
change in its mask or readiness (R372). -/
def settle (s : State) : State := linkMapSweep (holdSweep (mastheadSettles s))

/-! ### Ring mailboxes -/

/-- A command as its 64-byte entry or its message carries it (Table 6.2). -/
def cmdOfBytes (mb idx : Nat) (b : List Byte) (rd : Reads) : Cmd :=
  { mb := mb, op := fieldN b 0 2, flags := fieldN b 2 1, version := fieldN b 3 1, tag := fieldN b 4 2, plen := fieldN b 6 2
    sqIdx := idx, body := b.drop 8, rd := rd }

/-- The ring of mailbox m can be fetched from (R142, R146, R459). -/
def canFetch (m : Nat) (s : State) : Bool :=
  let p := Tab.get s.host.pages m
  m < 16 && mhRuns s && p.st = .running && !p.cqFull && !(Tab.get s.pcie.fns (mbReq m s)).d3hot && outCount m s < 256

/-- Entries fetched one after the other; SQ_HEAD moves past each. -/
def fetchAll (m : Nat) : List Entry → State → State
  | [], s => s
  | e :: es, s =>
    let p := Tab.get s.host.pages m
    if !canFetch m s || p.sqHead = p.sqTail then s
    else
      let c := cmdOfBytes m p.sqHead (slice e.bytes 0 64) e.rd
      let n := 2 ^ bitsN p.sizes.toNat 0 4
      fetchAll m es (modPage m (fun p => { p with sqHead := (p.sqHead + 1) % n }) (accept c .queued s))

/-- MAILBOX_FETCH (R146): a turn of up to 8 entries, or a failed ring read (R145). -/
def mailboxFetch (m : Nat) (es : Option (List Entry)) (s : State) : State :=
  let p := Tab.get s.host.pages m
  if !canFetch m s || p.sqHead = p.sqTail then s
  else if !canIssue (mbReq m s) s then ringFault m s
  else match es with
    | none => ringFault m s
    | some l => fetchAll m (l.take 8) (noteAts (mbReq m s) (p.sqBase.toNat + 64 * p.sqHead) s)

/-! ### Timeouts (R150, R151) -/

/-- COMMAND_TIMEOUT: TIMEDOUT for a command whose result is not known; a request has no command timeout (R174). -/
def commandTimeout (m seq : Nat) (s : State) : State :=
  match s.host.cmds.find? (fun o => o.cmd.mb = m && o.seq = seq && o.known?.isNone && o.cmd.op ≠ 0x0401) with
  | none => s
  | some o =>
    if !mhRuns s then s
    else
      let r : Nat × Nat := (m, o.id)
      let s1 := modCmd r (fun p => { p with prog := .known (mkCpl o .timedout 0 []) }) s
      let s2 : State := if o.prog = .running then { s1 with host := { s1.host with retired := s1.host.retired ++ [(r, seq)] } } else s1
      raise 0x13B (modMbx m (fun x => { x with timedOut := satInc 32 x.timedOut }) (openTimedOut r s2))

/-- LATE_RESULT: the result of a retired SEQ is discarded and counted. -/
def lateResult (m seq : Nat) (s : State) : State :=
  match s.host.retired.find? (fun x => x.1.1 = m && x.2 = seq) with
  | some x =>
    modMbx m (fun y => { y with lateCpl := satInc 32 y.lateCpl })
      { s with host := { s.host with retired := s.host.retired.filter (fun y => y.1 ≠ x.1) } }
  | none => s

/-! ### Commands by transport -/

/-- A command of a ring mailbox, as a fetch hands it over. -/
def ringCmd (c : Cmd) (s : State) : State := if canFetch c.mb s then settle (accept c .queued s) else s

/-- A command in the register buffer of mailbox 17 (R159). -/
def plbCmd (c : Cmd) (s : State) : State :=
  if !mhRuns s || s.host.plb.busy then s
  else settle (accept c .queued { s with host := { s.host with plb := { s.host.plb with busy := true } } })

/-- A command of the console (R159): one at a time, none in BOOT and SAFE. -/
def consoleCmd (c : Cmd) (s : State) : State :=
  if !mhRuns s then s
  else if outCount 18 s ≠ 0 then emit (.uart (lineText (.error 1))) s
  else settle (accept c .queued s)

/-- The completion of a command that the boot ROM answers on mailbox 19 (R100). -/
def bootCmd (c : Cmd) (s : State) : State :=
  let seq := (Tab.get s.host.mbx 19).nextSeq
  let s1 := modMbx 19 (fun m => { m with nextSeq := wrapInc 32 m.nextSeq, fetched := m.fetched + 1, completed := m.completed + 1 }) s
  let (s2, st, d) := bootInline c s1
  let k : Cpl := { tag := c.tag, op := c.op, status := st.code, phase := false, sqIdx := 0, seq := seq, rlen := 0, detail := d, result := [] }
  { s2 with host := { s2.host with inl := { s2.host.inl.complete st.code (encodeCpl k) with clen := 0 } } }

/-- A command of the inline mailbox (R100, R130, R161). -/
def inlineCmd (c : Cmd) (s : State) : State :=
  if s.host.inl.busy then s
  else if s.dev.mode = .boot then (if inlineInBoot s then bootCmd c s else s)
  else if mhRuns s then settle (accept c .queued { s with host := { s.host with inl := { s.host.inl with busy := true } } })
  else s

/-- The always-on domain answers READINESS and IDENTITY on mailbox 16, in every state and without a session (R157). The SEQ it
gives is a free value. -/
def alwaysOn (c : Cmd) (s : State) : State :=
  let (v, s1) := drawFree s
  let res := if c.op = 1 then readinessBytes s1 else identityBytes s1
  let k : Cpl := { tag := c.tag, op := c.op, status := 0, phase := false, sqIdx := 0, seq := v.toNat % 2 ^ 32, rlen := res.length, detail := 0, result := res }
  mcpRespond c.bus (c.sqIdx % 256) (c.sqIdx / 256) (vendorHead ++ cplMessage k) s1

/-- A command message of mailbox 16 (R157, R158): a ninth outstanding one completes with BUSY. -/
def smbCmd (c : Cmd) (s : State) : State :=
  if s.dev.mode = .cold then s
  else if c.op = 1 || c.op = 2 then alwaysOn c s
  else if !mhRuns s then emit .smbNak s
  else if outCount 16 s < 8 then settle (accept c .queued s)
  else
    let s1 := accept c .queued s
    settle (finish (16, s.host.nextId) .busy 0 [] s1)

/-- A command arrives by its mailbox's transport. -/
def arrive (c : Cmd) (s : State) : State :=
  if c.mb < 16 then ringCmd c s
  else match c.mb with
    | 16 => smbCmd c s
    | 17 => plbCmd c s
    | 18 => consoleCmd c s
    | 19 => inlineCmd c s
    | _ => s

end Sys2Proof.Machine
end

