-- ==== Sys2Proof/Machine/Transport.lean ====
section
/-! DEFINITION. The transports that carry commands without rings: MCTP over SMB0 and SMB1, the PLB mailbox, the console and the
inline mailbox (spec/06_mailbox_transport.md, R156 - R160, R705; spec/24_management.md, R620 - R623, R630 - R634). Packet formats of
MCTP are those of DSP0236 (PRESUMED; log entry 14). -/

namespace Sys2Proof.Machine

/-! ### MCTP in -/

/-- Count a discarded packet (R620, R705). -/
def smbDiscard (s : State) : State := { s with smb0 := { s.smb0 with discarded := s.smb0.discarded + 1 } }

/-- Who asked: bus, source endpoint, message tag, and the instance byte of a control request. -/
structure McFrom where
  bus : Nat := 0
  src : Nat := 0
  tag : Nat := 0
  inst : Nat := 0
  deriving DecidableEq, Repr, Inhabited

/-- Answer an MCTP control message. -/
def controlReply (w : McFrom) (cmd code : Nat) (data : List Byte) (s : State) : State :=
  mcpRespond w.bus w.src w.tag ([0x00] ++ leBytes 1 (w.inst % 32) ++ leBytes 1 cmd ++ leBytes 1 code ++ data) s

/-- Set Endpoint ID (R623, Table 6.5): a new endpoint ID ends the session of mailbox 16. -/
def setEndpoint (w : McFrom) (eid : Nat) (s : State) : State :=
  if s.dev.mode = .cold then s
  else if eid = 0 || eid = 255 || 255 < eid then controlReply w 1 2 [] s
  else
    let s1 := if s.smb0.eid = some eid then s else smbReset s
    controlReply w 1 0 (leBytes 1 0 ++ leBytes 1 eid ++ leBytes 1 0) { s1 with smb0 := { s1.smb0 with eid := some eid } }

/-- Get Endpoint ID. -/
def getEndpoint (w : McFrom) (s : State) : State :=
  if s.dev.mode = .cold then s else controlReply w 2 0 (leBytes 1 (s.smb0.eid.getD 0) ++ [0x00, 0x00]) s

/-- Get MCTP Version Support: 1.3 for types 0xFF and 0x00; else completion code 0x80. -/
def getVersion (w : McFrom) (mtype : Nat) (s : State) : State :=
  if s.dev.mode = .cold then s
  else if mtype = 0xFF || mtype = 0 then controlReply w 4 0 [0x01, 0xF1, 0xF3, 0xF0, 0x00] s
  else controlReply w 4 0x80 [] s

/-- Get Message Type Support: exactly 0x00 and 0x7E. -/
def getTypes (w : McFrom) (s : State) : State :=
  if s.dev.mode = .cold then s else controlReply w 5 0 [0x02, 0x00, 0x7E] s

/-- A control message. -/
def controlMsg (w : McFrom) (b : List Byte) (s : State) : State :=
  let x : McFrom := { w with inst := fieldN b 1 1 }
  match fieldN b 2 1 with
  | 1 => setEndpoint x (fieldN b 4 1) s
  | 2 => getEndpoint x s
  | 4 => getVersion x (fieldN b 3 1) s
  | 5 => getTypes x s
  | k => controlReply x k 5 [] s

/-- A whole MCTP message: a control message, or a command behind the vendor head. -/
def mcpMessage (w : McFrom) (b : List Byte) (rd : Reads) (s : State) : State :=
  if fieldN b 0 1 % 128 = 0 then controlMsg w b s
  else if b.take 3 = vendorHead then
    let m := b.drop 3
    if m.length < 8 then smbDiscard s
    else
      let c := cmdOfBytes 16 (w.src + 256 * w.tag) m rd
      smbCmd { c with msgLen := some m.length, bus := w.bus } s
  else s

/-- The first packet of a command that the always-on domain does not answer is NAKed after its opcode while Masthead does not
serve (R157). -/
def nakFirst (p : McPacket) (s : State) : Bool :=
  !mhRuns s && p.som && p.body.take 3 = vendorHead && 5 ≤ p.body.length && fieldN p.body 3 2 ≠ 1 && fieldN p.body 3 2 ≠ 2

/-- A packet written to the target on SMB0 (bus 0) or SMB1 (bus 1). -/
def smbPacket (bus : Nat) (p : McPacket) (pecOk : Bool) (rd : Reads) (s : State) : State :=
  let dest := match s.smb0.eid with | some e => p.dest = e | none => p.dest = 0
  let joins := match s.smb0.assembling with | some (q, t) => p.seq = (q + 1) % 4 && p.tag = t | none => false
  let put (a : Option (Nat × Nat)) (bs : List Byte) : State := { s with smb0 := { s.smb0 with assembling := a, partialMsg := bs } }
  if s.dev.mode = .cold then s
  else if !pecOk || 64 < p.body.length then smbDiscard s
  else if !dest then s
  else if nakFirst p s then emit .smbNak (put none [])
  else if !p.som && !joins then put none []
  else
    let bs := if p.som then p.body else s.smb0.partialMsg ++ p.body
    if p.eom then mcpMessage { bus := bus, src := p.src, tag := p.tag } bs rd (put none [])
    else put (some (p.seq, p.tag)) bs

/-- A block read takes the oldest packet that waits on its segment (R156, R630). -/
def smbRead (bus : Nat) (s : State) : State :=
  if s.dev.mode = .cold then s
  else if bus = 1 then
    match s.smb0.waiting1 with
    | p :: ps => emit (.smb 1 p) { s with smb0 := { s.smb0 with waiting1 := ps } }
    | [] => s
  else
    match s.smb0.waiting with
    | p :: ps => emit (.smb 0 p) { s with smb0 := { s.smb0 with waiting := ps } }
    | [] => s

/-- SMB0_ALERT_N is low: a response packet waits on SMB0 (R156). -/
def alertLow (s : State) : Bool := !s.smb0.waiting.isEmpty

/-- The 7-bit target address (R40). -/
def smbAddress (s : State) : Nat := 0x38 + bitsN s.pins.straps.toNat 12 2

/-- The Alert Response Address (R156). -/
def alertResponse (s : State) : State :=
  if s.dev.mode = .cold || !alertLow s then s
  else emit (.smbByte (BitVec.ofNat 8 (2 * smbAddress s))) { s with smb0 := { s.smb0 with answered := s.smb0.answered + 1 } }

/-- SMB0 target reset (R622, Table 6.5). -/
def targetReset (s : State) : State :=
  if s.dev.mode = .cold then s else smbReset { s with smb0 := { s.smb0 with resets := s.smb0.resets + 1 } }

/-! ### Console -/

/-- The value of a hex digit. -/
def hexDigit (b : Byte) : Option Nat :=
  let n := b.toNat
  if 0x30 ≤ n ∧ n ≤ 0x39 then some (n - 0x30)
  else if 0x41 ≤ n ∧ n ≤ 0x46 then some (n - 0x37)
  else if 0x61 ≤ n ∧ n ≤ 0x66 then some (n - 0x57)
  else none

/-- The bytes of a hex string, two digits a byte. -/
def hexBytes : List Byte → Option (List Byte)
  | [] => some []
  | a :: b :: bs =>
    match hexDigit a, hexDigit b, hexBytes bs with
    | some x, some y, some r => some (BitVec.ofNat 8 (16 * x + y) :: r)
    | _, _, _ => none
  | _ => none

/-- The longest line of the console. -/
def maxLine : Nat := 2060

/-- A line of the console (R159, R160). -/
def consoleLine (line : List Byte) (rd : Reads) (s : State) : State :=
  if s.dev.mode = .cold then s
  else if !mhRuns s then { s with uart := { s.uart with discarded := s.uart.discarded + line.length } }
  else if line.take 2 = [0x43, 0x20] && outCount 18 s ≠ 0 then emit (.uart (lineText (.error 1))) s
  else
    match (if line.take 2 = [0x43, 0x20] && line.length ≤ maxLine then hexBytes (line.drop 2) else none) with
    | some b => if b.length < 8 || b.length ≠ 8 + fieldN b 6 2 then emit (.uart (lineText (.error 2))) s else consoleCmd (cmdOfBytes 18 0 b rd) s
    | none => emit (.uart (lineText (.error 2))) s

/-- The majority of samples 7, 8 and 9 of a bit (R632). -/
def bitMajority (v : BitVec 3) : Bool := (v.getLsbD 0 && v.getLsbD 1) || (v.getLsbD 0 && v.getLsbD 2) || (v.getLsbD 1 && v.getLsbD 2)

/-- The character of nine bits, data bits first with the least significant one first, and whether its stop bit is 1. -/
def uartChar (bits : List (BitVec 3)) : Byte × Bool :=
  (BitVec.ofNat 8 ((List.range 8).foldl (fun n i => n + (if bitMajority (bits.getD i 0) then 2 ^ i else 0)) 0), bitMajority (bits.getD 8 0))

/-- A character ends a line, or joins the line (Table 6.1, UART console). -/
def consoleChar (b : Byte) (rd : Reads) (s : State) : State :=
  let put (buf : List Byte) (cr : Bool) : State := { s with uart := { s.uart with buf := buf, lastCr := cr } }
  if b = 0x0A && s.uart.lastCr then put s.uart.buf false
  else if b = 0x0D || b = 0x0A then consoleLine s.uart.buf rd (put [] (b = 0x0D))
  else put (if maxLine < s.uart.buf.length then s.uart.buf else s.uart.buf ++ [b]) false

/-- UART_CHARACTER_RX (R632 - R634): the samples of the nine bits after the start edge, and how many bit times the line stays low. -/
def uartRx (bits : List (BitVec 3)) (lowBits : Nat) (rd : Reads) (s : State) : State :=
  let (b, stop) := uartChar bits
  if s.dev.mode = .cold then s
  else if !stop then
    if 10 ≤ lowBits then { s with uart := { s.uart with breaks := s.uart.breaks + 1 } }
    else { s with uart := { s.uart with framing := s.uart.framing + 1 } }
  else if !mhRuns s then { s with uart := { s.uart with discarded := s.uart.discarded + 1 } }
  else consoleChar b rd s

/-! ### Register-buffer mailboxes -/

/-- GO of the inline mailbox (R130, R131): the 64 bytes of IBM_CMD. -/
def inlineGo (fn : Nat) (v : W32) (rd : Reads) (s : State) : State :=
  if !barDecoded fn s || !writable 0x4040 s then s
  else if !mapped fn 0x4040 s then modView fn (fun w => { w with accUnmapped := true }) s
  else if v.getLsbD 0 then inlineCmd (cmdOfBytes 19 0 (Tab.getList s.host.inl.cmd 0 64) rd) s
  else s

/-- GO of the PLB mailbox (R159): the message in PMB_CMD. -/
def plbGo (v : W32) (rd : Reads) (s : State) : State :=
  if v.getLsbD 0 then plbCmd (cmdOfBytes 17 0 (Tab.getList s.host.plb.cmd 0 1024) rd) s else s

/-- A write of the PLB inbound window, with what a write of GO sets off (R492, R159). -/
def plbWrite (addr be : Nat) (burst : Bool) (words : List Nat) (rd : Reads) (s : State) : State :=
  let (go, s1) := inboundWrite addr be burst words rd.done s
  if go then plbGo 1 rd s1 else s1

/-- A write of one register; GO of the inline mailbox submits its command. -/
def hostPut (fn off : Nat) (v : W32) (s : State) : State :=
  if off = 0x4040 then inlineGo fn v {} s else bar0Write32 fn off v 0 s

/-- A BAR0 write as the host makes it. -/
def hostWrite0 (fn off bytes : Nat) (v : W64) (s : State) : State :=
  if !barDecoded fn s then s else bar0Write (hostPut fn) fn off bytes v s

/-- A 32-bit BAR0 write with W1C bits whose event recurs in the same cycle. -/
def hostWrite32 (fn off : Nat) (v recur : W32) (s : State) : State := if barDecoded fn s then bar0Write32 fn off v recur s else s

end Sys2Proof.Machine
end

