-- ==== Sys2Proof/Machine/Pins.lean ====
section
/-! DEFINITION. The digital output pins (Tables 2.4 - 2.7): which of them the device drives (R30, R33, R42 - R44, Table 4.6), and
whether one it drives is low. Nothing in the machine reads them back. -/

namespace Sys2Proof.Machine

/-- An output, an open-drain output or a bidirectional pin, by its name in Tables 2.4, 2.6 and 2.7. -/
inductive OutPin where
  | nvmeRefclk (n : Nat) | plbClko
  /-- PLB_AD, PLB_BE_N, PLB_AS_N, PLB_RW and PLB_BURST_N, which the bus owner drives. -/
  | plbBus
  | plbReqN (n : Nat) | plbGntN (n : Nat)
  | smb0AlertN | thermTripN | intN
  /-- AVSn_CLK and AVSn_MDATA. -/
  | avs (die : Nat)
  | uartTx
  | gpio (n : Nat)
  | ppsOut | rlOut
  | nvmePerstN (n : Nat)
  deriving DecidableEq, Repr, Inhabited

/-- A driven pin is low. The serial outputs idle high; what they send is in `State.out`. -/
def pinLow : OutPin → State → Bool
  | .plbReqN n, s => n = 0 && s.bow.reqLow
  | .plbGntN n, s => s.bow.arb = .granted n
  | .smb0AlertN, s => alertLow s
  | .thermTripN, s => s.pins.thermTrip
  | .intN, s => intNLow s
  | .gpio n, s => !s.pins.gpioOut.getLsbD n
  | .ppsOut, s => !s.time.ppsOut
  | .nvmePerstN n, s => !s.pins.nvmePerstN.getLsbD n
  | _, _ => false

/-- The function of a pin drives it, once cold reset has released (R33). An open-drain pin is driven exactly while it is low. -/
def functionDrives : OutPin → State → Bool
  | .nvmeRefclk _, s => s.pins.nvmeRefclk
  | .plbClko, s => !(s.pins.plbClkoDiv = 0)
  | .plbBus, s => plbRole s < 2 && s.bow.mst = .active
  | .plbReqN n, s => plbRole s = 1 && n = 0
  | .plbGntN n, s => plbRole s = 0 && n < 4
  | .smb0AlertN, s => pinLow .smb0AlertN s
  | .thermTripN, s => pinLow .thermTripN s
  | .intN, s => pinLow .intN s
  | .avs _, s => 1 ≤ s.dev.stage
  | .uartTx, s => 1 ≤ s.dev.stage
  | .gpio n, s => s.pins.gpioDir.getLsbD n
  | .ppsOut, _ => true
  | .rlOut, s => rlRuns s
  | .nvmePerstN n, _ => n < 2

/-- The device drives a pin. Until cold reset releases every pin is high impedance (R30, R33), but for a THERM_TRIP_N that has tripped
(R35). -/
def pinDriven (p : OutPin) (s : State) : Bool := (p = .thermTripN && s.pins.thermTrip) || (!s.pins.hiZ && functionDrives p s)

end Sys2Proof.Machine
end

