-- ==== Sys2Proof/Machine/StepsBoard.lean ====
section
/-! DEFINITION. The meanings of the events of reset, boot, clocks, supplies and the fault collector (spec/02 - 04, spec/23). -/

namespace Sys2Proof.Machine

/-- The blocks behind Masthead stand still: COLD, where nothing answers, or SAFE (Table 23.4). -/
def halted (s : State) : Bool := s.dev.mode = .cold || s.dev.mode = .safe

/-- An event, and what Masthead does upon it. -/
def act (f : State → State) (s : State) : Host.Outcome State Fault Refusal := .next (settle (f s))

/-- An event of a block that COLD and SAFE halt. -/
def actLive (f : State → State) (s : State) : Host.Outcome State Fault Refusal := .next (if halted s then s else settle (f s))

/-! ### Resets and boot -/

/-- POWER_ON_RESET: VAON falls (R85). -/
def execPowerOnReset (s : State) : Host.Outcome State Fault Refusal := .next (powerOn s)

/-- SYS_RST_N_LOW (R87). -/
def execSysRstNLow (s : State) : Host.Outcome State Fault Refusal := .next (sysRstLow s)

/-- STRAP_SAMPLE (R36, R38). -/
def execStrapSample (levels : BitVec 14) (s : State) : Host.Outcome State Fault Refusal := .next (strapSampled levels s)

/-- COLD_RESET_RELEASE (R86). -/
def execColdResetRelease (locked : Bool) (s : State) : Host.Outcome State Fault Refusal := .next (coldRelease locked s)

/-- PLL_LOCK_TIMEOUT (R86). -/
def execPllLockTimeout (s : State) : Host.Outcome State Fault Refusal := .next (pllTimeout s)

/-- BOOT_STAGE_DONE (R93 - R97). -/
def execBootStageDone (r : StageReport) (s : State) : Host.Outcome State Fault Refusal := act (stageDone r) s

/-- BOOT_STAGE_TIMEOUT (R93). -/
def execBootStageTimeout (aclk : Nat) (s : State) : Host.Outcome State Fault Refusal := .next (stageTimeout aclk s)

/-- PCIE_RESET (R91). -/
def execPcieReset (cause : PcieResetCause) (s : State) : Host.Outcome State Fault Refusal := act (pcieReset cause) s

/-- PERST_N_RELEASE (R98). -/
def execPerstNRelease (s : State) : Host.Outcome State Fault Refusal := .next (perstRelease s)

/-- SYS_RST_N_RISE (R86). -/
def execSysRstNRise (s : State) : Host.Outcome State Fault Refusal := .next (sysRstRise s)

/-- POWER_ON_RESET_RELEASE (R85). -/
def execPowerOnResetRelease (s : State) : Host.Outcome State Fault Refusal := .next (porRelease s)

/-- HEARTBEAT_TICK (R122). -/
def execHeartbeatTick (s : State) : Host.Outcome State Fault Refusal := .next (heartbeatTick s)

/-! ### Clocks and temperature -/

/-- REFERENCE_LOSS (R83). -/
def execReferenceLoss (c : ClockSrc) (s : State) : Host.Outcome State Fault Refusal := act (clockLost c) s

/-- REFERENCE_RETURN (R84). -/
def execReferenceReturn (c : ClockSrc) (s : State) : Host.Outcome State Fault Refusal := act (clockBack c) s

/-- THERMAL_TRIP (R686). -/
def execThermalTrip (die : Nat) (s : State) : Host.Outcome State Fault Refusal := act (thermalTripped die) s

/-- RAIL_OUT_OF_RANGE (R685). -/
def execRailOutOfRange (rail : Nat) (s : State) : Host.Outcome State Fault Refusal := act (railOut rail) s

/-! ### Core rails (R58 - R73) -/

/-- An event of a core rail's controller: none before FW_INIT, in SAFE (rails hold) or in COLD. -/
def actRail (die : Nat) (f : State → State) (s : State) : Host.Outcome State Fault Refusal :=
  .next (if die < 2 && railsActive s then settle (f s) else s)

/-- A read on an AVSBus: from the end of ROM_START (Table 4.6), and none in SAFE. -/
def actAvs (die : Nat) (f : State → State) (s : State) : Host.Outcome State Fault Refusal :=
  .next (if die < 2 && avsReads s then settle (f s) else s)

/-- PWR_FAIL_N_FALL (R58 - R60). -/
def execPwrFailNFall (cycles : Nat) (s : State) : Host.Outcome State Fault Refusal := act (pwrFall cycles) s

/-- PWR_FAIL_N_RISE (R61). -/
def execPwrFailNRise (s : State) : Host.Outcome State Fault Refusal := .next { s with pins := { s.pins with pwrFailN := true } }

/-- PWR_FAIL_N_RECOVERY (R61). -/
def execPwrFailNRecovery (s : State) : Host.Outcome State Fault Refusal := act pwrRecover s

/-- DESIRED_POINT_CHANGE (R68). -/
def execDesiredPointChange (die : Nat) (s : State) : Host.Outcome State Fault Refusal := actRail die (reform die) s

/-- YCLK_SWITCH_DONE (R64). -/
def execYclkSwitchDone (die : Nat) (s : State) : Host.Outcome State Fault Refusal := actRail die (switchDone die) s

/-- AVS_STATUS_READ (R65). -/
def execAvsStatusRead (die : Nat) (vdone : Bool) (s : State) : Host.Outcome State Fault Refusal :=
  actAvs die (fun s => statusRead die vdone (avsSend die .readStatus s)) s

/-- AVS_POLL (R65). -/
def execAvsPoll (die : Nat) (r : AvsRead) (s : State) : Host.Outcome State Fault Refusal := actAvs die (avsPoll die r) s

/-- AVS_SLEW_TIMEOUT (R63, R67). -/
def execAvsSlewTimeout (die : Nat) (s : State) : Host.Outcome State Fault Refusal := actRail die (slewTimeout die) s

/-- SETTLE_TIMER (R65). -/
def execSettleTimer (die : Nat) (s : State) : Host.Outcome State Fault Refusal := actRail die (settleDone die) s

/-- AVS_FRAME_ERROR (R66): from ROM_START on, whose own frames it may meet, and not in SAFE. -/
def execAvsFrameError (die : Nat) (s : State) : Host.Outcome State Fault Refusal :=
  .next (if die < 2 && !halted s then settle (frameError die s) else s)

/-- ADAPTIVE_LOOP_PERIOD (R69, R70). -/
def execAdaptiveLoopPeriod (die : Nat) (steps : Int) (s : State) : Host.Outcome State Fault Refusal := actRail die (loopPeriod die steps) s

/-- LIMITER_PERIOD (R71 - R73). -/
def execLimiterPeriod (s : State) : Host.Outcome State Fault Refusal := act limiterPeriod s

/-! ### The fault collector -/

/-- TT_OCCURRENCE (R595 - R607). -/
def execTtOccurrence (pairs : List Pair) (s : State) : Host.Outcome State Fault Refusal := act (ttSample pairs) s

/-- TT_ACKNOWLEDGE (R608). -/
def execTtAcknowledge (s : State) : Host.Outcome State Fault Refusal := act ttAck s

/-- TT_WATCHDOG (R609). -/
def execTtWatchdog (s : State) : Host.Outcome State Fault Refusal := act ttWatchdog s

/-- DIRECT_PATH_ASSERT (R613, R709). -/
def execDirectPathAssert (src : Nat) (s : State) : Host.Outcome State Fault Refusal := act (directAssert src) s

/-- TT_PARITY_SCAN (R614): a mismatch asserts source 0x1BF. -/
def execTtParityScan (mismatch : Bool) (s : State) : Host.Outcome State Fault Refusal :=
  act (fun s => if mismatch && fclkRuns s then directAssert 0x1BF s else s) s

end Sys2Proof.Machine
end

