-- ==== Sys2Proof/Machine/StepsHost.lean ====
section
/-! DEFINITION. The meanings of the host's register accesses, of the mailboxes' transports and of the PCIe functions' events
(spec/05, spec/06, spec/18). -/

namespace Sys2Proof.Machine

/-! ### BAR0 (R102 - R131) -/

/-- BAR0_REGISTER_WRITE (R105 - R108). -/
def execBar0RegisterWrite (fn off bytes : Nat) (v : W64) (s : State) : Host.Outcome State Fault Refusal := act (hostWrite0 fn off bytes v) s

/-- BAR0_UNMAPPED_ACCESS (R104). -/
def execBar0UnmappedAccess (fn off : Nat) (write : Bool) (s : State) : Host.Outcome State Fault Refusal :=
  .next (if barDecoded fn s && (!write || writable off s) then unmappedAccess fn off s else s)

/-- W1C_WRITE (R13). -/
def execW1cWrite (fn off : Nat) (v recur : W32) (s : State) : Host.Outcome State Fault Refusal := act (hostWrite32 fn off v recur) s

/-- TT_STICKY_WRITE (R118): TT_STICKY and TT_WIRING alone. -/
def execTtStickyWrite (fn off : Nat) (v recur : W32) (s : State) : Host.Outcome State Fault Refusal :=
  act (fun s => if 0x2100 ≤ off && off < 0x2238 then hostWrite32 fn off v recur s else s) s

/-- TOD_NS_READ (R123). -/
def execTodNsRead (fn : Nat) (s : State) : Host.Outcome State Fault Refusal :=
  .next (if barDecoded fn s && mapped fn 0x3000 s then latchSeconds fn s else s)

/-- TOD_SET_NS (R124 - R126). -/
def execTodSetNs (fn : Nat) (v : W32) (s : State) : Host.Outcome State Fault Refusal := act (hostWrite32 fn 0x3018 v 0) s

/-- TOD_STEP (R641, R126). -/
def execTodStep (fn : Nat) (v : W32) (s : State) : Host.Outcome State Fault Refusal := act (hostWrite32 fn 0x3020 v 0) s

/-- TOD_ADJ_PPB (R125, R126). -/
def execTodAdjPpb (fn : Nat) (v : W32) (s : State) : Host.Outcome State Fault Refusal := act (hostWrite32 fn 0x3024 v 0) s

/-- The offset of a register of doorbell page m. -/
def pageReg (m off : Nat) : Nat := 0x10000 + 0x1000 * m + off

/-- ENABLE: a write of MB_CTL (R127). -/
def execEnable (fn m : Nat) (v : W32) (s : State) : Host.Outcome State Fault Refusal :=
  act (fun s => if m < 16 then hostWrite32 fn (pageReg m 0) v 0 s else s) s

/-- SQ_TAIL (R129). -/
def execSqTail (fn m : Nat) (v : W32) (s : State) : Host.Outcome State Fault Refusal :=
  act (fun s => if m < 16 then hostWrite32 fn (pageReg m 0x20) v 0 s else s) s

/-- CQ_HEAD (R143). -/
def execCqHead (fn m : Nat) (v : W32) (s : State) : Host.Outcome State Fault Refusal :=
  act (fun s => if m < 16 then hostWrite32 fn (pageReg m 0x2C) v 0 s else s) s

/-- INLINE_GO (R130). -/
def execInlineGo (fn : Nat) (v : W32) (rd : Reads) (s : State) : Host.Outcome State Fault Refusal := act (inlineGo fn v rd) s

/-! ### Functions (R114, R115) -/

/-- FUNC_VALIDATED (R115). -/
def execFuncValidated (f : Nat) (s : State) : Host.Outcome State Fault Refusal := actLive (funcValid f) s

/-- FUNC_DRAINED (R114). -/
def execFuncDrained (f : Nat) (s : State) : Host.Outcome State Fault Refusal := actLive (funcDrain f) s

/-! ### Masthead's mailboxes (R136 - R151) -/

/-- MAILBOX_FETCH (R146). -/
def execMailboxFetch (m : Nat) (entries : Option (List Entry)) (s : State) : Host.Outcome State Fault Refusal := act (mailboxFetch m entries) s

/-- COMPLETION_POST (R142, R144). -/
def execCompletionPost (m n : Nat) (ok : Bool) (s : State) : Host.Outcome State Fault Refusal :=
  act (fun s => if mhRuns s then postRing m n ok s else s) s

/-- COMMAND_TIMEOUT (R150, R151). -/
def execCommandTimeout (m seq : Nat) (s : State) : Host.Outcome State Fault Refusal := act (commandTimeout m seq) s

/-- LATE_RESULT (R150). -/
def execLateResult (m seq : Nat) (s : State) : Host.Outcome State Fault Refusal := act (lateResult m seq) s

/-! ### SMB0 and SMB1 as target (R156 - R158, R620 - R623, R630) -/

/-- SMB0_BLOCK_WRITE (R620). -/
def execSmb0BlockWrite (packet : McPacket) (pecOk : Bool) (rd : Reads) (s : State) : Host.Outcome State Fault Refusal :=
  act (smbPacket 0 packet pecOk rd) s

/-- SMB0_BLOCK_READ (R156). -/
def execSmb0BlockRead (s : State) : Host.Outcome State Fault Refusal := .next (smbRead 0 s)

/-- ALERT_RESPONSE_ADDRESS (R156). -/
def execAlertResponseAddress (s : State) : Host.Outcome State Fault Refusal := .next (alertResponse s)

/-- SMB0_TARGET_RESET (R622). -/
def execSmb0TargetReset (s : State) : Host.Outcome State Fault Refusal := act targetReset s

/-- SET_ENDPOINT_ID (R623). -/
def execSetEndpointId (eid : Byte) (s : State) : Host.Outcome State Fault Refusal := act (setEndpoint {} eid.toNat) s

/-- GET_ENDPOINT_ID (R157). -/
def execGetEndpointId (s : State) : Host.Outcome State Fault Refusal := .next (getEndpoint {} s)

/-- GET_MCTP_VERSION_SUPPORT (R157). -/
def execGetMctpVersionSupport (mtype : Byte) (s : State) : Host.Outcome State Fault Refusal := .next (getVersion {} mtype.toNat s)

/-- GET_MESSAGE_TYPE_SUPPORT (R157). -/
def execGetMessageTypeSupport (s : State) : Host.Outcome State Fault Refusal := .next (getTypes {} s)

/-- SMB1_BLOCK_WRITE (R630). -/
def execSmb1BlockWrite (packet : McPacket) (pecOk : Bool) (rd : Reads) (s : State) : Host.Outcome State Fault Refusal :=
  act (smbPacket 1 packet pecOk rd) s

/-- SMB1_BLOCK_READ (R630). -/
def execSmb1BlockRead (s : State) : Host.Outcome State Fault Refusal := .next (smbRead 1 s)

/-! ### The PLB mailbox and the console (R159, R160, R632 - R634) -/

/-- PMB_GO (R159). -/
def execPmbGo (v : W32) (rd : Reads) (s : State) : Host.Outcome State Fault Refusal := act (plbGo v rd) s

/-- CONSOLE_LINE (R159, R160). -/
def execConsoleLine (line : List Byte) (rd : Reads) (s : State) : Host.Outcome State Fault Refusal := act (consoleLine line rd) s

/-- UART_CHARACTER_RX (R632 - R634). -/
def execUartCharacterRx (samples : List (BitVec 3)) (lowBits : Nat) (rd : Reads) (s : State) : Host.Outcome State Fault Refusal :=
  act (uartRx samples lowBits rd) s

/-! ### PCIe functions (R446 - R459) -/

/-- FLR (R456 - R458). -/
def execFlr (fn : Nat) (cfg : List FnCfg) (s : State) : Host.Outcome State Fault Refusal := act (flrFn fn cfg) s

/-- VF_ENABLE_CLEAR (R456). -/
def execVfEnableClear (s : State) : Host.Outcome State Fault Refusal := act vfClear s

/-- VF_ENABLE_SET (R456). -/
def execVfEnableSet (n : Nat) (cfg : List FnCfg) (s : State) : Host.Outcome State Fault Refusal := act (vfSet n cfg) s

/-- D3HOT_ENTRY (R459). -/
def execD3hotEntry (fn : Nat) (s : State) : Host.Outcome State Fault Refusal := act (d3Entry fn) s

/-- D0_RETURN (R459). -/
def execD0Return (fn : Nat) (s : State) : Host.Outcome State Fault Refusal := act (d0Back fn) s

/-- ATS_INVALIDATE (R452). -/
def execAtsInvalidate (fn : Nat) (pages : List Nat) (s : State) : Host.Outcome State Fault Refusal := .next (atsDrop fn pages s)

/-- MSIX_UNMASK (R454). -/
def execMsixUnmask (fn vec : Nat) (s : State) : Host.Outcome State Fault Refusal := .next (msixUnmaskVec fn vec s)

/-- HOST_TRANSFER_FAILURE (R451). -/
def execHostTransferFailure (m : Nat) (seq : Option Nat) (s : State) : Host.Outcome State Fault Refusal := actLive (transferFail m seq) s

/-- POISONED_WRITE_RX (R453). -/
def execPoisonedWriteRx (fn bar : Nat) (s : State) : Host.Outcome State Fault Refusal := act (poisonedWrite fn bar) s

/-- PCIE_LINK_UP (R447). -/
def execPcieLinkUp (rate : Nat) (lanes : PortLanes) (flit : Bool) (cfg : List FnCfg) (s : State) : Host.Outcome State Fault Refusal :=
  act (pcieLinkUp rate lanes.width flit lanes.inv lanes.rev cfg) s

/-- BAR2_READ (R319). -/
def execBar2Read (fn off : Nat) (rd : HostRead) (s : State) : Host.Outcome State Fault Refusal :=
  act (fun s => bar2Read fn off rd.bytes (strike rd.ups s)) s

/-- BAR2_WRITE (R319). -/
def execBar2Write (fn off : Nat) (bytes : List Byte) (s : State) : Host.Outcome State Fault Refusal := act (bar2Write fn off bytes) s

end Sys2Proof.Machine
end

