-- ==== Sys2Proof/Machine/StepsCmd.lean ====
section
/-! DEFINITION. The meanings of the commands of the catalogue (spec/07_command_catalogue.md, Tables 7.4 - 7.19): each arrives on its
mailbox with its own opcode, is fetched and checked there, and is carried out by its row's `do...`. -/

namespace Sys2Proof.Machine

/-! ### Device and sessions -/

/-- READINESS (R97): carried out by `doReadiness`. -/
def execReadiness (c : Cmd) (s : State) : Host.Outcome State Fault Refusal := .next (arrive { c with op := 0x0001 } s)

/-- IDENTITY (R120): carried out by `doIdentity`. -/
def execIdentity (c : Cmd) (s : State) : Host.Outcome State Fault Refusal := .next (arrive { c with op := 0x0002 } s)

/-- SESSION_OPEN (R149): carried out by `doSessionOpen`. -/
def execSessionOpen (c : Cmd) (s : State) : Host.Outcome State Fault Refusal := .next (arrive { c with op := 0x0003 } s)

/-- SESSION_CLOSE (R155): carried out by `doSessionClose`. -/
def execSessionClose (c : Cmd) (s : State) : Host.Outcome State Fault Refusal := .next (arrive { c with op := 0x0004 } s)

/-- VF_BIND (R154): carried out by `doVfBind`. -/
def execVfBind (c : Cmd) (s : State) : Host.Outcome State Fault Refusal := .next (arrive { c with op := 0x0005 } s)

/-- DEVICE_RESET (R186): carried out by `doDeviceReset`. -/
def execDeviceReset (c : Cmd) (s : State) : Host.Outcome State Fault Refusal := .next (arrive { c with op := 0x0006 } s)

/-- FUNC_START (R187): carried out by `doFuncStart`. -/
def execFuncStart (c : Cmd) (s : State) : Host.Outcome State Fault Refusal := .next (arrive { c with op := 0x0007 } s)

/-- FUNC_STOP (R187): carried out by `doFuncStop`. -/
def execFuncStop (c : Cmd) (s : State) : Host.Outcome State Fault Refusal := .next (arrive { c with op := 0x0008 } s)

/-- STATS_READ (R172): carried out by `doStatsRead`. -/
def execStatsRead (c : Cmd) (s : State) : Host.Outcome State Fault Refusal := .next (arrive { c with op := 0x0009 } s)

/-- POWER_POLICY (R188): carried out by `doPowerPolicy`. -/
def execPowerPolicy (c : Cmd) (s : State) : Host.Outcome State Fault Refusal := .next (arrive { c with op := 0x000A } s)

/-- POWER_STATUS (R76): carried out by `doPowerStatus`. -/
def execPowerStatus (c : Cmd) (s : State) : Host.Outcome State Fault Refusal := .next (arrive { c with op := 0x000B } s)

/-- HOST_LOAD (R100): carried out by `doHostLoad`. -/
def execHostLoad (c : Cmd) (s : State) : Host.Outcome State Fault Refusal := .next (arrive { c with op := 0x000C } s)

/-! ### Contexts -/

/-- CTX_ALLOC (R277): carried out by `doCtxAlloc`. -/
def execCtxAlloc (c : Cmd) (s : State) : Host.Outcome State Fault Refusal := .next (arrive { c with op := 0x0101 } s)

/-- CTX_FREE (R179): carried out by `doCtxFree`. -/
def execCtxFree (c : Cmd) (s : State) : Host.Outcome State Fault Refusal := .next (arrive { c with op := 0x0102 } s)

/-- CTX_QUERY (R164): carried out by `doCtxQuery`. -/
def execCtxQuery (c : Cmd) (s : State) : Host.Outcome State Fault Refusal := .next (arrive { c with op := 0x0103 } s)

/-! ### Memory -/

/-- MEM_ALLOC (R706): carried out by `doMemAlloc`. -/
def execMemAlloc (c : Cmd) (s : State) : Host.Outcome State Fault Refusal := .next (arrive { c with op := 0x0201 } s)

/-- MEM_FREE (R322): carried out by `doMemFree`. -/
def execMemFree (c : Cmd) (s : State) : Host.Outcome State Fault Refusal := .next (arrive { c with op := 0x0202 } s)

/-- MEM_COPY (R164): carried out by `doMemCopy`. -/
def execMemCopy (c : Cmd) (s : State) : Host.Outcome State Fault Refusal := .next (arrive { c with op := 0x0203 } s)

/-- APERTURE_SET (R318): carried out by `doApertureSet`. -/
def execApertureSet (c : Cmd) (s : State) : Host.Outcome State Fault Refusal := .next (arrive { c with op := 0x0204 } s)

/-- NVME_CFG (R461): carried out by `doNvmeCfg`. -/
def execNvmeCfg (c : Cmd) (s : State) : Host.Outcome State Fault Refusal := .next (arrive { c with op := 0x0205 } s)

/-! ### Programs -/

/-- MODEL_LOAD (R273): carried out by `doModelLoad`. -/
def execModelLoad (c : Cmd) (s : State) : Host.Outcome State Fault Refusal := .next (arrive { c with op := 0x0301 } s)

/-- MODEL_UNLOAD (R164): carried out by `doModelUnload`. -/
def execModelUnload (c : Cmd) (s : State) : Host.Outcome State Fault Refusal := .next (arrive { c with op := 0x0302 } s)

/-- WEIGHTS_LOAD (R279): carried out by `doWeightsLoad`. -/
def execWeightsLoad (c : Cmd) (s : State) : Host.Outcome State Fault Refusal := .next (arrive { c with op := 0x0303 } s)

/-! ### Submissions -/

/-- SUBMIT (R181): carried out by `doSubmit`. -/
def execSubmit (c : Cmd) (s : State) : Host.Outcome State Fault Refusal := .next (arrive { c with op := 0x0401 } s)

/-- SUBMIT_CANCEL (R178): carried out by `doSubmitCancel`. -/
def execSubmitCancel (c : Cmd) (s : State) : Host.Outcome State Fault Refusal := .next (arrive { c with op := 0x0402 } s)

/-! ### Furl -/

/-- FURL_DOMAIN_CFG (R350): carried out by `doFurlDomainCfg`. -/
def execFurlDomainCfg (c : Cmd) (s : State) : Host.Outcome State Fault Refusal := .next (arrive { c with op := 0x0501 } s)

/-- FURL_PIN (R348): carried out by `doFurlPin`. -/
def execFurlPin (c : Cmd) (s : State) : Host.Outcome State Fault Refusal := .next (arrive { c with op := 0x0502 } s)

/-- FURL_UNPIN (R348): carried out by `doFurlUnpin`. -/
def execFurlUnpin (c : Cmd) (s : State) : Host.Outcome State Fault Refusal := .next (arrive { c with op := 0x0503 } s)

/-- FURL_EVICT_CFG (R346): carried out by `doFurlEvictCfg`. -/
def execFurlEvictCfg (c : Cmd) (s : State) : Host.Outcome State Fault Refusal := .next (arrive { c with op := 0x0504 } s)

/-- FURL_PURGE (R164): carried out by `doFurlPurge`. -/
def execFurlPurge (c : Cmd) (s : State) : Host.Outcome State Fault Refusal := .next (arrive { c with op := 0x0505 } s)

/-- FURL_PROBE (R164): carried out by `doFurlProbe`. -/
def execFurlProbe (c : Cmd) (s : State) : Host.Outcome State Fault Refusal := .next (arrive { c with op := 0x0506 } s)

/-! ### Shroud -/

/-- SHR_CONN_OPEN (R389): carried out by `doShrConnOpen`. -/
def execShrConnOpen (c : Cmd) (s : State) : Host.Outcome State Fault Refusal := .next (arrive { c with op := 0x0601 } s)

/-- SHR_CONN_CLOSE (R391): carried out by `doShrConnClose`. -/
def execShrConnClose (c : Cmd) (s : State) : Host.Outcome State Fault Refusal := .next (arrive { c with op := 0x0602 } s)

/-- SHR_CONN_TIMEOUT (R194): carried out by `doShrConnTimeout`. -/
def execShrConnTimeout (c : Cmd) (s : State) : Host.Outcome State Fault Refusal := .next (arrive { c with op := 0x0603 } s)

/-- SHR_MAP (R406): carried out by `doShrMap`. -/
def execShrMap (c : Cmd) (s : State) : Host.Outcome State Fault Refusal := .next (arrive { c with op := 0x0604 } s)

/-- SHR_UNMAP (R407): carried out by `doShrUnmap`. -/
def execShrUnmap (c : Cmd) (s : State) : Host.Outcome State Fault Refusal := .next (arrive { c with op := 0x0605 } s)

/-- SHR_CC_CFG (R394): carried out by `doShrCcCfg`. -/
def execShrCcCfg (c : Cmd) (s : State) : Host.Outcome State Fault Refusal := .next (arrive { c with op := 0x0606 } s)

/-! ### Trim -/

/-- TRIM_MODE (R435): carried out by `doTrimMode`. -/
def execTrimMode (c : Cmd) (s : State) : Host.Outcome State Fault Refusal := .next (arrive { c with op := 0x0701 } s)

/-- TRIM_SHAPER (R434): carried out by `doTrimShaper`. -/
def execTrimShaper (c : Cmd) (s : State) : Host.Outcome State Fault Refusal := .next (arrive { c with op := 0x0702 } s)

/-- TRIM_POLICER (R438): carried out by `doTrimPolicer`. -/
def execTrimPolicer (c : Cmd) (s : State) : Host.Outcome State Fault Refusal := .next (arrive { c with op := 0x0703 } s)

/-! ### Frame engine -/

/-- FRAME_CTX_CFG (R505): carried out by `doFrameCtxCfg`. -/
def execFrameCtxCfg (c : Cmd) (s : State) : Host.Outcome State Fault Refusal := .next (arrive { c with op := 0x0801 } s)

/-- FRAME_CTX_FREE (R508): carried out by `doFrameCtxFree`. -/
def execFrameCtxFree (c : Cmd) (s : State) : Host.Outcome State Fault Refusal := .next (arrive { c with op := 0x0802 } s)

/-- FRAME_RC (R525): carried out by `doFrameRc`. -/
def execFrameRc (c : Cmd) (s : State) : Host.Outcome State Fault Refusal := .next (arrive { c with op := 0x0803 } s)

/-- FRAME_ROI (R530): carried out by `doFrameRoi`. -/
def execFrameRoi (c : Cmd) (s : State) : Host.Outcome State Fault Refusal := .next (arrive { c with op := 0x0804 } s)

/-- FRAME_SUBMIT (R509): carried out by `doFrameSubmit`. -/
def execFrameSubmit (c : Cmd) (s : State) : Host.Outcome State Fault Refusal := .next (arrive { c with op := 0x0805 } s)

/-! ### Reef -/

/-- REEF_CFG (R565): carried out by `doReefCfg`. -/
def execReefCfg (c : Cmd) (s : State) : Host.Outcome State Fault Refusal := .next (arrive { c with op := 0x0901 } s)

/-- REEF_SNAPSHOT (R579): carried out by `doReefSnapshot`. -/
def execReefSnapshot (c : Cmd) (s : State) : Host.Outcome State Fault Refusal := .next (arrive { c with op := 0x0902 } s)

/-- REEF_EVACUATE (R580): carried out by `doReefEvacuate`. -/
def execReefEvacuate (c : Cmd) (s : State) : Host.Outcome State Fault Refusal := .next (arrive { c with op := 0x0903 } s)

/-- REEF_RESTORE (R588): carried out by `doReefRestore`. -/
def execReefRestore (c : Cmd) (s : State) : Host.Outcome State Fault Refusal := .next (arrive { c with op := 0x0904 } s)

/-- REEF_STATUS (R164): carried out by `doReefStatus`. -/
def execReefStatus (c : Cmd) (s : State) : Host.Outcome State Fault Refusal := .next (arrive { c with op := 0x0905 } s)

/-! ### Telltale -/

/-- TT_SEVERITY (R603): carried out by `doTtSeverity`. -/
def execTtSeverity (c : Cmd) (s : State) : Host.Outcome State Fault Refusal := .next (arrive { c with op := 0x0A01 } s)

/-- TT_READ (R601): carried out by `doTtRead`. -/
def execTtRead (c : Cmd) (s : State) : Host.Outcome State Fault Refusal := .next (arrive { c with op := 0x0A02 } s)

/-- TT_CLEAR (R600): carried out by `doTtClear`. -/
def execTtClear (c : Cmd) (s : State) : Host.Outcome State Fault Refusal := .next (arrive { c with op := 0x0A03 } s)

/-! ### Time -/

/-- TIME_SOURCE (R644): carried out by `doTimeSource`. -/
def execTimeSource (c : Cmd) (s : State) : Host.Outcome State Fault Refusal := .next (arrive { c with op := 0x0B01 } s)

/-- TIME_STATUS (R645): carried out by `doTimeStatus`. -/
def execTimeStatus (c : Cmd) (s : State) : Host.Outcome State Fault Refusal := .next (arrive { c with op := 0x0B02 } s)

/-! ### Security -/

/-- SEC_KEY_SET (R541): carried out by `doSecKeySet`. -/
def execSecKeySet (c : Cmd) (s : State) : Host.Outcome State Fault Refusal := .next (arrive { c with op := 0x0C01 } s)

/-- SEC_KEY_DESTROY (R544): carried out by `doSecKeyDestroy`. -/
def execSecKeyDestroy (c : Cmd) (s : State) : Host.Outcome State Fault Refusal := .next (arrive { c with op := 0x0C02 } s)

/-- FW_UPDATE (R551): carried out by `doFwUpdate`. -/
def execFwUpdate (c : Cmd) (s : State) : Host.Outcome State Fault Refusal := .next (arrive { c with op := 0x0C03 } s)

/-- MEASURE (R550): carried out by `doMeasure`. -/
def execMeasure (c : Cmd) (s : State) : Host.Outcome State Fault Refusal := .next (arrive { c with op := 0x0C04 } s)

/-- DEBUG_CHALLENGE (R560): carried out by `doDebugChallenge`. -/
def execDebugChallenge (c : Cmd) (s : State) : Host.Outcome State Fault Refusal := .next (arrive { c with op := 0x0C05 } s)

/-- DEBUG_UNLOCK (R562): carried out by `doDebugUnlock`. -/
def execDebugUnlock (c : Cmd) (s : State) : Host.Outcome State Fault Refusal := .next (arrive { c with op := 0x0C06 } s)

/-- DEBUG_LOCK (R557): carried out by `doDebugLock`. -/
def execDebugLock (c : Cmd) (s : State) : Host.Outcome State Fault Refusal := .next (arrive { c with op := 0x0C07 } s)

/-! ### PLB -/

/-- PLB_WINDOW (R481): carried out by `doPlbWindow`. -/
def execPlbWindow (c : Cmd) (s : State) : Host.Outcome State Fault Refusal := .next (arrive { c with op := 0x0D01 } s)

/-- PLB_ACCESS (R485): carried out by `doPlbAccess`. -/
def execPlbAccess (c : Cmd) (s : State) : Host.Outcome State Fault Refusal := .next (arrive { c with op := 0x0D02 } s)

/-- PLB_IRQ_ROUTE (R504): carried out by `doPlbIrqRoute`. -/
def execPlbIrqRoute (c : Cmd) (s : State) : Host.Outcome State Fault Refusal := .next (arrive { c with op := 0x0D03 } s)

/-- PLB_ARB_CFG (R479): carried out by `doPlbArbCfg`. -/
def execPlbArbCfg (c : Cmd) (s : State) : Host.Outcome State Fault Refusal := .next (arrive { c with op := 0x0D04 } s)

/-! ### Management -/

/-- SENSOR_READ (R164): carried out by `doSensorRead`. -/
def execSensorRead (c : Cmd) (s : State) : Host.Outcome State Fault Refusal := .next (arrive { c with op := 0x0E01 } s)

/-- RATLINE_SWEEP (R650): carried out by `doRatlineSweep`. -/
def execRatlineSweep (c : Cmd) (s : State) : Host.Outcome State Fault Refusal := .next (arrive { c with op := 0x0E02 } s)

/-- GPIO_CFG (R33): carried out by `doGpioCfg`. -/
def execGpioCfg (c : Cmd) (s : State) : Host.Outcome State Fault Refusal := .next (arrive { c with op := 0x0E03 } s)

/-- CONSOLE_CFG (R631): carried out by `doConsoleCfg`. -/
def execConsoleCfg (c : Cmd) (s : State) : Host.Outcome State Fault Refusal := .next (arrive { c with op := 0x0E04 } s)

/-- PSTORE_READ (R654): carried out by `doPstoreRead`. -/
def execPstoreRead (c : Cmd) (s : State) : Host.Outcome State Fault Refusal := .next (arrive { c with op := 0x0E05 } s)

/-- PSTORE_WRITE (R652): carried out by `doPstoreWrite`. -/
def execPstoreWrite (c : Cmd) (s : State) : Host.Outcome State Fault Refusal := .next (arrive { c with op := 0x0E06 } s)

/-- RACK_EPOCH (R667): carried out by `doRackEpoch`. -/
def execRackEpoch (c : Cmd) (s : State) : Host.Outcome State Fault Refusal := .next (arrive { c with op := 0x0E07 } s)

/-- RACK_STATUS (R164): carried out by `doRackStatus`. -/
def execRackStatus (c : Cmd) (s : State) : Host.Outcome State Fault Refusal := .next (arrive { c with op := 0x0E08 } s)

end Sys2Proof.Machine
end

