-- ==== Sys2Proof/Machine/StepsServe.lean ====
section
/-! DEFINITION. The meanings of the events of the serving path, of memory, Furl, the Frame engine and Reef (spec/07, 11, 13, 14, 20, 22). -/

namespace Sys2Proof.Machine

/-! ### Requests, steps and dispatches -/

/-- An event of the serving path, while Masthead serves. -/
def actServe (f : State → State) (s : State) : Host.Outcome State Fault Refusal := .next (if mhRuns s then settle (f s) else s)

/-- SUBMIT_DEADLINE (R175). -/
def execSubmitDeadline (c : Nat) (s : State) : Host.Outcome State Fault Refusal := actServe (submitDeadline c) s

/-- STEP_BOUNDARY (R175). -/
def execStepBoundary (b : Nat) (s : State) : Host.Outcome State Fault Refusal := actServe (stepBoundary b) s

/-- DECODE_START (R26). -/
def execDecodeStart (c : Nat) (s : State) : Host.Outcome State Fault Refusal := actServe (decodeStart c) s

/-- DISPATCH_BIND (R280 - R284). -/
def execDispatchBind (b : Bind) (s : State) : Host.Outcome State Fault Refusal := actServe (dispatchBind b) s

/-- DISPATCH_END (R266, R286). -/
def execDispatchEnd (d : Nat) (s : State) : Host.Outcome State Fault Refusal := actServe (dispatchEnd d) s

/-- DISPATCH_HALT (R221, R263). -/
def execDispatchHalt (d : Nat) (s : State) : Host.Outcome State Fault Refusal := actServe (dispatchHalt d) s

/-- HALYARD_DRAIN_LIMIT (R272). -/
def execHalyardDrainLimit (d : Nat) (s : State) : Host.Outcome State Fault Refusal := actServe (drainLimit d) s

/-! ### Memory (R307 - R314) -/

/-- HBM_WRITE_BACK (R308). -/
def execHbmWriteBack (w : Nat) (s : State) : Host.Outcome State Fault Refusal :=
  actLive (doWriteBack (wordOf w)) s

/-- HBM_REFRESH (R312): refresh leaves the contents as they are. -/
def execHbmRefresh (_stack : Nat) (s : State) : Host.Outcome State Fault Refusal := .next s

/-- HBM_SCRUB (R313); none in SAFE (Table 23.4). -/
def execHbmScrub (w : Nat) (upset : Upset) (s : State) : Host.Outcome State Fault Refusal := actLive (scrub w upset) s

/-! ### Furl messages (Table 14.4) -/

/-- LOOKUP (R326). -/
def execFurlLookup (src key parent tag pdom : Nat) (toks : List Nat) (ctx offer mode : Nat) (s : State) : Host.Outcome State Fault Refusal :=
  actServe (furlArrive src (.lookup key parent tag pdom toks ctx offer mode)) s

/-- ANSWER (R330). -/
def execFurlAnswer (src key code locDev : Nat) (nvme : Bool) (locAddr child n : Nat) (ups : List (Nat × Upset)) (s : State) :
    Host.Outcome State Fault Refusal :=
  actServe (fun s => furlArrive src (.answer key code locDev nvme locAddr child n) (strike ups s)) s

/-- UNHOLD (R328). -/
def execFurlUnhold (src key : Nat) (s : State) : Host.Outcome State Fault Refusal := actServe (furlArrive src (.unhold key)) s

/-- ABANDON (R338). -/
def execFurlAbandon (src key ctx : Nat) (s : State) : Host.Outcome State Fault Refusal := actServe (furlArrive src (.abandon key ctx)) s

/-- RENEW (R334). -/
def execFurlRenew (src : Nat) (keys : List Nat) (s : State) : Host.Outcome State Fault Refusal := actServe (furlArrive src (.renew keys)) s

/-- FURL_RENEW_TIMER (R334). -/
def execFurlRenewTimer (s : State) : Host.Outcome State Fault Refusal := actServe renewTimer s

/-- PUBLISH (R337). -/
def execFurlPublish (src key : Nat) (s : State) : Host.Outcome State Fault Refusal := actServe (furlArrive src (.publish key)) s

/-- CHILD (R327): it names no sender; any active member may send it. -/
def execFurlChild (parent key : Nat) (s : State) : Host.Outcome State Fault Refusal :=
  actServe (fun s => if s.dev.mode = .quarantine then s else furlSettle (furlDeliver (devNum s) (.child parent key) s)) s

/-- NOTIFY (R336). -/
def execFurlNotify (src key ev locDev locAddr ctx : Nat) (s : State) : Host.Outcome State Fault Refusal :=
  actServe (furlArrive src (.notify key ev locDev locAddr ctx)) s

/-- FURL_LEASE_EXPIRY (R334, R335). -/
def execFurlLeaseExpiry (e : Nat) (s : State) : Host.Outcome State Fault Refusal := actServe (fun s => furlSettle (leaseExpiry e s)) s

/-- EVICT (R343). -/
def execFurlEvict (src key op : Nat) (s : State) : Host.Outcome State Fault Refusal := actServe (furlArrive src (.evict key op)) s

/-- EVICT_ACK (R343). -/
def execFurlEvictAck (src key op : Nat) (granted : Bool) (s : State) : Host.Outcome State Fault Refusal :=
  actServe (furlArrive src (.evictAck key op granted)) s

/-- RESTORE (R345): to the home, or from the home to the owner. -/
def execFurlRestore (src key : Nat) (own : Bool) (s : State) : Host.Outcome State Fault Refusal :=
  actServe (furlArrive src (if own then .restoreOwn key else .restore key)) s

/-- MOVED (R344). -/
def execFurlMoved (src key : Nat) (nvme : Bool) (locAddr : Nat) (s : State) : Host.Outcome State Fault Refusal :=
  actServe (furlArrive src (.moved key nvme locAddr)) s

/-- ORPHAN_HOLD (R352). -/
def execFurlOrphanHold (src key : Nat) (hold : Bool) (s : State) : Host.Outcome State Fault Refusal :=
  actServe (furlArrive src (.orphanHold key hold)) s

/-- FURL_EVICTION_START (R346). -/
def execFurlEvictionStart (s : State) : Host.Outcome State Fault Refusal := actServe (fun s => furlSettle (evictionStart s)) s

/-! ### The Frame engine -/

/-- FRAME_END (R507). -/
def execFrameEnd (f n : Nat) (chunk : Option (List Byte)) (s : State) : Host.Outcome State Fault Refusal :=
  actLive (fun s => if frameRuns s then frameDone f n chunk s else s) s

/-- FRAME_ENCODE_RECORD (R527). -/
def execFrameEncodeRecord (f : Nat) (pic : List Byte) (s : State) : Host.Outcome State Fault Refusal :=
  actLive (fun s => if frameRuns s then encodeRecord f pic s else s) s

/-! ### Reef -/

/-- REEF_TRIGGER_EVAL (R566, R567). -/
def execReefTriggerEval (held : List (Nat × Nat)) (s : State) : Host.Outcome State Fault Refusal := actServe (triggerEval held) s

/-- REEF_PROTECTED_WRITE (R570). -/
def execReefProtectedWrite (addr : Nat) (data : List Byte) (s : State) : Host.Outcome State Fault Refusal := actServe (protectedWrite addr data) s

/-- REEF_COPY_DONE (R571). -/
def execReefCopyDone (s : State) : Host.Outcome State Fault Refusal := actServe (fun s => furlSettle (copyDone s)) s

/-- A Reef message from a member. -/
def reefFrom (src : Nat) (f : State → State) (s : State) : State := if activeMember src s then furlSettle (f s) else s

/-- REEF_PARK (R575). -/
def execReefPark (src : Nat) (m : ReefMsg) (s : State) : Host.Outcome State Fault Refusal := actServe (reefFrom src (parkMsg src m)) s

/-- REEF_TARGET_FAIL (R575). -/
def execReefTargetFail (s : State) : Host.Outcome State Fault Refusal := actServe (fun s => furlSettle (targetFail s)) s

/-- REEF_CONFIRM (R583). -/
def execReefConfirm (src : Nat) (m : ReefMsg) (s : State) : Host.Outcome State Fault Refusal := actServe (reefFrom src (confirmMsg src m)) s

/-- REEF_REFUSE (R582). -/
def execReefRefuse (src handle : Nat) (s : State) : Host.Outcome State Fault Refusal := actServe (reefFrom src (refuseCtx src handle)) s

/-- REEF_OUTPUT_TOKEN (R584). -/
def execReefOutputToken (src : Nat) (m : ReefMsg) (s : State) : Host.Outcome State Fault Refusal := actServe (reefFrom src (tokenMsg src m)) s

/-- REEF_PEER_LOSS (R586). -/
def execReefPeerLoss (dev : Nat) (s : State) : Host.Outcome State Fault Refusal := actServe (fun s => furlSettle (peerLoss dev s)) s

/-- REEF_HOSTED_EXPIRY (R587). -/
def execReefHostedExpiry (src : Nat) (s : State) : Host.Outcome State Fault Refusal := actServe (fun s => furlSettle (hostedExpiry src s)) s

end Sys2Proof.Machine
end

