-- ==== Sys2Proof/Machine/StepsPorts.lean ====
section
/-! DEFINITION. The meanings of the events of Stay, Shroud, Trim, Ethernet, the NVMe port and the Bowsprit (spec/15 - 19). -/

namespace Sys2Proof.Machine

/-! ### Stay (R354 - R380) -/

/-- A packet that Stay has delivered goes to its block (Table 15.4). -/
def deliver (h : PktHead) (data : List Byte) (s : State) : State :=
  match h.proto with
  | 1 => shrRx (.stay h.src) data s
  | 2 => rxLinkMap h.src data s
  | _ => rackMsg h.src data s

/-- An event of a link. -/
def actLink (k : Nat) (f : State → State) (s : State) : Host.Outcome State Fault Refusal :=
  .next (if k < 12 && !(s.dev.mode = .cold) && lclkRuns s then settle (f s) else s)

/-- STAY_FLIT_RX (R357 - R370). -/
def execStayFlitRx (k : Nat) (flit : RxFlit) (corr badCw uncorr : Nat) (s : State) : Host.Outcome State Fault Refusal :=
  actLink k (fun s =>
    match flitRx k flit.bytes flit.bad corr badCw uncorr s with
    | (some (h, data), s1) => deliver h data s1
    | (none, s1) => s1) s

/-- STAY_REPLAY_TIMEOUT (R362). -/
def execStayReplayTimeout (k : Nat) (s : State) : Host.Outcome State Fault Refusal := actLink k (startReplay k) s

/-- STAY_RETRY_BUDGET_EXPIRY (R363). -/
def execStayRetryBudgetExpiry (k : Nat) (s : State) : Host.Outcome State Fault Refusal := actLink k (budgetExpiry k) s

/-- STAY_PACKET_SEND (R368, R369, R371): a packet of up to 32 flits of a protocol that its VC carries. -/
def execStayPacketSend (dest vc proto flow : Nat) (data : List Byte) (sys : Bool) (s : State) : Host.Outcome State Fault Refusal :=
  actLive (fun s =>
    if vc < 4 && protoOk vc proto && data.length ≤ 7928 && (dest < 72 || (dest = 0x7F && vc = 3)) then staySend dest vc proto flow data sys s
    else s) s

/-- INIT (R376). -/
def execStayInit (k role node port : Nat) (s : State) : Host.Outcome State Fault Refusal := actLink k (rxInit k role node port) s

/-- RESYNC (R367). -/
def execStayResync (k : Nat) (s : State) : Host.Outcome State Fault Refusal := actLink k (rxResync k) s

/-- RESYNC_ACK (R367). -/
def execStayResyncAck (k : Nat) (s : State) : Host.Outcome State Fault Refusal := actLink k (rxResyncAck k) s

/-- STAY_RESYNC_TIMEOUT (R375). -/
def execStayResyncTimeout (k : Nat) (s : State) : Host.Outcome State Fault Refusal := actLink k (resyncTimeout k) s

/-- STAY_TRAINING_PHASE_DONE (R375). -/
def execStayTrainingPhaseDone (p : PhaseEnd) (s : State) : Host.Outcome State Fault Refusal := actLink p.link (phaseDone p.link p.inv) s

/-- STAY_TRAINING_TIMEOUT (R375, R379). -/
def execStayTrainingTimeout (k : Nat) (s : State) : Host.Outcome State Fault Refusal := actLink k (phaseTimeout k) s

/-- STAY_RETRY_INTERVAL (R375). -/
def execStayRetryInterval (k : Nat) (s : State) : Host.Outcome State Fault Refusal := actLink k (retryInterval k) s

/-- STAY_CREDIT_GRANT (R367). -/
def execStayCreditGrant (k : Nat) (s : State) : Host.Outcome State Fault Refusal := actLink k (grantCredits k) s

/-- STAY_LOCK_LOST (R375). -/
def execStayLockLost (k : Nat) (s : State) : Host.Outcome State Fault Refusal := actLink k (lockLost k) s

/-- STAY_CTL_REPEAT (R375). -/
def execStayCtlRepeat (k : Nat) (s : State) : Host.Outcome State Fault Refusal := actLink k (ctlRepeat k) s

/-- LINK_MAP (R373). -/
def execLinkMap (src : Nat) (data : List Byte) (s : State) : Host.Outcome State Fault Refusal := actLive (rxLinkMap src data) s

/-- LINK_MAP_TIMER (R372). -/
def execLinkMapTimer (s : State) : Host.Outcome State Fault Refusal := actLive sendLinkMap s

/-- LINK_MAP_SILENCE (R372, R373). -/
def execLinkMapSilenceEv (src : Nat) (s : State) : Host.Outcome State Fault Refusal :=
  actLive (fun s => if src < 72 then linkMapSilence src s else s) s

/-! ### Shroud packets (Table 16.2) -/

/-- CONNECT (R391). -/
def execShrConnect (src : ShrPeer) (packet : List Byte) (s : State) : Host.Outcome State Fault Refusal := actLive (shrArrive 1 src packet) s

/-- ACCEPT (R391). -/
def execShrAccept (src : ShrPeer) (packet : List Byte) (s : State) : Host.Outcome State Fault Refusal := actLive (shrArrive 2 src packet) s

/-- REQ (R400). -/
def execShrReq (src : ShrPeer) (packet : List Byte) (s : State) : Host.Outcome State Fault Refusal := actLive (shrArrive 3 src packet) s

/-- RESP (R411). -/
def execShrResp (src : ShrPeer) (packet : List Byte) (s : State) : Host.Outcome State Fault Refusal := actLive (shrArrive 4 src packet) s

/-- ACK (R398). -/
def execShrAck (src : ShrPeer) (packet : List Byte) (s : State) : Host.Outcome State Fault Refusal := actLive (shrArrive 5 src packet) s

/-- CLOSE (R391). -/
def execShrClose (src : ShrPeer) (packet : List Byte) (s : State) : Host.Outcome State Fault Refusal := actLive (shrArrive 6 src packet) s

/-- CLOSE_ACK (R391). -/
def execShrCloseAck (src : ShrPeer) (packet : List Byte) (s : State) : Host.Outcome State Fault Refusal := actLive (shrArrive 7 src packet) s

/-! ### Shroud operations at their target (Table 16.3), and timers -/

/-- READ (R404). -/
def execShrRead (c : Nat) (s : State) : Host.Outcome State Fault Refusal := actLive (runOldest 1 c) s

/-- WRITE (R401). -/
def execShrWrite (c : Nat) (s : State) : Host.Outcome State Fault Refusal := actLive (runOldest 2 c) s

/-- WRITE_SIG (R402). -/
def execShrWriteSig (c : Nat) (s : State) : Host.Outcome State Fault Refusal := actLive (runOldest 3 c) s

/-- FADD (R405). -/
def execShrFadd (c : Nat) (s : State) : Host.Outcome State Fault Refusal := actLive (runOldest 4 c) s

/-- MSG (R400). -/
def execShrMsg (c : Nat) (s : State) : Host.Outcome State Fault Refusal := actLive (runOldest 5 c) s

/-- SHR_OPERATION_POST (R411, R415, R419). -/
def execShrOperationPost (c : Nat) (p : ShrPost) (s : State) : Host.Outcome State Fault Refusal := actLive (opPost c p) s

/-- SHR_GATE_RELEASE (R419 - R421). -/
def execShrGateRelease (c : Nat) (s : State) : Host.Outcome State Fault Refusal := actLive (release c) s

/-- SHR_PAGE_PRESENT (R408). -/
def execShrPagePresent (page : Nat) (s : State) : Host.Outcome State Fault Refusal := actLive (pagePresent page) s

/-- SHR_RESEND_DELAY (R410). -/
def execShrResendDelay (c : Nat) (s : State) : Host.Outcome State Fault Refusal := actLive (resendDelay c) s

/-- SHR_RETRANSMIT_TIMER (R398). -/
def execShrRetransmitTimer (c psn : Nat) (s : State) : Host.Outcome State Fault Refusal := actLive (retransmit c psn) s

/-- SHR_ACK_TIMER (R397). -/
def execShrAckTimer (c : Nat) (s : State) : Host.Outcome State Fault Refusal := actLive (ackTimer c) s

/-- SHR_BROKEN_TIMEOUT (R399). -/
def execShrBrokenTimeout (c : Nat) (s : State) : Host.Outcome State Fault Refusal := actLive (brokenTimeout c) s

/-- SHR_OP_TIMEOUT (R413). -/
def execShrOpTimeout (c op : Nat) (s : State) : Host.Outcome State Fault Refusal := actLive (opTimeout c op) s

/-- SHR_CONNECT_RETRY (R391). -/
def execShrConnectRetry (c : Nat) (s : State) : Host.Outcome State Fault Refusal := actLive (connectRetry c) s

/-- SHR_CLOSE_RETRY (R391). -/
def execShrCloseRetry (c : Nat) (s : State) : Host.Outcome State Fault Refusal := actLive (closeRetry c) s

/-- SHR_CC_PERIOD (R417, R418). -/
def execShrCcPeriod (c : Nat) (s : State) : Host.Outcome State Fault Refusal := actLive (ccPeriod c) s

/-- SHR_PACED_SEND (R395, R416). -/
def execShrPacedSend (c : Nat) (s : State) : Host.Outcome State Fault Refusal := actLive (pacedSend c) s

/-! ### Trim and Ethernet -/

/-- TRIM_SELECT (R427 - R431). -/
def execTrimSelectEv (p : Nat) (s : State) : Host.Outcome State Fault Refusal := actLive (portSelect p) s

/-- TRIM_BUCKET_GAIN (R432). -/
def execTrimBucketGain (s : State) : Host.Outcome State Fault Refusal := actLive bucketGain s

/-- PFC_FRAME_RX (R443). -/
def execPfcFrameRx (p : Nat) (times : List (Nat × Nat)) (s : State) : Host.Outcome State Fault Refusal := actLive (pfcRx p times) s

/-- ETH_FRAME_RX (R444). -/
def execEthFrameRxEv (p prio n : Nat) (full uncorr : Bool) (s : State) : Host.Outcome State Fault Refusal :=
  actLive (ethFrameRx p prio n full uncorr) s

/-- PFC_REPEAT (R444). -/
def execPfcRepeatEv (p prio : Nat) (s : State) : Host.Outcome State Fault Refusal := actLive (pfcRepeat p prio) s

/-- PFC_PAUSE_EXPIRY (R443). -/
def execPfcPauseExpiry (p prio : Nat) (s : State) : Host.Outcome State Fault Refusal := actLive (pfcExpiry p prio) s

/-- ETHERNET_LINK_CHANGE (R428). -/
def execEthernetLinkChange (p : Nat) (up : Bool) (s : State) : Host.Outcome State Fault Refusal := actLive (ethLinkChange p up) s

/-! ### The NVMe port -/

/-- NVME_LINK_UP (R460, R462). -/
def execNvmeLinkUp (d : Nat) (lanes : PortLanes) (rate : Nat) (s : State) : Host.Outcome State Fault Refusal :=
  actLive (driveUpEv d lanes.width rate (lanes.inv.setWidth 8) lanes.rev) s

/-- An event of one of the two drives. -/
def actDrive (d : Nat) (f : State → State) (s : State) : Host.Outcome State Fault Refusal :=
  .next (if d < 2 && !halted s then settle (furlSettle (f s)) else s)

/-- NVME_CSTS_RDY (R462, R463). -/
def execNvmeCstsRdy (d : Nat) (set : Bool) (i : DriveInfo) (s : State) : Host.Outcome State Fault Refusal := actDrive d (driveRdy d set i) s

/-- NVME_CAP_TO_EXPIRY (R462). -/
def execNvmeCapToExpiry (d : Nat) (s : State) : Host.Outcome State Fault Refusal := actDrive d (driveLate d) s

/-- NVME_COMMAND_COMPLETION (R469, R471). -/
def execNvmeCommandCompletion (d cid : Nat) (r : NvResult) (s : State) : Host.Outcome State Fault Refusal := actDrive d (nvComplete d cid r) s

/-- NVME_RETRY_DELAY (R469). -/
def execNvmeRetryDelay (d cid : Nat) (s : State) : Host.Outcome State Fault Refusal := actDrive d (nvRetry d cid) s

/-- NVME_COMMAND_TIMEOUT (R468). -/
def execNvmeCommandTimeout (d cid : Nat) (s : State) : Host.Outcome State Fault Refusal := actDrive d (nvTimeout d cid) s

/-- NVME_CONTROLLER_FATAL (R462). -/
def execNvmeControllerFatal (d : Nat) (s : State) : Host.Outcome State Fault Refusal := actDrive d (driveFatal d) s

/-- NVME_LINK_DOWN (R470). -/
def execNvmeLinkDown (d : Nat) (s : State) : Host.Outcome State Fault Refusal := actDrive d (driveDown d) s

/-- NVME_DMA_REQUEST (R464, R465). -/
def execNvmeDmaRequest (d addr n : Nat) (s : State) : Host.Outcome State Fault Refusal := actDrive d (driveDma d addr n) s

/-- NVME_ASYNC_EVENT (R455). -/
def execNvmeAsyncEvent (d smart : Nat) (s : State) : Host.Outcome State Fault Refusal := actDrive d (driveAsync d smart) s

/-! ### The Bowsprit -/

/-- PLB_INBOUND_READ (R490, R491). -/
def execPlbInboundRead (addr be : Nat) (burst : Bool) (beats : Nat) (owner : Option Nat) (s : State) : Host.Outcome State Fault Refusal :=
  act (inboundRead addr be burst beats owner) s

/-- PLB_INBOUND_WRITE (R492). -/
def execPlbInboundWrite (addr be : Nat) (burst : Bool) (words : List Nat) (rd : Reads) (s : State) :
    Host.Outcome State Fault Refusal :=
  act (plbWrite addr be burst words rd) s

/-- PLB_DELAYED_FETCH_DONE (R491). -/
def execPlbDelayedFetchDone (i : Nat) (ok : Bool) (s : State) : Host.Outcome State Fault Refusal := actLive (fetchDone i ok) s

/-- PLB_DELAYED_READ_DISCARD (R494). -/
def execPlbDelayedReadDiscard (i : Nat) (s : State) : Host.Outcome State Fault Refusal := actLive (dreadDiscard i) s

/-- PLB_ARBITRATE (R478). -/
def execPlbArbitrate (req : Nat) (idle : Bool) (addressBy : Option Nat) (twoResponses : Bool) (cycles : Nat) (s : State) :
    Host.Outcome State Fault Refusal :=
  act (arbitrate req idle addressBy twoResponses cycles) s

/-- PLB_OUTBOUND_ACCESS (R484 - R488, R493). -/
def execPlbOutboundAccess (fw : Option PlbFw) (idle : Bool) (s : State) : Host.Outcome State Fault Refusal := actLive (outboundAccess fw idle) s

/-- PLB_GRANT_RECEIVED (R480). -/
def execPlbGrantReceived (idle : Bool) (s : State) : Host.Outcome State Fault Refusal := actLive (grantReceived idle) s

/-- PLB_TARGET_RESPONSE (R495). -/
def execPlbTargetResponse (r : PlbResp) (s : State) : Host.Outcome State Fault Refusal := act (targetResponse r) s

/-- PLB_RETRY_WAIT (R496). -/
def execPlbRetryWait (s : State) : Host.Outcome State Fault Refusal := actLive retryWait s

/-- PLB_NO_RESPONSE (R496). -/
def execPlbNoResponse (s : State) : Host.Outcome State Fault Refusal := act noResponse s

/-- PLB_GRANT_TIMEOUT (R496). -/
def execPlbGrantTimeout (s : State) : Host.Outcome State Fault Refusal := actLive grantTimeout s

/-- PLB_IRQ_ASSERT (R502). -/
def execPlbIrqAssert (n : Nat) (s : State) : Host.Outcome State Fault Refusal := act (irqAssert n) s

/-- PLB_IRQ_LEVEL_REPEAT (R502). -/
def execPlbIrqLevelRepeat (n : Nat) (s : State) : Host.Outcome State Fault Refusal := act (irqRepeat n) s

/-- PLB_IRQ_DEASSERT (R610). -/
def execPlbIrqDeassert (n : Nat) (s : State) : Host.Outcome State Fault Refusal := act (irqDeassert n) s

end Sys2Proof.Machine
end

