-- ==== Sys2Proof/Machine/StepsMgmt.lean ====
section
/-! DEFINITION. The meanings of the events of the security block's timer, SMB1, the test port, the time unit, the Ratline, the
persistent store and rack membership (spec/21, 24, 25). -/

namespace Sys2Proof.Machine

/-- DEBUG_NONCE_EXPIRY (R560). -/
def execDebugNonceExpiry (s : State) : Host.Outcome State Fault Refusal := act nonceExpiry s

/-! ### SMB1 as controller -/

/-- SMB1_POLL (R625 - R627). -/
def execSmb1Poll (addr : Nat) (r : Smb1Result) (s : State) : Host.Outcome State Fault Refusal := act (smb1Poll addr r) s

/-- SMB1_ARB_RETRY (R628). -/
def execSmb1ArbRetry (addr : Nat) (r : Smb1Result) (s : State) : Host.Outcome State Fault Refusal := act (smb1Retry addr r) s

/-! ### The test port (R636 - R638) -/

/-- JTAG_TAP_RESET (R637). -/
def execJtagTapReset (s : State) : Host.Outcome State Fault Refusal := .next (tapReset s)

/-- IDCODE (R636). -/
def execJtagIdcode (s : State) : Host.Outcome State Fault Refusal := .next (loadIr 0x01 false s)

/-- SAMPLE_PRELOAD (R636). -/
def execJtagSamplePreload (s : State) : Host.Outcome State Fault Refusal := .next (loadIr 0x02 false s)

/-- EXTEST (R638). -/
def execJtagExtest (s : State) : Host.Outcome State Fault Refusal := .next (loadIr 0x03 false s)

/-- EXTEST_PULSE (R638). -/
def execJtagExtestPulse (s : State) : Host.Outcome State Fault Refusal := .next (loadIr 0x04 false s)

/-- EXTEST_TRAIN (R638). -/
def execJtagExtestTrain (s : State) : Host.Outcome State Fault Refusal := .next (loadIr 0x05 false s)

/-- CLAMP (R638). -/
def execJtagClamp (s : State) : Host.Outcome State Fault Refusal := .next (loadIr 0x06 false s)

/-- HIGHZ (R638). -/
def execJtagHighz (s : State) : Host.Outcome State Fault Refusal := .next (loadIr 0x07 false s)

/-- DBG_STATUS (R636): its register shows `dbgStatus`. -/
def execJtagDbgStatus (s : State) : Host.Outcome State Fault Refusal := .next (loadIr 0x10 false s)

/-- PRIVATE_DEBUG_ACCESS (R557): codes 0x20 - 0x27, while the debug lock is OPEN. -/
def execJtagPrivateDebugAccess (ir : Nat) (s : State) : Host.Outcome State Fault Refusal :=
  .next (loadIr ir (decide (s.sec.lock = .opened)) s)

/-- BYPASS and every code that Table 24.3 does not list (R636). -/
def execJtagBypass (ir : Nat) (s : State) : Host.Outcome State Fault Refusal := .next (loadIr ir false s)

/-! ### The time unit (R639 - R647) -/

/-- SYNC (R644). -/
def execPtpSync (m : PtpMsg) (s : State) : Host.Outcome State Fault Refusal := act (ptpSync m) s

/-- FOLLOW_UP (R644). -/
def execPtpFollowUp (m : PtpMsg) (s : State) : Host.Outcome State Fault Refusal := act (ptpFollowUp m) s

/-- DELAY_RESP (R642 - R645). -/
def execPtpDelayResp (m : PtpMsg) (s : State) : Host.Outcome State Fault Refusal := act (ptpDelayResp m) s

/-- DELAY_REQ_TIMER (R644). -/
def execDelayReqTimer (s : State) : Host.Outcome State Fault Refusal := act delayReq s

/-- PPS_IN_EDGE (R642, R646). -/
def execPpsInEdge (lowNs : Nat) (s : State) : Host.Outcome State Fault Refusal := act (ppsIn lowNs) s

/-- PPS_OUT_PULSE (R647). -/
def execPpsOutPulse (s : State) : Host.Outcome State Fault Refusal := .next (ppsRise s)

/-- PPS_OUT_END (R647). -/
def execPpsOutEnd (s : State) : Host.Outcome State Fault Refusal := .next (ppsFall s)

/-- SYNCED_STALE (R645). -/
def execSyncedStale (s : State) : Host.Outcome State Fault Refusal := act syncedStale s

/-! ### The Ratline (R649 - R651) -/

/-- RATLINE_PERIODIC_ENTRY (R649). -/
def execRatlinePeriodicEntry (temp : Int) (s : State) : Host.Outcome State Fault Refusal := act (rlPeriodic temp) s

/-- ENTRY (R649). -/
def execRatlineEntry (frame : List Byte) (s : State) : Host.Outcome State Fault Refusal := act (rlRxEntry frame) s

/-- SWEEP (R649, R650). -/
def execRatlineSweepFrame (frame : List Byte) (temp : Int) (s : State) : Host.Outcome State Fault Refusal := act (rlRxSweep frame temp) s

/-- RATLINE_SWEEP_TIMEOUT (R650, R196). -/
def execRatlineSweepTimeout (s : State) : Host.Outcome State Fault Refusal := actLive rlSweepTimeout s

/-- RATLINE_ORPHAN_TIMEOUT (R651). -/
def execRatlineOrphanTimeout (s : State) : Host.Outcome State Fault Refusal := act rlOrphan s

/-! ### The persistent store (R653 - R658) -/

/-- In SAFE the flash operation that was issued completes, and the write goes no further. -/
def psLastOp (ok : Bool) (s : State) : State :=
  match s.ps.writing with
  | none => s
  | some w => { s with ps := { s.ps with slots := if ok then Tab.mod s.ps.slots (2 * w.record + b2n w.slotB) (psApply w) else s.ps.slots
                                         writing := none, waiting := [] } }

/-- PSTORE_FLASH_OP_DONE (R653, R655, R658). -/
def execPstoreFlashOpDone (ok : Bool) (s : State) : Host.Outcome State Fault Refusal :=
  .next (if s.dev.mode = .safe then psLastOp ok s else settle (psFlashDone ok s))

/-! ### Rack membership (R667 - R677) -/

/-- ANNOUNCE (R667, R673 - R676). -/
def execAnnounce (src : Nat) (msg : List Byte) (s : State) : Host.Outcome State Fault Refusal := actServe (rackArrive 1 src msg) s

/-- LEAVE (R674). -/
def execLeave (src : Nat) (msg : List Byte) (s : State) : Host.Outcome State Fault Refusal := actServe (rackArrive 2 src msg) s

/-- ANNOUNCE_TIMER (R671). -/
def execAnnounceTimerEv (s : State) : Host.Outcome State Fault Refusal := actServe announce s

/-- GRACE_EXPIRY (R668). -/
def execGraceExpiryEv (s : State) : Host.Outcome State Fault Refusal := actServe graceExpiry s

/-- ACTIVE_MEMBER_EXPIRY (R674). -/
def execActiveMemberExpiry (e : Nat) (s : State) : Host.Outcome State Fault Refusal := actServe (fun s => if e < 72 then annExpiry e s else s) s

/-- SYSTEM_CONN_EXPIRY (R676). -/
def execSystemConnExpiry (e : Nat) (s : State) : Host.Outcome State Fault Refusal := actServe (fun s => if e < 72 then sysExpiry e s else s) s

/-- RMU_LOST_TIMEOUT (R677). -/
def execRmuLostTimeout (s : State) : Host.Outcome State Fault Refusal := actServe rmuTimeout s

/-- OLD_EPOCH_WINDOW_EXPIRY (R674). -/
def execOldEpochWindowExpiry (s : State) : Host.Outcome State Fault Refusal := actServe oldEpochExpiry s

end Sys2Proof.Machine
end

