-- ==== Sys2Proof/Machine/TileVector.lean ====
section
/-! DEFINITION. Vector FP32, integer, packed BF16, move, reduction, predicate and conversion instructions
(Tables 9.7 - 9.9 and 9.12). -/

namespace Sys2Proof.Machine

/-- A row that maps lanes of vA. -/
def vec1 (f : W32 → W32) : Nat → Fields → State → Try :=
  regBody (fun x u => setV x.d x.pg (fun i => f (lane u x.a i)) u)

/-- A row that combines lanes of vA and vB. -/
def vec2 (f : W32 → W32 → W32) : Nat → Fields → State → Try :=
  regBody (fun x u => setV x.d x.pg (fun i => f (lane u x.a i) (lane u x.b i)) u)

/-- A row that combines lanes of vA, vB and vC. -/
def vec3 (f : W32 → W32 → W32 → W32) : Nat → Fields → State → Try :=
  regBody (fun x u => setV x.d x.pg (fun i => f (lane u x.a i) (lane u x.b i) (lane u x.c i)) u)

/-- A compare into pD. -/
def vecCmp (f : W32 → W32 → Bool) : Nat → Fields → State → Try :=
  regBody (fun x u => setPBits x.d x.pg (fun i => f (lane u x.a i) (lane u x.b i)) u)

/-- VCMP by IMM[1:0]. -/
def vcmpBody : Nat → Fields → State → Try :=
  regBody (fun x u => setPBits x.d x.pg (fun i =>
    let a := lane u x.a i
    let b := lane u x.b i
    if x.imm = 0 then a = b else if x.imm = 1 then decide (a.toInt < b.toInt) else decide (a.toNat < b.toNat)) u)

/-- VSEL. -/
def vselBody : Nat → Fields → State → Try :=
  regBody (fun x u => setV x.d 0 (fun i => if (pReg u x.c).getLsbD i then lane u x.a i else lane u x.b i) u)

/-- The bytes of a vector register from lane i on, n lanes. -/
def lanesBytes (u : Tile) (r : Nat) : Nat → Nat → List Byte
  | _, 0 => []
  | i, n + 1 => leBytes 4 (lane u r i).toNat ++ lanesBytes u r (i + 1) n

/-- Lane i of 256 bytes. -/
def byteLane (bs : List Byte) (i : Nat) : W32 := BitVec.ofNat 32 (fieldN bs (4 * i) 4)

/-- VLD (R212). -/
def vldBody (t : Nat) (x : Fields) (s : State) : Try :=
  let u := tileOf t s
  let o := accOff x u
  if !inTmem o 256 || o % 64 ≠ 0 then .fault 0x01 s
  else if sailWillWrite t o 256 s then .stall s
  else match tileRead t o 256 s with
    | (some bs, s1) => .adv (modTile t (setV x.d x.pg (byteLane bs)) s1)
    | (none, s1) => .fault 0x0B s1

/-- Store the active lanes below n. -/
def storeLanes (t o : Nat) (u : Tile) (r pg : Nat) : Nat → State → State
  | 0, s => s
  | n + 1, s =>
    let s1 := storeLanes t o u r pg n s
    if active u pg n then memWrite (tileBase t + o + 4 * n) (leBytes 4 (lane u r n).toNat) s1 else s1

/-- VST: an unguarded store writes the 256 bytes at once, so that whole codewords are written. -/
def vstBody (t : Nat) (x : Fields) (s : State) : Try :=
  let u := tileOf t s
  let o := accOff x u
  if !inTmem o 256 || o % 64 ≠ 0 then .fault 0x01 s
  else if storeWaits t o 256 s then .stall s
  else if x.pg = 0 then .adv (memWrite (tileBase t + o) (lanesBytes u x.b 0 64) s)
  else .adv (storeLanes t o u x.b x.pg 64 s)

/-- Adjacent pairs combined. -/
def pairUp (f : W32 → W32 → W32) : List W32 → List W32
  | a :: b :: r => f a b :: pairUp f r
  | r => r

/-- The fixed tree of six levels. -/
def tree (f : W32 → W32 → W32) : Nat → List W32 → List W32
  | 0, l => l
  | n + 1, l => tree f n (pairUp f l)

/-- Lanes 0 - 63 of a register as a list, `z` where inactive. -/
def activeOr (u : Tile) (r pg : Nat) (z : W32) : List W32 :=
  (List.range 64).map (fun i => if active u pg i then lane u r i else z)

/-- VRSUM: +0.0 for an inactive lane. -/
def vrsumBody : Nat → Fields → State → Try :=
  regBody (fun x u => setG x.d (BitVec.ofNat 64 (((tree fAdd 6 (activeOr u x.a x.pg 0)).headD 0).toNat)) u)

/-- The active lanes of a register. -/
def activeList (u : Tile) (r pg : Nat) : List W32 := ((List.range 64).filter (active u pg)).map (lane u r)

/-- A NaN result is 0x7FC0_0000. -/
def canon (x : W32) : W32 := if isNan x then nan32 else x

/-- VRMAX, VRMIN over the active lanes, with the value of no active lane. VFMAX and VFMIN give the same result in every order. -/
def vrExt (f : W32 → W32 → W32) (none_ : W32) : Nat → Fields → State → Try :=
  regBody (fun x u =>
    let r := match activeList u x.a x.pg with
      | [] => none_
      | a :: l => canon (l.foldl f a)
    setG x.d (BitVec.ofNat 64 r.toNat) u)

/-- PLOG by IMM[1:0]. -/
def plogBody : Nat → Fields → State → Try :=
  regBody (fun x u =>
    let a := pReg u x.a
    let b := pReg u x.b
    setP x.d (if x.imm = 0 then a &&& b else if x.imm = 1 then a ||| b else if x.imm = 2 then a ^^^ b else a &&& ~~~b) u)

/-- VINS: one lane of vD. -/
def vinsBody : Nat → Fields → State → Try :=
  regBody (fun x u => { u with v := Tab.put u.v (64 * x.d + (gReg u x.b).toNat % 64) ((gReg u x.a).setWidth 32) })

/-- VCVTFB: element k of the 128 inputs, vA then vB; elements 2i and 2i + 1 go to lane i. -/
def cvtfbBody : Nat → Fields → State → Try :=
  regBody (fun x u =>
    let e := fun k => cvtFB (if k < 64 then lane u x.a k else lane u x.b (k - 64))
    setV x.d x.pg (fun i => BitVec.ofNat 32 (e (2 * i) + e (2 * i + 1) * 2 ^ 16)) u)

/-- VCVTBF. -/
def cvtbfBody : Nat → Fields → State → Try :=
  regBody (fun x u => setV x.d x.pg (fun i => cvtBF (bitsN (lane u x.a i).toNat (16 * x.imm) 16)) u)

/-- Two VF4 codes per byte, the even element low (R289). -/
def packVf4 : List Nat → List Byte
  | a :: b :: r => BitVec.ofNat 8 (a + 16 * b) :: packVf4 r
  | _ => []

/-- The 256 bytes VQ8 or VQ4 writes (Table 12.4). -/
def quantBytes (f : Vf) (xs : List W32) (s2 : W32) : List Byte :=
  let (c0, q0) := quantise f (xs.take 32) s2
  let (c1, q1) := quantise f (xs.drop 32) s2
  match f with
  | .vf8 => padTo 256 ((q0 ++ q1).map (BitVec.ofNat 8) ++ [BitVec.ofNat 8 c0, BitVec.ofNat 8 c1])
  | .vf4 => padTo 256 (packVf4 (q0 ++ q1) ++ [BitVec.ofNat 8 c0, BitVec.ofNat 8 c1])

/-- VQ8, VQ4. -/
def quantBody (f : Vf) : Nat → Fields → State → Try :=
  regBody (fun x u =>
    let bs := quantBytes f ((List.range 64).map (lane u x.a)) ((gReg u x.b).setWidth 32)
    setV x.d 0 (byteLane bs) u)

/-- Element k of a register in the layout of Table 12.4, and the code of its block. -/
def vfElem (f : Vf) (bs : List Byte) (k : Nat) : Nat × Nat :=
  match f with
  | .vf8 => (fieldN bs k 1, fieldN bs (64 + k / 32) 1)
  | .vf4 => (bitsN (fieldN bs (k / 2) 1) (4 * (k % 2)) 4, fieldN bs (32 + k / 32) 1)

/-- VDQ8, VDQ4. -/
def dequantBody (f : Vf) : Nat → Fields → State → Try :=
  regBody (fun x u =>
    let bs := lanesBytes u x.a 0 64
    let s2 := (gReg u x.b).setWidth 32
    setV x.d 0 (fun k => dequantise f (vfElem f bs k).1 (vfElem f bs k).2 s2) u)

/-! ### Rows -/

/-- VFADD. -/
def execTVfadd (t : Nat) (s : State) : Host.Outcome State Fault Refusal :=
  .next (issue 0x50 (vec2 fAdd) t s)

/-- VFSUB. -/
def execTVfsub (t : Nat) (s : State) : Host.Outcome State Fault Refusal :=
  .next (issue 0x51 (vec2 fSub) t s)

/-- VFMUL. -/
def execTVfmul (t : Nat) (s : State) : Host.Outcome State Fault Refusal :=
  .next (issue 0x52 (vec2 fMul) t s)

/-- VFMA. -/
def execTVfma (t : Nat) (s : State) : Host.Outcome State Fault Refusal :=
  .next (issue 0x53 (vec3 fFma) t s)

/-- VFMIN. -/
def execTVfmin (t : Nat) (s : State) : Host.Outcome State Fault Refusal :=
  .next (issue 0x54 (vec2 fMin) t s)

/-- VFMAX. -/
def execTVfmax (t : Nat) (s : State) : Host.Outcome State Fault Refusal :=
  .next (issue 0x55 (vec2 fMax32) t s)

/-- VFABS. -/
def execTVfabs (t : Nat) (s : State) : Host.Outcome State Fault Refusal :=
  .next (issue 0x56 (vec1 fAbs) t s)

/-- VFNEG. -/
def execTVfneg (t : Nat) (s : State) : Host.Outcome State Fault Refusal :=
  .next (issue 0x57 (vec1 fNeg) t s)

/-- VRCP. -/
def execTVrcp (t : Nat) (s : State) : Host.Outcome State Fault Refusal :=
  .next (issue 0x58 (vec1 fRcp) t s)

/-- VRSQ. -/
def execTVrsq (t : Nat) (s : State) : Host.Outcome State Fault Refusal :=
  .next (issue 0x59 (vec1 fRsq) t s)

/-- VEXP2. -/
def execTVexp2 (t : Nat) (s : State) : Host.Outcome State Fault Refusal :=
  .next (issue 0x5A (vec1 fExp2) t s)

/-- VLOG2. -/
def execTVlog2 (t : Nat) (s : State) : Host.Outcome State Fault Refusal :=
  .next (issue 0x5B (vec1 fLog2) t s)

/-- VFCEQ. -/
def execTVfceq (t : Nat) (s : State) : Host.Outcome State Fault Refusal :=
  .next (issue 0x5C (vecCmp fEq) t s)

/-- VFCLT. -/
def execTVfclt (t : Nat) (s : State) : Host.Outcome State Fault Refusal :=
  .next (issue 0x5D (vecCmp fLt) t s)

/-- VFCLE. -/
def execTVfcle (t : Nat) (s : State) : Host.Outcome State Fault Refusal :=
  .next (issue 0x5E (vecCmp fLe) t s)

/-- VADD. -/
def execTVadd (t : Nat) (s : State) : Host.Outcome State Fault Refusal :=
  .next (issue 0x60 (vec2 (fun a b => a + b)) t s)

/-- VSUB. -/
def execTVsub (t : Nat) (s : State) : Host.Outcome State Fault Refusal :=
  .next (issue 0x61 (vec2 (fun a b => a - b)) t s)

/-- VMUL. -/
def execTVmul (t : Nat) (s : State) : Host.Outcome State Fault Refusal :=
  .next (issue 0x62 (vec2 (fun a b => a * b)) t s)

/-- VAND. -/
def execTVand (t : Nat) (s : State) : Host.Outcome State Fault Refusal :=
  .next (issue 0x63 (vec2 (fun a b => a &&& b)) t s)

/-- VOR. -/
def execTVor (t : Nat) (s : State) : Host.Outcome State Fault Refusal :=
  .next (issue 0x64 (vec2 (fun a b => a ||| b)) t s)

/-- VXOR. -/
def execTVxor (t : Nat) (s : State) : Host.Outcome State Fault Refusal :=
  .next (issue 0x65 (vec2 (fun a b => a ^^^ b)) t s)

/-- VSLL. -/
def execTVsll (t : Nat) (s : State) : Host.Outcome State Fault Refusal :=
  .next (issue 0x66 (vec2 (fun a b => a <<< (b.toNat % 32))) t s)

/-- VSRL. -/
def execTVsrl (t : Nat) (s : State) : Host.Outcome State Fault Refusal :=
  .next (issue 0x67 (vec2 (fun a b => a >>> (b.toNat % 32))) t s)

/-- VSRA. -/
def execTVsra (t : Nat) (s : State) : Host.Outcome State Fault Refusal :=
  .next (issue 0x68 (vec2 (fun a b => a.sshiftRight (b.toNat % 32))) t s)

/-- VMIN. -/
def execTVmin (t : Nat) (s : State) : Host.Outcome State Fault Refusal :=
  .next (issue 0x69 (vec2 (fun a b => if a.toInt ≤ b.toInt then a else b)) t s)

/-- VMAX. -/
def execTVmax (t : Nat) (s : State) : Host.Outcome State Fault Refusal :=
  .next (issue 0x6A (vec2 (fun a b => if a.toInt ≤ b.toInt then b else a)) t s)

/-- VCMP. -/
def execTVcmp (t : Nat) (s : State) : Host.Outcome State Fault Refusal :=
  .next (issue 0x6B (vcmpBody) t s)

/-- VBADD. -/
def execTVbadd (t : Nat) (s : State) : Host.Outcome State Fault Refusal :=
  .next (issue 0x6C (vec2 (bfLane bfAdd)) t s)

/-- VBMUL. -/
def execTVbmul (t : Nat) (s : State) : Host.Outcome State Fault Refusal :=
  .next (issue 0x6D (vec2 (bfLane bfMul)) t s)

/-- VBFMA. -/
def execTVbfma (t : Nat) (s : State) : Host.Outcome State Fault Refusal :=
  .next (issue 0x6E (vec3 (bfLane3 bfFma)) t s)

/-- VSEL. -/
def execTVsel (t : Nat) (s : State) : Host.Outcome State Fault Refusal :=
  .next (issue 0x6F (vselBody) t s)

/-- VLD. -/
def execTVld (t : Nat) (s : State) : Host.Outcome State Fault Refusal :=
  .next (issue 0x70 (vldBody) t s)

/-- VST. -/
def execTVst (t : Nat) (s : State) : Host.Outcome State Fault Refusal :=
  .next (issue 0x71 (vstBody) t s)

/-- VBCST. -/
def execTVbcst (t : Nat) (s : State) : Host.Outcome State Fault Refusal :=
  .next (issue 0x72 (regBody (fun x u => setV x.d x.pg (fun _ => (gReg u x.a).setWidth 32) u)) t s)

/-- VMOV. -/
def execTVmov (t : Nat) (s : State) : Host.Outcome State Fault Refusal :=
  .next (issue 0x73 (vec1 (fun a => a)) t s)

/-- VEXT. -/
def execTVext (t : Nat) (s : State) : Host.Outcome State Fault Refusal :=
  .next (issue 0x74 (regBody (fun x u => setG x.d (BitVec.ofNat 64 (lane u x.a ((gReg u x.b).toNat % 64)).toNat) u)) t s)

/-- VINS. -/
def execTVins (t : Nat) (s : State) : Host.Outcome State Fault Refusal :=
  .next (issue 0x75 (vinsBody) t s)

/-- VIOTA. -/
def execTViota (t : Nat) (s : State) : Host.Outcome State Fault Refusal :=
  .next (issue 0x76 (regBody (fun x u => setV x.d x.pg (fun i => BitVec.ofNat 32 i) u)) t s)

/-- VPERM. -/
def execTVperm (t : Nat) (s : State) : Host.Outcome State Fault Refusal :=
  .next (issue 0x77 (regBody (fun x u => setV x.d x.pg (fun i => lane u x.a ((lane u x.b i).toNat % 64)) u)) t s)

/-- VRSUM. -/
def execTVrsum (t : Nat) (s : State) : Host.Outcome State Fault Refusal :=
  .next (issue 0x78 (vrsumBody) t s)

/-- VRMAX. -/
def execTVrmax (t : Nat) (s : State) : Host.Outcome State Fault Refusal :=
  .next (issue 0x79 (vrExt fMax32 0xFF800000#32) t s)

/-- VRMIN. -/
def execTVrmin (t : Nat) (s : State) : Host.Outcome State Fault Refusal :=
  .next (issue 0x7A (vrExt fMin 0x7F800000#32) t s)

/-- PLOG. -/
def execTPlog (t : Nat) (s : State) : Host.Outcome State Fault Refusal :=
  .next (issue 0x7B (plogBody) t s)

/-- PNOT. -/
def execTPnot (t : Nat) (s : State) : Host.Outcome State Fault Refusal :=
  .next (issue 0x7C (regBody (fun x u => setP x.d (~~~(pReg u x.a)) u)) t s)

/-- PMOVG. -/
def execTPmovg (t : Nat) (s : State) : Host.Outcome State Fault Refusal :=
  .next (issue 0x7D (regBody (fun x u => setG x.d (pReg u x.a) u)) t s)

/-- PMOVP. -/
def execTPmovp (t : Nat) (s : State) : Host.Outcome State Fault Refusal :=
  .next (issue 0x7E (regBody (fun x u => setP x.d (gReg u x.a) u)) t s)

/-- PSET. -/
def execTPset (t : Nat) (s : State) : Host.Outcome State Fault Refusal :=
  .next (issue 0x7F (regBody (fun x u => setP x.d (if x.imm = 1 then BitVec.allOnes 64 else 0) u)) t s)

/-- VCVTFB. -/
def execTVcvtfb (t : Nat) (s : State) : Host.Outcome State Fault Refusal :=
  .next (issue 0x80 (cvtfbBody) t s)

/-- VCVTBF. -/
def execTVcvtbf (t : Nat) (s : State) : Host.Outcome State Fault Refusal :=
  .next (issue 0x81 (cvtbfBody) t s)

/-- VCVTFI. -/
def execTVcvtfi (t : Nat) (s : State) : Host.Outcome State Fault Refusal :=
  .next (issue 0x82 (vec1 cvtFI) t s)

/-- VCVTIF. -/
def execTVcvtif (t : Nat) (s : State) : Host.Outcome State Fault Refusal :=
  .next (issue 0x83 (vec1 cvtIF) t s)

/-- VQ8. -/
def execTVq8 (t : Nat) (s : State) : Host.Outcome State Fault Refusal :=
  .next (issue 0x88 (quantBody .vf8) t s)

/-- VQ4. -/
def execTVq4 (t : Nat) (s : State) : Host.Outcome State Fault Refusal :=
  .next (issue 0x89 (quantBody .vf4) t s)

/-- VDQ8. -/
def execTVdq8 (t : Nat) (s : State) : Host.Outcome State Fault Refusal :=
  .next (issue 0x8A (dequantBody .vf8) t s)

/-- VDQ4. -/
def execTVdq4 (t : Nat) (s : State) : Host.Outcome State Fault Refusal :=
  .next (issue 0x8B (dequantBody .vf4) t s)

end Sys2Proof.Machine
end

