-- ==== Sys2Proof/Machine/Dispatch.lean ====
section
/-! DEFINITION. The meaning of every command and event: one arm per row of spec/opcode_table.json. -/

namespace Sys2Proof.Machine

/-- The effect of one command or event on everything but the queue. -/
def exec (i : Instr) (s : State) : Host.Outcome State Fault Refusal :=
  match i with
  | .powerOnReset => Sys2Proof.Machine.execPowerOnReset s
  | .sysRstNLow => Sys2Proof.Machine.execSysRstNLow s
  | .strapSample levels => Sys2Proof.Machine.execStrapSample levels s
  | .coldResetRelease locked => Sys2Proof.Machine.execColdResetRelease locked s
  | .pllLockTimeout => Sys2Proof.Machine.execPllLockTimeout s
  | .bootStageDone r => Sys2Proof.Machine.execBootStageDone r s
  | .bootStageTimeout aclk => Sys2Proof.Machine.execBootStageTimeout aclk s
  | .pcieReset cause => Sys2Proof.Machine.execPcieReset cause s
  | .perstNRelease => Sys2Proof.Machine.execPerstNRelease s
  | .pwrFailNFall cycles => Sys2Proof.Machine.execPwrFailNFall cycles s
  | .pwrFailNRecovery => Sys2Proof.Machine.execPwrFailNRecovery s
  | .referenceLoss c => Sys2Proof.Machine.execReferenceLoss c s
  | .referenceReturn c => Sys2Proof.Machine.execReferenceReturn c s
  | .thermalTrip die => Sys2Proof.Machine.execThermalTrip die s
  | .railOutOfRange rail => Sys2Proof.Machine.execRailOutOfRange rail s
  | .desiredPointChange die => Sys2Proof.Machine.execDesiredPointChange die s
  | .yclkSwitchDone die => Sys2Proof.Machine.execYclkSwitchDone die s
  | .avsStatusRead die vdone => Sys2Proof.Machine.execAvsStatusRead die vdone s
  | .avsPoll die r => Sys2Proof.Machine.execAvsPoll die r s
  | .avsSlewTimeout die => Sys2Proof.Machine.execAvsSlewTimeout die s
  | .settleTimer die => Sys2Proof.Machine.execSettleTimer die s
  | .avsFrameError die => Sys2Proof.Machine.execAvsFrameError die s
  | .adaptiveLoopPeriod die steps => Sys2Proof.Machine.execAdaptiveLoopPeriod die steps s
  | .limiterPeriod => Sys2Proof.Machine.execLimiterPeriod s
  | .heartbeatTick => Sys2Proof.Machine.execHeartbeatTick s
  | .bar0RegisterWrite fn off bytes v => Sys2Proof.Machine.execBar0RegisterWrite fn off bytes v s
  | .bar0UnmappedAccess fn off write => Sys2Proof.Machine.execBar0UnmappedAccess fn off write s
  | .w1cWrite fn off v recur => Sys2Proof.Machine.execW1cWrite fn off v recur s
  | .ttStickyWrite fn off v recur => Sys2Proof.Machine.execTtStickyWrite fn off v recur s
  | .todNsRead fn => Sys2Proof.Machine.execTodNsRead fn s
  | .todSetNs fn v => Sys2Proof.Machine.execTodSetNs fn v s
  | .todStep fn v => Sys2Proof.Machine.execTodStep fn v s
  | .todAdjPpb fn v => Sys2Proof.Machine.execTodAdjPpb fn v s
  | .enable fn m v => Sys2Proof.Machine.execEnable fn m v s
  | .sqTail fn m v => Sys2Proof.Machine.execSqTail fn m v s
  | .cqHead fn m v => Sys2Proof.Machine.execCqHead fn m v s
  | .inlineGo fn v rd => Sys2Proof.Machine.execInlineGo fn v rd s
  | .funcValidated f => Sys2Proof.Machine.execFuncValidated f s
  | .funcDrained f => Sys2Proof.Machine.execFuncDrained f s
  | .mailboxFetch m entries => Sys2Proof.Machine.execMailboxFetch m entries s
  | .completionPost m n ok => Sys2Proof.Machine.execCompletionPost m n ok s
  | .commandTimeout m seq => Sys2Proof.Machine.execCommandTimeout m seq s
  | .lateResult m seq => Sys2Proof.Machine.execLateResult m seq s
  | .smb0BlockWrite packet pecOk rd => Sys2Proof.Machine.execSmb0BlockWrite packet pecOk rd s
  | .smb0BlockRead => Sys2Proof.Machine.execSmb0BlockRead s
  | .alertResponseAddress => Sys2Proof.Machine.execAlertResponseAddress s
  | .smb0TargetReset => Sys2Proof.Machine.execSmb0TargetReset s
  | .setEndpointId eid => Sys2Proof.Machine.execSetEndpointId eid s
  | .getEndpointId => Sys2Proof.Machine.execGetEndpointId s
  | .getMctpVersionSupport mtype => Sys2Proof.Machine.execGetMctpVersionSupport mtype s
  | .getMessageTypeSupport => Sys2Proof.Machine.execGetMessageTypeSupport s
  | .pmbGo v rd => Sys2Proof.Machine.execPmbGo v rd s
  | .consoleLine line rd => Sys2Proof.Machine.execConsoleLine line rd s
  | .uartCharacterRx samples lowBits rd => Sys2Proof.Machine.execUartCharacterRx samples lowBits rd s
  | .readiness c => Sys2Proof.Machine.execReadiness c s
  | .identity c => Sys2Proof.Machine.execIdentity c s
  | .sessionOpen c => Sys2Proof.Machine.execSessionOpen c s
  | .sessionClose c => Sys2Proof.Machine.execSessionClose c s
  | .vfBind c => Sys2Proof.Machine.execVfBind c s
  | .deviceReset c => Sys2Proof.Machine.execDeviceReset c s
  | .funcStart c => Sys2Proof.Machine.execFuncStart c s
  | .funcStop c => Sys2Proof.Machine.execFuncStop c s
  | .statsRead c => Sys2Proof.Machine.execStatsRead c s
  | .powerPolicy c => Sys2Proof.Machine.execPowerPolicy c s
  | .powerStatus c => Sys2Proof.Machine.execPowerStatus c s
  | .hostLoad c => Sys2Proof.Machine.execHostLoad c s
  | .ctxAlloc c => Sys2Proof.Machine.execCtxAlloc c s
  | .ctxFree c => Sys2Proof.Machine.execCtxFree c s
  | .ctxQuery c => Sys2Proof.Machine.execCtxQuery c s
  | .memAlloc c => Sys2Proof.Machine.execMemAlloc c s
  | .memFree c => Sys2Proof.Machine.execMemFree c s
  | .memCopy c => Sys2Proof.Machine.execMemCopy c s
  | .apertureSet c => Sys2Proof.Machine.execApertureSet c s
  | .nvmeCfg c => Sys2Proof.Machine.execNvmeCfg c s
  | .modelLoad c => Sys2Proof.Machine.execModelLoad c s
  | .modelUnload c => Sys2Proof.Machine.execModelUnload c s
  | .weightsLoad c => Sys2Proof.Machine.execWeightsLoad c s
  | .submit c => Sys2Proof.Machine.execSubmit c s
  | .submitCancel c => Sys2Proof.Machine.execSubmitCancel c s
  | .furlDomainCfg c => Sys2Proof.Machine.execFurlDomainCfg c s
  | .furlPin c => Sys2Proof.Machine.execFurlPin c s
  | .furlUnpin c => Sys2Proof.Machine.execFurlUnpin c s
  | .furlEvictCfg c => Sys2Proof.Machine.execFurlEvictCfg c s
  | .furlPurge c => Sys2Proof.Machine.execFurlPurge c s
  | .furlProbe c => Sys2Proof.Machine.execFurlProbe c s
  | .shrConnOpen c => Sys2Proof.Machine.execShrConnOpen c s
  | .shrConnClose c => Sys2Proof.Machine.execShrConnClose c s
  | .shrConnTimeout c => Sys2Proof.Machine.execShrConnTimeout c s
  | .shrMap c => Sys2Proof.Machine.execShrMap c s
  | .shrUnmap c => Sys2Proof.Machine.execShrUnmap c s
  | .shrCcCfg c => Sys2Proof.Machine.execShrCcCfg c s
  | .trimMode c => Sys2Proof.Machine.execTrimMode c s
  | .trimShaper c => Sys2Proof.Machine.execTrimShaper c s
  | .trimPolicer c => Sys2Proof.Machine.execTrimPolicer c s
  | .frameCtxCfg c => Sys2Proof.Machine.execFrameCtxCfg c s
  | .frameCtxFree c => Sys2Proof.Machine.execFrameCtxFree c s
  | .frameRc c => Sys2Proof.Machine.execFrameRc c s
  | .frameRoi c => Sys2Proof.Machine.execFrameRoi c s
  | .frameSubmit c => Sys2Proof.Machine.execFrameSubmit c s
  | .reefCfg c => Sys2Proof.Machine.execReefCfg c s
  | .reefSnapshot c => Sys2Proof.Machine.execReefSnapshot c s
  | .reefEvacuate c => Sys2Proof.Machine.execReefEvacuate c s
  | .reefRestore c => Sys2Proof.Machine.execReefRestore c s
  | .reefStatus c => Sys2Proof.Machine.execReefStatus c s
  | .ttSeverity c => Sys2Proof.Machine.execTtSeverity c s
  | .ttRead c => Sys2Proof.Machine.execTtRead c s
  | .ttClear c => Sys2Proof.Machine.execTtClear c s
  | .timeSource c => Sys2Proof.Machine.execTimeSource c s
  | .timeStatus c => Sys2Proof.Machine.execTimeStatus c s
  | .secKeySet c => Sys2Proof.Machine.execSecKeySet c s
  | .secKeyDestroy c => Sys2Proof.Machine.execSecKeyDestroy c s
  | .fwUpdate c => Sys2Proof.Machine.execFwUpdate c s
  | .measure c => Sys2Proof.Machine.execMeasure c s
  | .debugChallenge c => Sys2Proof.Machine.execDebugChallenge c s
  | .debugUnlock c => Sys2Proof.Machine.execDebugUnlock c s
  | .debugLock c => Sys2Proof.Machine.execDebugLock c s
  | .plbWindow c => Sys2Proof.Machine.execPlbWindow c s
  | .plbAccess c => Sys2Proof.Machine.execPlbAccess c s
  | .plbIrqRoute c => Sys2Proof.Machine.execPlbIrqRoute c s
  | .plbArbCfg c => Sys2Proof.Machine.execPlbArbCfg c s
  | .sensorRead c => Sys2Proof.Machine.execSensorRead c s
  | .ratlineSweep c => Sys2Proof.Machine.execRatlineSweep c s
  | .gpioCfg c => Sys2Proof.Machine.execGpioCfg c s
  | .consoleCfg c => Sys2Proof.Machine.execConsoleCfg c s
  | .pstoreRead c => Sys2Proof.Machine.execPstoreRead c s
  | .pstoreWrite c => Sys2Proof.Machine.execPstoreWrite c s
  | .rackEpoch c => Sys2Proof.Machine.execRackEpoch c s
  | .rackStatus c => Sys2Proof.Machine.execRackStatus c s
  | .submitDeadline c => Sys2Proof.Machine.execSubmitDeadline c s
  | .stepBoundary b => Sys2Proof.Machine.execStepBoundary b s
  | .decodeStart c => Sys2Proof.Machine.execDecodeStart c s
  | .dispatchBind b => Sys2Proof.Machine.execDispatchBind b s
  | .dispatchEnd d => Sys2Proof.Machine.execDispatchEnd d s
  | .dispatchHalt d => Sys2Proof.Machine.execDispatchHalt d s
  | .halyardDrainLimit d => Sys2Proof.Machine.execHalyardDrainLimit d s
  | .tileProgramEnd t => Sys2Proof.Machine.execTileProgramEnd t s
  | .stallWatchdog t => Sys2Proof.Machine.execStallWatchdog t s
  | .tileReservedOpcode t => Sys2Proof.Machine.execTileReservedOpcode t s
  | .tNop t => Sys2Proof.Machine.execTNop t s
  | .tEnd t => Sys2Proof.Machine.execTEnd t s
  | .tBr t => Sys2Proof.Machine.execTBr t s
  | .tBeq t => Sys2Proof.Machine.execTBeq t s
  | .tBne t => Sys2Proof.Machine.execTBne t s
  | .tBlt t => Sys2Proof.Machine.execTBlt t s
  | .tBge t => Sys2Proof.Machine.execTBge t s
  | .tBltu t => Sys2Proof.Machine.execTBltu t s
  | .tBgeu t => Sys2Proof.Machine.execTBgeu t s
  | .tJal t => Sys2Proof.Machine.execTJal t s
  | .tJr t => Sys2Proof.Machine.execTJr t s
  | .tBpany t => Sys2Proof.Machine.execTBpany t s
  | .tBpnone t => Sys2Proof.Machine.execTBpnone t s
  | .tAdd t => Sys2Proof.Machine.execTAdd t s
  | .tSub t => Sys2Proof.Machine.execTSub t s
  | .tMul t => Sys2Proof.Machine.execTMul t s
  | .tMulhu t => Sys2Proof.Machine.execTMulhu t s
  | .tMulh t => Sys2Proof.Machine.execTMulh t s
  | .tDiv t => Sys2Proof.Machine.execTDiv t s
  | .tDivu t => Sys2Proof.Machine.execTDivu t s
  | .tRem t => Sys2Proof.Machine.execTRem t s
  | .tRemu t => Sys2Proof.Machine.execTRemu t s
  | .tAnd t => Sys2Proof.Machine.execTAnd t s
  | .tOr t => Sys2Proof.Machine.execTOr t s
  | .tXor t => Sys2Proof.Machine.execTXor t s
  | .tSll t => Sys2Proof.Machine.execTSll t s
  | .tSrl t => Sys2Proof.Machine.execTSrl t s
  | .tSra t => Sys2Proof.Machine.execTSra t s
  | .tSlt t => Sys2Proof.Machine.execTSlt t s
  | .tSltu t => Sys2Proof.Machine.execTSltu t s
  | .tMin t => Sys2Proof.Machine.execTMin t s
  | .tMax t => Sys2Proof.Machine.execTMax t s
  | .tMinu t => Sys2Proof.Machine.execTMinu t s
  | .tMaxu t => Sys2Proof.Machine.execTMaxu t s
  | .tLi t => Sys2Proof.Machine.execTLi t s
  | .tLih t => Sys2Proof.Machine.execTLih t s
  | .tAddi t => Sys2Proof.Machine.execTAddi t s
  | .tSlti t => Sys2Proof.Machine.execTSlti t s
  | .tAndi t => Sys2Proof.Machine.execTAndi t s
  | .tOri t => Sys2Proof.Machine.execTOri t s
  | .tXori t => Sys2Proof.Machine.execTXori t s
  | .tSlli t => Sys2Proof.Machine.execTSlli t s
  | .tSrli t => Sys2Proof.Machine.execTSrli t s
  | .tSrai t => Sys2Proof.Machine.execTSrai t s
  | .tLb t => Sys2Proof.Machine.execTLb t s
  | .tLbu t => Sys2Proof.Machine.execTLbu t s
  | .tLh t => Sys2Proof.Machine.execTLh t s
  | .tLhu t => Sys2Proof.Machine.execTLhu t s
  | .tLw t => Sys2Proof.Machine.execTLw t s
  | .tLwu t => Sys2Proof.Machine.execTLwu t s
  | .tLd t => Sys2Proof.Machine.execTLd t s
  | .tSb t => Sys2Proof.Machine.execTSb t s
  | .tSh t => Sys2Proof.Machine.execTSh t s
  | .tSw t => Sys2Proof.Machine.execTSw t s
  | .tSd t => Sys2Proof.Machine.execTSd t s
  | .tVfadd t => Sys2Proof.Machine.execTVfadd t s
  | .tVfsub t => Sys2Proof.Machine.execTVfsub t s
  | .tVfmul t => Sys2Proof.Machine.execTVfmul t s
  | .tVfma t => Sys2Proof.Machine.execTVfma t s
  | .tVfmin t => Sys2Proof.Machine.execTVfmin t s
  | .tVfmax t => Sys2Proof.Machine.execTVfmax t s
  | .tVfabs t => Sys2Proof.Machine.execTVfabs t s
  | .tVfneg t => Sys2Proof.Machine.execTVfneg t s
  | .tVrcp t => Sys2Proof.Machine.execTVrcp t s
  | .tVrsq t => Sys2Proof.Machine.execTVrsq t s
  | .tVexp2 t => Sys2Proof.Machine.execTVexp2 t s
  | .tVlog2 t => Sys2Proof.Machine.execTVlog2 t s
  | .tVfceq t => Sys2Proof.Machine.execTVfceq t s
  | .tVfclt t => Sys2Proof.Machine.execTVfclt t s
  | .tVfcle t => Sys2Proof.Machine.execTVfcle t s
  | .tVadd t => Sys2Proof.Machine.execTVadd t s
  | .tVsub t => Sys2Proof.Machine.execTVsub t s
  | .tVmul t => Sys2Proof.Machine.execTVmul t s
  | .tVand t => Sys2Proof.Machine.execTVand t s
  | .tVor t => Sys2Proof.Machine.execTVor t s
  | .tVxor t => Sys2Proof.Machine.execTVxor t s
  | .tVsll t => Sys2Proof.Machine.execTVsll t s
  | .tVsrl t => Sys2Proof.Machine.execTVsrl t s
  | .tVsra t => Sys2Proof.Machine.execTVsra t s
  | .tVmin t => Sys2Proof.Machine.execTVmin t s
  | .tVmax t => Sys2Proof.Machine.execTVmax t s
  | .tVcmp t => Sys2Proof.Machine.execTVcmp t s
  | .tVbadd t => Sys2Proof.Machine.execTVbadd t s
  | .tVbmul t => Sys2Proof.Machine.execTVbmul t s
  | .tVbfma t => Sys2Proof.Machine.execTVbfma t s
  | .tVsel t => Sys2Proof.Machine.execTVsel t s
  | .tVld t => Sys2Proof.Machine.execTVld t s
  | .tVst t => Sys2Proof.Machine.execTVst t s
  | .tVbcst t => Sys2Proof.Machine.execTVbcst t s
  | .tVmov t => Sys2Proof.Machine.execTVmov t s
  | .tVext t => Sys2Proof.Machine.execTVext t s
  | .tVins t => Sys2Proof.Machine.execTVins t s
  | .tViota t => Sys2Proof.Machine.execTViota t s
  | .tVperm t => Sys2Proof.Machine.execTVperm t s
  | .tVrsum t => Sys2Proof.Machine.execTVrsum t s
  | .tVrmax t => Sys2Proof.Machine.execTVrmax t s
  | .tVrmin t => Sys2Proof.Machine.execTVrmin t s
  | .tPlog t => Sys2Proof.Machine.execTPlog t s
  | .tPnot t => Sys2Proof.Machine.execTPnot t s
  | .tPmovg t => Sys2Proof.Machine.execTPmovg t s
  | .tPmovp t => Sys2Proof.Machine.execTPmovp t s
  | .tPset t => Sys2Proof.Machine.execTPset t s
  | .tVcvtfb t => Sys2Proof.Machine.execTVcvtfb t s
  | .tVcvtbf t => Sys2Proof.Machine.execTVcvtbf t s
  | .tVcvtfi t => Sys2Proof.Machine.execTVcvtfi t s
  | .tVcvtif t => Sys2Proof.Machine.execTVcvtif t s
  | .tVq8 t => Sys2Proof.Machine.execTVq8 t s
  | .tVq4 t => Sys2Proof.Machine.execTVq4 t s
  | .tVdq8 t => Sys2Proof.Machine.execTVdq8 t s
  | .tVdq4 t => Sys2Proof.Machine.execTVdq4 t s
  | .tSmma t => Sys2Proof.Machine.execTSmma t s
  | .tSscl t => Sys2Proof.Machine.execTSscl t s
  | .tSzero t => Sys2Proof.Machine.execTSzero t s
  | .tSdrain t => Sys2Proof.Machine.execTSdrain t s
  | .sailExecute r => Sys2Proof.Machine.execSailExecute r s
  | .sailDrainDone t => Sys2Proof.Machine.execSailDrainDone t s
  | .tShpop t => Sys2Proof.Machine.execTShpop t s
  | .tShpopnw t => Sys2Proof.Machine.execTShpopnw t s
  | .tShpush t => Sys2Proof.Machine.execTShpush t s
  | .tShpushnw t => Sys2Proof.Machine.execTShpushnw t s
  | .tShmark t => Sys2Proof.Machine.execTShmark t s
  | .tShrwd t => Sys2Proof.Machine.execTShrwd t s
  | .tShrel t => Sys2Proof.Machine.execTShrel t s
  | .tShrelr t => Sys2Proof.Machine.execTShrelr t s
  | .tShlvl t => Sys2Proof.Machine.execTShlvl t s
  | .tShcrd t => Sys2Proof.Machine.execTShcrd t s
  | .tShfill t => Sys2Proof.Machine.execTShfill t s
  | .tShce t => Sys2Proof.Machine.execTShce t s
  | .tClsig t => Sys2Proof.Machine.execTClsig t s
  | .tClwait t => Sys2Proof.Machine.execTClwait t s
  | .tClrd t => Sys2Proof.Machine.execTClrd t s
  | .tClset t => Sys2Proof.Machine.execTClset t s
  | .tCsrr t => Sys2Proof.Machine.execTCsrr t s
  | .tCsrw t => Sys2Proof.Machine.execTCsrw t s
  | .cleatSignal n => Sys2Proof.Machine.execCleatSignal n s
  | .cleatWaitRelease halyard n => Sys2Proof.Machine.execCleatWaitRelease halyard n s
  | .hHalyardEnd h => Sys2Proof.Machine.execHHalyardEnd h s
  | .hStreamIn h => Sys2Proof.Machine.execHStreamIn h s
  | .hStreamOut h => Sys2Proof.Machine.execHStreamOut h s
  | .hTileIn h => Sys2Proof.Machine.execHTileIn h s
  | .hTileOut h => Sys2Proof.Machine.execHTileOut h s
  | .hCopy h => Sys2Proof.Machine.execHCopy h s
  | .hSignal h => Sys2Proof.Machine.execHSignal h s
  | .hWait h => Sys2Proof.Machine.execHWait h s
  | .hLoop h => Sys2Proof.Machine.execHLoop h s
  | .halyardReadData h k ups => Sys2Proof.Machine.execHalyardReadData h k ups s
  | .descriptorComplete h k => Sys2Proof.Machine.execDescriptorComplete h k s
  | .hbmWriteBack w => Sys2Proof.Machine.execHbmWriteBack w s
  | .hbmRefresh stack => Sys2Proof.Machine.execHbmRefresh stack s
  | .hbmScrub w upset => Sys2Proof.Machine.execHbmScrub w upset s
  | .bar2Read fn off rd => Sys2Proof.Machine.execBar2Read fn off rd s
  | .bar2Write fn off bytes => Sys2Proof.Machine.execBar2Write fn off bytes s
  | .poisonedWriteRx fn bar => Sys2Proof.Machine.execPoisonedWriteRx fn bar s
  | .furlLookup src key parent tag pdom toks ctx offer mode => Sys2Proof.Machine.execFurlLookup src key parent tag pdom toks ctx offer mode s
  | .furlAnswer src key code locDev nvme locAddr child n ups => Sys2Proof.Machine.execFurlAnswer src key code locDev nvme locAddr child n ups s
  | .furlUnhold src key => Sys2Proof.Machine.execFurlUnhold src key s
  | .furlAbandon src key ctx => Sys2Proof.Machine.execFurlAbandon src key ctx s
  | .furlRenew src keys => Sys2Proof.Machine.execFurlRenew src keys s
  | .furlRenewTimer => Sys2Proof.Machine.execFurlRenewTimer s
  | .furlPublish src key => Sys2Proof.Machine.execFurlPublish src key s
  | .furlChild parent key => Sys2Proof.Machine.execFurlChild parent key s
  | .furlNotify src key ev locDev locAddr ctx => Sys2Proof.Machine.execFurlNotify src key ev locDev locAddr ctx s
  | .furlLeaseExpiry e => Sys2Proof.Machine.execFurlLeaseExpiry e s
  | .furlEvict src key op => Sys2Proof.Machine.execFurlEvict src key op s
  | .furlEvictAck src key op granted => Sys2Proof.Machine.execFurlEvictAck src key op granted s
  | .furlRestore src key own => Sys2Proof.Machine.execFurlRestore src key own s
  | .furlMoved src key nvme locAddr => Sys2Proof.Machine.execFurlMoved src key nvme locAddr s
  | .furlOrphanHold src key hold => Sys2Proof.Machine.execFurlOrphanHold src key hold s
  | .furlEvictionStart => Sys2Proof.Machine.execFurlEvictionStart s
  | .stayFlitRx k flit corr badCw uncorr => Sys2Proof.Machine.execStayFlitRx k flit corr badCw uncorr s
  | .stayReplayTimeout k => Sys2Proof.Machine.execStayReplayTimeout k s
  | .stayRetryBudgetExpiry k => Sys2Proof.Machine.execStayRetryBudgetExpiry k s
  | .stayPacketSend dest vc proto flow data sys => Sys2Proof.Machine.execStayPacketSend dest vc proto flow data sys s
  | .stayInit k role node port => Sys2Proof.Machine.execStayInit k role node port s
  | .stayResync k => Sys2Proof.Machine.execStayResync k s
  | .stayResyncAck k => Sys2Proof.Machine.execStayResyncAck k s
  | .stayResyncTimeout k => Sys2Proof.Machine.execStayResyncTimeout k s
  | .stayTrainingPhaseDone p => Sys2Proof.Machine.execStayTrainingPhaseDone p s
  | .stayTrainingTimeout k => Sys2Proof.Machine.execStayTrainingTimeout k s
  | .stayRetryInterval k => Sys2Proof.Machine.execStayRetryInterval k s
  | .stayCreditGrant k => Sys2Proof.Machine.execStayCreditGrant k s
  | .linkMap src data => Sys2Proof.Machine.execLinkMap src data s
  | .linkMapTimer => Sys2Proof.Machine.execLinkMapTimer s
  | .linkMapSilenceEv src => Sys2Proof.Machine.execLinkMapSilenceEv src s
  | .shrConnect src packet => Sys2Proof.Machine.execShrConnect src packet s
  | .shrAccept src packet => Sys2Proof.Machine.execShrAccept src packet s
  | .shrReq src packet => Sys2Proof.Machine.execShrReq src packet s
  | .shrResp src packet => Sys2Proof.Machine.execShrResp src packet s
  | .shrAck src packet => Sys2Proof.Machine.execShrAck src packet s
  | .shrClose src packet => Sys2Proof.Machine.execShrClose src packet s
  | .shrCloseAck src packet => Sys2Proof.Machine.execShrCloseAck src packet s
  | .shrRead c => Sys2Proof.Machine.execShrRead c s
  | .shrWrite c => Sys2Proof.Machine.execShrWrite c s
  | .shrWriteSig c => Sys2Proof.Machine.execShrWriteSig c s
  | .shrFadd c => Sys2Proof.Machine.execShrFadd c s
  | .shrMsg c => Sys2Proof.Machine.execShrMsg c s
  | .shrOperationPost c p => Sys2Proof.Machine.execShrOperationPost c p s
  | .shrGateRelease c => Sys2Proof.Machine.execShrGateRelease c s
  | .shrPagePresent page => Sys2Proof.Machine.execShrPagePresent page s
  | .shrResendDelay c => Sys2Proof.Machine.execShrResendDelay c s
  | .shrRetransmitTimer c psn => Sys2Proof.Machine.execShrRetransmitTimer c psn s
  | .shrAckTimer c => Sys2Proof.Machine.execShrAckTimer c s
  | .shrBrokenTimeout c => Sys2Proof.Machine.execShrBrokenTimeout c s
  | .shrOpTimeout c op => Sys2Proof.Machine.execShrOpTimeout c op s
  | .shrConnectRetry c => Sys2Proof.Machine.execShrConnectRetry c s
  | .shrCloseRetry c => Sys2Proof.Machine.execShrCloseRetry c s
  | .shrCcPeriod c => Sys2Proof.Machine.execShrCcPeriod c s
  | .trimSelectEv p => Sys2Proof.Machine.execTrimSelectEv p s
  | .trimBucketGain => Sys2Proof.Machine.execTrimBucketGain s
  | .pfcFrameRx p times => Sys2Proof.Machine.execPfcFrameRx p times s
  | .ethFrameRxEv p prio n full uncorr => Sys2Proof.Machine.execEthFrameRxEv p prio n full uncorr s
  | .pfcRepeatEv p prio => Sys2Proof.Machine.execPfcRepeatEv p prio s
  | .flr fn cfg => Sys2Proof.Machine.execFlr fn cfg s
  | .vfEnableClear => Sys2Proof.Machine.execVfEnableClear s
  | .vfEnableSet n cfg => Sys2Proof.Machine.execVfEnableSet n cfg s
  | .d3hotEntry fn => Sys2Proof.Machine.execD3hotEntry fn s
  | .d0Return fn => Sys2Proof.Machine.execD0Return fn s
  | .atsInvalidate fn pages => Sys2Proof.Machine.execAtsInvalidate fn pages s
  | .msixUnmask fn vec => Sys2Proof.Machine.execMsixUnmask fn vec s
  | .hostTransferFailure m seq => Sys2Proof.Machine.execHostTransferFailure m seq s
  | .nvmeLinkUp d lanes rate => Sys2Proof.Machine.execNvmeLinkUp d lanes rate s
  | .nvmeCstsRdy d set info => Sys2Proof.Machine.execNvmeCstsRdy d set info s
  | .nvmeCapToExpiry d => Sys2Proof.Machine.execNvmeCapToExpiry d s
  | .nvmeCommandCompletion d cid r => Sys2Proof.Machine.execNvmeCommandCompletion d cid r s
  | .nvmeRetryDelay d cid => Sys2Proof.Machine.execNvmeRetryDelay d cid s
  | .nvmeCommandTimeout d cid => Sys2Proof.Machine.execNvmeCommandTimeout d cid s
  | .nvmeControllerFatal d => Sys2Proof.Machine.execNvmeControllerFatal d s
  | .nvmeLinkDown d => Sys2Proof.Machine.execNvmeLinkDown d s
  | .nvmeDmaRequest d addr n => Sys2Proof.Machine.execNvmeDmaRequest d addr n s
  | .nvmeAsyncEvent d smart => Sys2Proof.Machine.execNvmeAsyncEvent d smart s
  | .plbInboundRead addr be burst beats owner => Sys2Proof.Machine.execPlbInboundRead addr be burst beats owner s
  | .plbInboundWrite addr be burst words rd => Sys2Proof.Machine.execPlbInboundWrite addr be burst words rd s
  | .plbDelayedFetchDone entry ok => Sys2Proof.Machine.execPlbDelayedFetchDone entry ok s
  | .plbDelayedReadDiscard entry => Sys2Proof.Machine.execPlbDelayedReadDiscard entry s
  | .plbArbitrate req idle addressBy twoResponses cycles => Sys2Proof.Machine.execPlbArbitrate req idle addressBy twoResponses cycles s
  | .plbOutboundAccess fw idle => Sys2Proof.Machine.execPlbOutboundAccess fw idle s
  | .plbTargetResponse r => Sys2Proof.Machine.execPlbTargetResponse r s
  | .plbRetryWait => Sys2Proof.Machine.execPlbRetryWait s
  | .plbNoResponse => Sys2Proof.Machine.execPlbNoResponse s
  | .plbGrantTimeout => Sys2Proof.Machine.execPlbGrantTimeout s
  | .plbIrqAssert n => Sys2Proof.Machine.execPlbIrqAssert n s
  | .plbIrqLevelRepeat n => Sys2Proof.Machine.execPlbIrqLevelRepeat n s
  | .frameUnitTake => Sys2Proof.Machine.execFrameUnitTake s
  | .frameEnd f n chunk => Sys2Proof.Machine.execFrameEnd f n chunk s
  | .frameEncodeRecord f pic => Sys2Proof.Machine.execFrameEncodeRecord f pic s
  | .debugNonceExpiry => Sys2Proof.Machine.execDebugNonceExpiry s
  | .reefTriggerEval held => Sys2Proof.Machine.execReefTriggerEval held s
  | .reefProtectedWrite addr data => Sys2Proof.Machine.execReefProtectedWrite addr data s
  | .reefCopyDone => Sys2Proof.Machine.execReefCopyDone s
  | .reefPark src m => Sys2Proof.Machine.execReefPark src m s
  | .reefTargetFail => Sys2Proof.Machine.execReefTargetFail s
  | .reefConfirm src m => Sys2Proof.Machine.execReefConfirm src m s
  | .reefRefuse src handle => Sys2Proof.Machine.execReefRefuse src handle s
  | .reefOutputToken src m => Sys2Proof.Machine.execReefOutputToken src m s
  | .reefPeerLoss dev => Sys2Proof.Machine.execReefPeerLoss dev s
  | .reefHostedExpiry src => Sys2Proof.Machine.execReefHostedExpiry src s
  | .ttOccurrence pairs => Sys2Proof.Machine.execTtOccurrence pairs s
  | .ttAcknowledge => Sys2Proof.Machine.execTtAcknowledge s
  | .ttWatchdog => Sys2Proof.Machine.execTtWatchdog s
  | .directPathAssert src => Sys2Proof.Machine.execDirectPathAssert src s
  | .ttParityScan mismatch => Sys2Proof.Machine.execTtParityScan mismatch s
  | .smb1Poll addr r => Sys2Proof.Machine.execSmb1Poll addr r s
  | .smb1ArbRetry addr r => Sys2Proof.Machine.execSmb1ArbRetry addr r s
  | .smb1BlockWrite packet pecOk rd => Sys2Proof.Machine.execSmb1BlockWrite packet pecOk rd s
  | .jtagTapReset => Sys2Proof.Machine.execJtagTapReset s
  | .jtagIdcode => Sys2Proof.Machine.execJtagIdcode s
  | .jtagSamplePreload => Sys2Proof.Machine.execJtagSamplePreload s
  | .jtagExtest => Sys2Proof.Machine.execJtagExtest s
  | .jtagExtestPulse => Sys2Proof.Machine.execJtagExtestPulse s
  | .jtagExtestTrain => Sys2Proof.Machine.execJtagExtestTrain s
  | .jtagClamp => Sys2Proof.Machine.execJtagClamp s
  | .jtagHighz => Sys2Proof.Machine.execJtagHighz s
  | .jtagDbgStatus => Sys2Proof.Machine.execJtagDbgStatus s
  | .jtagPrivateDebugAccess ir => Sys2Proof.Machine.execJtagPrivateDebugAccess ir s
  | .jtagBypass ir => Sys2Proof.Machine.execJtagBypass ir s
  | .ptpSync m => Sys2Proof.Machine.execPtpSync m s
  | .ptpFollowUp m => Sys2Proof.Machine.execPtpFollowUp m s
  | .ptpDelayResp m => Sys2Proof.Machine.execPtpDelayResp m s
  | .delayReqTimer => Sys2Proof.Machine.execDelayReqTimer s
  | .ppsInEdge lowNs => Sys2Proof.Machine.execPpsInEdge lowNs s
  | .ppsOutPulse => Sys2Proof.Machine.execPpsOutPulse s
  | .ppsOutEnd => Sys2Proof.Machine.execPpsOutEnd s
  | .syncedStale => Sys2Proof.Machine.execSyncedStale s
  | .ratlinePeriodicEntry temp => Sys2Proof.Machine.execRatlinePeriodicEntry temp s
  | .ratlineEntry frame => Sys2Proof.Machine.execRatlineEntry frame s
  | .ratlineSweepFrame frame temp => Sys2Proof.Machine.execRatlineSweepFrame frame temp s
  | .ratlineSweepTimeout => Sys2Proof.Machine.execRatlineSweepTimeout s
  | .ratlineOrphanTimeout => Sys2Proof.Machine.execRatlineOrphanTimeout s
  | .pstoreFlashOpDone ok => Sys2Proof.Machine.execPstoreFlashOpDone ok s
  | .announce src msg => Sys2Proof.Machine.execAnnounce src msg s
  | .leave src msg => Sys2Proof.Machine.execLeave src msg s
  | .announceTimerEv => Sys2Proof.Machine.execAnnounceTimerEv s
  | .graceExpiryEv => Sys2Proof.Machine.execGraceExpiryEv s
  | .activeMemberExpiry e => Sys2Proof.Machine.execActiveMemberExpiry e s
  | .systemConnExpiry e => Sys2Proof.Machine.execSystemConnExpiry e s
  | .rmuLostTimeout => Sys2Proof.Machine.execRmuLostTimeout s
  | .sysRstNRise => Sys2Proof.Machine.execSysRstNRise s
  | .powerOnResetRelease => Sys2Proof.Machine.execPowerOnResetRelease s
  | .pwrFailNRise => Sys2Proof.Machine.execPwrFailNRise s
  | .stayLockLost k => Sys2Proof.Machine.execStayLockLost k s
  | .stayCtlRepeat k => Sys2Proof.Machine.execStayCtlRepeat k s
  | .ethernetLinkChange p up => Sys2Proof.Machine.execEthernetLinkChange p up s
  | .pcieLinkUp rate lanes flit cfg => Sys2Proof.Machine.execPcieLinkUp rate lanes flit cfg s
  | .sailInstructionDone t => Sys2Proof.Machine.execSailInstructionDone t s
  | .shrPacedSend c => Sys2Proof.Machine.execShrPacedSend c s
  | .plbGrantReceived idle => Sys2Proof.Machine.execPlbGrantReceived idle s
  | .plbIrqDeassert n => Sys2Proof.Machine.execPlbIrqDeassert n s
  | .pfcPauseExpiry p prio => Sys2Proof.Machine.execPfcPauseExpiry p prio s
  | .smb1BlockRead => Sys2Proof.Machine.execSmb1BlockRead s
  | .oldEpochWindowExpiry => Sys2Proof.Machine.execOldEpochWindowExpiry s

end Sys2Proof.Machine
end

