-- ==== Sys2Proof/WellFormed.lean ====
section
/-! DEFINITION. Which commands are well formed: every number in an operand names something the device has. -/

namespace Sys2Proof

/-- A command's header fields fit Table 6.2, and its mailbox is one of Table 6.1. -/
def cmdOk (c : Cmd) : Bool :=
  decide (c.mb < 20) && decide (c.op < 65536) && decide (c.flags < 256) && decide (c.version < 256) && decide (c.tag < 65536) &&
    decide (c.plen < 65536) && decide (c.sqIdx < 65536) && decide (c.bus < 2)

/-- A Shroud peer: one of 72 devices, or an address of 16 bytes on one of two ports. -/
def peerOk : ShrPeer → Bool
  | .stay dev => decide (dev < 72)
  | .udp port addr => decide (port < 2) && decide (addr.length = 16)

/-- Every number in the command's operands names something the device has: a tile below 128, a Halyard below 64, a Stay link below
12, a mailbox of Table 6.1, a function 0 - 15, a device below 72, a context, a connection. -/
def Instr.wf : Instr → Bool
  | .powerOnReset => true
  | .sysRstNLow => true
  | .strapSample _ => true
  | .coldResetRelease _ => true
  | .pllLockTimeout => true
  | .bootStageDone _ => true
  | .bootStageTimeout _ => true
  | .pcieReset _ => true
  | .perstNRelease => true
  | .pwrFailNFall _ => true
  | .pwrFailNRecovery => true
  | .referenceLoss _ => true
  | .referenceReturn _ => true
  | .thermalTrip die => decide (die < 2)
  | .railOutOfRange rail => decide (rail < 7)
  | .desiredPointChange die => decide (die < 2)
  | .yclkSwitchDone die => decide (die < 2)
  | .avsStatusRead die _ => decide (die < 2)
  | .avsPoll die _ => decide (die < 2)
  | .avsSlewTimeout die => decide (die < 2)
  | .settleTimer die => decide (die < 2)
  | .avsFrameError die => decide (die < 2)
  | .adaptiveLoopPeriod die _ => decide (die < 2)
  | .limiterPeriod => true
  | .heartbeatTick => true
  | .bar0RegisterWrite fn _ bytes _ => decide (fn < 16) && [1, 2, 4, 8].contains bytes
  | .bar0UnmappedAccess fn _ _ => decide (fn < 16)
  | .w1cWrite fn _ _ _ => decide (fn < 16)
  | .ttStickyWrite fn _ _ _ => decide (fn < 16)
  | .todNsRead fn => decide (fn < 16)
  | .todSetNs fn _ => decide (fn < 16)
  | .todStep fn _ => decide (fn < 16)
  | .todAdjPpb fn _ => decide (fn < 16)
  | .enable fn m _ => decide (fn < 16) && decide (m < 16)
  | .sqTail fn m _ => decide (fn < 16) && decide (m < 16)
  | .cqHead fn m _ => decide (fn < 16) && decide (m < 16)
  | .inlineGo fn _ _ => decide (fn < 16)
  | .funcValidated f => decide (f < 32)
  | .funcDrained f => decide (f < 32)
  | .mailboxFetch m _ => decide (m < 16)
  | .completionPost m _ _ => decide (m < 16)
  | .commandTimeout m _ => decide (m < 20)
  | .lateResult m _ => decide (m < 20)
  | .smb0BlockWrite _ _ _ => true
  | .smb0BlockRead => true
  | .alertResponseAddress => true
  | .smb0TargetReset => true
  | .setEndpointId _ => true
  | .getEndpointId => true
  | .getMctpVersionSupport _ => true
  | .getMessageTypeSupport => true
  | .pmbGo _ _ => true
  | .consoleLine _ _ => true
  | .uartCharacterRx _ _ _ => true
  | .readiness c => cmdOk c
  | .identity c => cmdOk c
  | .sessionOpen c => cmdOk c
  | .sessionClose c => cmdOk c
  | .vfBind c => cmdOk c
  | .deviceReset c => cmdOk c
  | .funcStart c => cmdOk c
  | .funcStop c => cmdOk c
  | .statsRead c => cmdOk c
  | .powerPolicy c => cmdOk c
  | .powerStatus c => cmdOk c
  | .hostLoad c => cmdOk c
  | .ctxAlloc c => cmdOk c
  | .ctxFree c => cmdOk c
  | .ctxQuery c => cmdOk c
  | .memAlloc c => cmdOk c
  | .memFree c => cmdOk c
  | .memCopy c => cmdOk c
  | .apertureSet c => cmdOk c
  | .nvmeCfg c => cmdOk c
  | .modelLoad c => cmdOk c
  | .modelUnload c => cmdOk c
  | .weightsLoad c => cmdOk c
  | .submit c => cmdOk c
  | .submitCancel c => cmdOk c
  | .furlDomainCfg c => cmdOk c
  | .furlPin c => cmdOk c
  | .furlUnpin c => cmdOk c
  | .furlEvictCfg c => cmdOk c
  | .furlPurge c => cmdOk c
  | .furlProbe c => cmdOk c
  | .shrConnOpen c => cmdOk c
  | .shrConnClose c => cmdOk c
  | .shrConnTimeout c => cmdOk c
  | .shrMap c => cmdOk c
  | .shrUnmap c => cmdOk c
  | .shrCcCfg c => cmdOk c
  | .trimMode c => cmdOk c
  | .trimShaper c => cmdOk c
  | .trimPolicer c => cmdOk c
  | .frameCtxCfg c => cmdOk c
  | .frameCtxFree c => cmdOk c
  | .frameRc c => cmdOk c
  | .frameRoi c => cmdOk c
  | .frameSubmit c => cmdOk c
  | .reefCfg c => cmdOk c
  | .reefSnapshot c => cmdOk c
  | .reefEvacuate c => cmdOk c
  | .reefRestore c => cmdOk c
  | .reefStatus c => cmdOk c
  | .ttSeverity c => cmdOk c
  | .ttRead c => cmdOk c
  | .ttClear c => cmdOk c
  | .timeSource c => cmdOk c
  | .timeStatus c => cmdOk c
  | .secKeySet c => cmdOk c
  | .secKeyDestroy c => cmdOk c
  | .fwUpdate c => cmdOk c
  | .measure c => cmdOk c
  | .debugChallenge c => cmdOk c
  | .debugUnlock c => cmdOk c
  | .debugLock c => cmdOk c
  | .plbWindow c => cmdOk c
  | .plbAccess c => cmdOk c
  | .plbIrqRoute c => cmdOk c
  | .plbArbCfg c => cmdOk c
  | .sensorRead c => cmdOk c
  | .ratlineSweep c => cmdOk c
  | .gpioCfg c => cmdOk c
  | .consoleCfg c => cmdOk c
  | .pstoreRead c => cmdOk c
  | .pstoreWrite c => cmdOk c
  | .rackEpoch c => cmdOk c
  | .rackStatus c => cmdOk c
  | .submitDeadline c => decide (c < 4096)
  | .stepBoundary _ => true
  | .decodeStart c => decide (c < 4096)
  | .dispatchBind _ => true
  | .dispatchEnd _ => true
  | .dispatchHalt _ => true
  | .halyardDrainLimit _ => true
  | .tileProgramEnd t => decide (t < 128)
  | .stallWatchdog t => decide (t < 128)
  | .tileReservedOpcode t => decide (t < 128)
  | .tNop t => decide (t < 128)
  | .tEnd t => decide (t < 128)
  | .tBr t => decide (t < 128)
  | .tBeq t => decide (t < 128)
  | .tBne t => decide (t < 128)
  | .tBlt t => decide (t < 128)
  | .tBge t => decide (t < 128)
  | .tBltu t => decide (t < 128)
  | .tBgeu t => decide (t < 128)
  | .tJal t => decide (t < 128)
  | .tJr t => decide (t < 128)
  | .tBpany t => decide (t < 128)
  | .tBpnone t => decide (t < 128)
  | .tAdd t => decide (t < 128)
  | .tSub t => decide (t < 128)
  | .tMul t => decide (t < 128)
  | .tMulhu t => decide (t < 128)
  | .tMulh t => decide (t < 128)
  | .tDiv t => decide (t < 128)
  | .tDivu t => decide (t < 128)
  | .tRem t => decide (t < 128)
  | .tRemu t => decide (t < 128)
  | .tAnd t => decide (t < 128)
  | .tOr t => decide (t < 128)
  | .tXor t => decide (t < 128)
  | .tSll t => decide (t < 128)
  | .tSrl t => decide (t < 128)
  | .tSra t => decide (t < 128)
  | .tSlt t => decide (t < 128)
  | .tSltu t => decide (t < 128)
  | .tMin t => decide (t < 128)
  | .tMax t => decide (t < 128)
  | .tMinu t => decide (t < 128)
  | .tMaxu t => decide (t < 128)
  | .tLi t => decide (t < 128)
  | .tLih t => decide (t < 128)
  | .tAddi t => decide (t < 128)
  | .tSlti t => decide (t < 128)
  | .tAndi t => decide (t < 128)
  | .tOri t => decide (t < 128)
  | .tXori t => decide (t < 128)
  | .tSlli t => decide (t < 128)
  | .tSrli t => decide (t < 128)
  | .tSrai t => decide (t < 128)
  | .tLb t => decide (t < 128)
  | .tLbu t => decide (t < 128)
  | .tLh t => decide (t < 128)
  | .tLhu t => decide (t < 128)
  | .tLw t => decide (t < 128)
  | .tLwu t => decide (t < 128)
  | .tLd t => decide (t < 128)
  | .tSb t => decide (t < 128)
  | .tSh t => decide (t < 128)
  | .tSw t => decide (t < 128)
  | .tSd t => decide (t < 128)
  | .tVfadd t => decide (t < 128)
  | .tVfsub t => decide (t < 128)
  | .tVfmul t => decide (t < 128)
  | .tVfma t => decide (t < 128)
  | .tVfmin t => decide (t < 128)
  | .tVfmax t => decide (t < 128)
  | .tVfabs t => decide (t < 128)
  | .tVfneg t => decide (t < 128)
  | .tVrcp t => decide (t < 128)
  | .tVrsq t => decide (t < 128)
  | .tVexp2 t => decide (t < 128)
  | .tVlog2 t => decide (t < 128)
  | .tVfceq t => decide (t < 128)
  | .tVfclt t => decide (t < 128)
  | .tVfcle t => decide (t < 128)
  | .tVadd t => decide (t < 128)
  | .tVsub t => decide (t < 128)
  | .tVmul t => decide (t < 128)
  | .tVand t => decide (t < 128)
  | .tVor t => decide (t < 128)
  | .tVxor t => decide (t < 128)
  | .tVsll t => decide (t < 128)
  | .tVsrl t => decide (t < 128)
  | .tVsra t => decide (t < 128)
  | .tVmin t => decide (t < 128)
  | .tVmax t => decide (t < 128)
  | .tVcmp t => decide (t < 128)
  | .tVbadd t => decide (t < 128)
  | .tVbmul t => decide (t < 128)
  | .tVbfma t => decide (t < 128)
  | .tVsel t => decide (t < 128)
  | .tVld t => decide (t < 128)
  | .tVst t => decide (t < 128)
  | .tVbcst t => decide (t < 128)
  | .tVmov t => decide (t < 128)
  | .tVext t => decide (t < 128)
  | .tVins t => decide (t < 128)
  | .tViota t => decide (t < 128)
  | .tVperm t => decide (t < 128)
  | .tVrsum t => decide (t < 128)
  | .tVrmax t => decide (t < 128)
  | .tVrmin t => decide (t < 128)
  | .tPlog t => decide (t < 128)
  | .tPnot t => decide (t < 128)
  | .tPmovg t => decide (t < 128)
  | .tPmovp t => decide (t < 128)
  | .tPset t => decide (t < 128)
  | .tVcvtfb t => decide (t < 128)
  | .tVcvtbf t => decide (t < 128)
  | .tVcvtfi t => decide (t < 128)
  | .tVcvtif t => decide (t < 128)
  | .tVq8 t => decide (t < 128)
  | .tVq4 t => decide (t < 128)
  | .tVdq8 t => decide (t < 128)
  | .tVdq4 t => decide (t < 128)
  | .tSmma t => decide (t < 128)
  | .tSscl t => decide (t < 128)
  | .tSzero t => decide (t < 128)
  | .tSdrain t => decide (t < 128)
  | .sailExecute r => decide (r.tile < 128)
  | .sailDrainDone t => decide (t < 128)
  | .tShpop t => decide (t < 128)
  | .tShpopnw t => decide (t < 128)
  | .tShpush t => decide (t < 128)
  | .tShpushnw t => decide (t < 128)
  | .tShmark t => decide (t < 128)
  | .tShrwd t => decide (t < 128)
  | .tShrel t => decide (t < 128)
  | .tShrelr t => decide (t < 128)
  | .tShlvl t => decide (t < 128)
  | .tShcrd t => decide (t < 128)
  | .tShfill t => decide (t < 128)
  | .tShce t => decide (t < 128)
  | .tClsig t => decide (t < 128)
  | .tClwait t => decide (t < 128)
  | .tClrd t => decide (t < 128)
  | .tClset t => decide (t < 128)
  | .tCsrr t => decide (t < 128)
  | .tCsrw t => decide (t < 128)
  | .cleatSignal _ => true
  | .cleatWaitRelease halyard n => decide (n < if halyard then 64 else 128)
  | .hHalyardEnd h => decide (h < 64)
  | .hStreamIn h => decide (h < 64)
  | .hStreamOut h => decide (h < 64)
  | .hTileIn h => decide (h < 64)
  | .hTileOut h => decide (h < 64)
  | .hCopy h => decide (h < 64)
  | .hSignal h => decide (h < 64)
  | .hWait h => decide (h < 64)
  | .hLoop h => decide (h < 64)
  | .halyardReadData h _ _ => decide (h < 64)
  | .descriptorComplete h _ => decide (h < 64)
  | .hbmWriteBack _ => true
  | .hbmRefresh stack => decide (stack < 8)
  | .hbmScrub _ _ => true
  | .bar2Read fn _ _ => decide (fn < 16)
  | .bar2Write fn _ _ => decide (fn < 16)
  | .poisonedWriteRx fn _ => decide (fn < 16)
  | .furlLookup src _ _ _ _ _ _ _ _ => decide (src < 72)
  | .furlAnswer src _ _ _ _ _ _ _ _ => decide (src < 72)
  | .furlUnhold src _ => decide (src < 72)
  | .furlAbandon src _ _ => decide (src < 72)
  | .furlRenew src _ => decide (src < 72)
  | .furlRenewTimer => true
  | .furlPublish src _ => decide (src < 72)
  | .furlChild _ _ => true
  | .furlNotify src _ _ _ _ _ => decide (src < 72)
  | .furlLeaseExpiry _ => true
  | .furlEvict src _ _ => decide (src < 72)
  | .furlEvictAck src _ _ _ => decide (src < 72)
  | .furlRestore src _ _ => decide (src < 72)
  | .furlMoved src _ _ _ => decide (src < 72)
  | .furlOrphanHold src _ _ => decide (src < 72)
  | .furlEvictionStart => true
  | .stayFlitRx k _ _ _ _ => decide (k < 12)
  | .stayReplayTimeout k => decide (k < 12)
  | .stayRetryBudgetExpiry k => decide (k < 12)
  | .stayPacketSend _ vc _ _ _ _ => decide (vc < 4)
  | .stayInit k _ _ _ => decide (k < 12)
  | .stayResync k => decide (k < 12)
  | .stayResyncAck k => decide (k < 12)
  | .stayResyncTimeout k => decide (k < 12)
  | .stayTrainingPhaseDone p => decide (p.link < 12)
  | .stayTrainingTimeout k => decide (k < 12)
  | .stayRetryInterval k => decide (k < 12)
  | .stayCreditGrant k => decide (k < 12)
  | .linkMap src _ => decide (src < 72)
  | .linkMapTimer => true
  | .linkMapSilenceEv src => decide (src < 72)
  | .shrConnect src _ => peerOk src
  | .shrAccept src _ => peerOk src
  | .shrReq src _ => peerOk src
  | .shrResp src _ => peerOk src
  | .shrAck src _ => peerOk src
  | .shrClose src _ => peerOk src
  | .shrCloseAck src _ => peerOk src
  | .shrRead c => decide (c < 16384)
  | .shrWrite c => decide (c < 16384)
  | .shrWriteSig c => decide (c < 16384)
  | .shrFadd c => decide (c < 16384)
  | .shrMsg c => decide (c < 16384)
  | .shrOperationPost c p => decide (c < 16384) && decide (p.id < 2 ^ 32)
  | .shrGateRelease c => decide (c < 16384)
  | .shrPagePresent _ => true
  | .shrResendDelay c => decide (c < 16384)
  | .shrRetransmitTimer c _ => decide (c < 16384)
  | .shrAckTimer c => decide (c < 16384)
  | .shrBrokenTimeout c => decide (c < 16384)
  | .shrOpTimeout c _ => decide (c < 16384)
  | .shrConnectRetry c => decide (c < 16384)
  | .shrCloseRetry c => decide (c < 16384)
  | .shrCcPeriod c => decide (c < 16384)
  | .trimSelectEv p => decide (p < 14)
  | .trimBucketGain => true
  | .pfcFrameRx p _ => decide (p < 2)
  | .ethFrameRxEv p prio _ _ _ => decide (p < 2) && decide (prio < 8)
  | .pfcRepeatEv p prio => decide (p < 2) && decide (prio < 8)
  | .flr fn _ => decide (fn < 16)
  | .vfEnableClear => true
  | .vfEnableSet n _ => decide (n ≤ 15)
  | .d3hotEntry fn => decide (fn < 16)
  | .d0Return fn => decide (fn < 16)
  | .atsInvalidate fn _ => decide (fn < 16)
  | .msixUnmask fn _ => decide (fn < 16)
  | .hostTransferFailure m _ => decide (m < 20)
  | .nvmeLinkUp d _ _ => decide (d < 2)
  | .nvmeCstsRdy d _ _ => decide (d < 2)
  | .nvmeCapToExpiry d => decide (d < 2)
  | .nvmeCommandCompletion d _ _ => decide (d < 2)
  | .nvmeRetryDelay d _ => decide (d < 2)
  | .nvmeCommandTimeout d _ => decide (d < 2)
  | .nvmeControllerFatal d => decide (d < 2)
  | .nvmeLinkDown d => decide (d < 2)
  | .nvmeDmaRequest d _ _ => decide (d < 2)
  | .nvmeAsyncEvent d _ => decide (d < 2)
  | .plbInboundRead _ be _ _ _ => decide (be < 16)
  | .plbInboundWrite _ be _ _ _ => decide (be < 16)
  | .plbDelayedFetchDone i _ => decide (i < 4)
  | .plbDelayedReadDiscard i => decide (i < 4)
  | .plbArbitrate _ _ _ _ _ => true
  | .plbOutboundAccess _ _ => true
  | .plbTargetResponse _ => true
  | .plbRetryWait => true
  | .plbNoResponse => true
  | .plbGrantTimeout => true
  | .plbIrqAssert n => decide (n < 8)
  | .plbIrqLevelRepeat n => decide (n < 8)
  | .frameUnitTake => true
  | .frameEnd f _ _ => decide (f < 256)
  | .frameEncodeRecord f _ => decide (f < 256)
  | .debugNonceExpiry => true
  | .reefTriggerEval _ => true
  | .reefProtectedWrite _ _ => true
  | .reefCopyDone => true
  | .reefPark src _ => decide (src < 72)
  | .reefTargetFail => true
  | .reefConfirm src _ => decide (src < 72)
  | .reefRefuse src _ => decide (src < 72)
  | .reefOutputToken src _ => decide (src < 72)
  | .reefPeerLoss dev => decide (dev < 72)
  | .reefHostedExpiry src => decide (src < 72)
  | .ttOccurrence pairs => pairs.all (fun p => decide (p.src < 448))
  | .ttAcknowledge => true
  | .ttWatchdog => true
  | .directPathAssert src => decide (src < 448)
  | .ttParityScan _ => true
  | .smb1Poll addr _ => decide (addr < 128)
  | .smb1ArbRetry addr _ => decide (addr < 128)
  | .smb1BlockWrite _ _ _ => true
  | .jtagTapReset => true
  | .jtagIdcode => true
  | .jtagSamplePreload => true
  | .jtagExtest => true
  | .jtagExtestPulse => true
  | .jtagExtestTrain => true
  | .jtagClamp => true
  | .jtagHighz => true
  | .jtagDbgStatus => true
  | .jtagPrivateDebugAccess ir => decide (ir < 256)
  | .jtagBypass ir => decide (ir < 256)
  | .ptpSync _ => true
  | .ptpFollowUp _ => true
  | .ptpDelayResp _ => true
  | .delayReqTimer => true
  | .ppsInEdge _ => true
  | .ppsOutPulse => true
  | .ppsOutEnd => true
  | .syncedStale => true
  | .ratlinePeriodicEntry _ => true
  | .ratlineEntry _ => true
  | .ratlineSweepFrame _ _ => true
  | .ratlineSweepTimeout => true
  | .ratlineOrphanTimeout => true
  | .pstoreFlashOpDone _ => true
  | .announce src _ => decide (src < 72)
  | .leave src _ => decide (src < 72)
  | .announceTimerEv => true
  | .graceExpiryEv => true
  | .activeMemberExpiry e => decide (e < 72)
  | .systemConnExpiry e => decide (e < 72)
  | .rmuLostTimeout => true
  | .sysRstNRise => true
  | .powerOnResetRelease => true
  | .pwrFailNRise => true
  | .stayLockLost k => decide (k < 12)
  | .stayCtlRepeat k => decide (k < 12)
  | .ethernetLinkChange p _ => decide (p < 2)
  | .pcieLinkUp _ lanes _ _ => decide (lanes.width ≤ 16)
  | .sailInstructionDone t => decide (t < 128)
  | .shrPacedSend c => decide (c < 16384)
  | .plbGrantReceived _ => true
  | .plbIrqDeassert n => decide (n < 8)
  | .pfcPauseExpiry p prio => decide (p < 2) && decide (prio < 8)
  | .smb1BlockRead => true
  | .oldEpochWindowExpiry => true

end Sys2Proof
end

