-- ==== Sys2Proof/Safety.lean ====
section
/-! DEFINITION. The terms claims use: when a tile or a Halyard meets an instruction, what a step leaves alone, when a command
arrives with nothing before it and what follows it, and when a step has nothing to follow it. -/

namespace Sys2Proof.Safety

open Sys2Proof.Machine

/-- The answer of a command: always a next state. -/
def answers (i : Instr) (s t : State) : Prop := exec i s = .next t

/-- The answer of an event: its effect, and what Masthead does upon it. -/
def acts (i : Instr) (s t : State) : Prop := answers i s (settle t)

/-- A 32-bit write of function fn reaches the register at an offset of BAR0: decoded, in effect in this device state, and mapped in the
function's view (R90, R99, R104, R131). -/
def reaches (fn off : Nat) (s : State) : Bool := barDecoded fn s && writable off s && mapped fn off s

/-! ### Tiles (Tables 9.1 - 9.13) -/

/-- The fields of the word at a tile's PC. -/
def here (t : Nat) (s : State) : Fields := fieldsOf (wordAt t s)

/-- Tile t issues, and the word at its PC is a legal word of the row with this OP (R224, R227). -/
def tileMeets (op t : Nat) (s : State) : Bool := tileIssues t s && decide ((here t s).op = op) && legal (here t s)

/-- The PC has moved on to `pc`, and the scalar unit is not waiting. -/
def atPc (pc : Nat) (u : Tile) : Tile := { u with pc := pc % 8192, stalled := false }

/-- The next word. -/
def onward (u : Tile) : Nat := u.pc + 1

/-- Nothing but tile t differs. -/
def onlyTile (t : Nat) (s s' : State) : Prop :=
  (∀ j, j ≠ t → tileOf j s' = tileOf j s) ∧ { s' with comp := { s'.comp with tiles := s.comp.tiles } } = s

/-- The row `c` with OP `op` changes its tile as `f` says, and its PC moves on; nothing else changes. -/
def rowSets (c : Nat → Instr) (op : Nat) (f : Fields → Tile → Tile) : Prop :=
  ∀ t s, tileMeets op t s = true → ∃ s', answers (c t) s s' ∧
    tileOf t s' = atPc (onward (tileOf t s)) (f (here t s) (tileOf t s)) ∧ onlyTile t s s'

/-- The row `c` with OP `op` branches to IMM when the test holds, and goes on otherwise; nothing but its PC changes. -/
def rowBranches (c : Nat → Instr) (op : Nat) (p : Fields → Tile → Prop) : Prop :=
  ∀ t s, tileMeets op t s = true → ∃ s', answers (c t) s s' ∧ onlyTile t s s' ∧
    (p (here t s) (tileOf t s) → tileOf t s' = atPc (here t s).imm (tileOf t s)) ∧
    (¬ p (here t s) (tileOf t s) → tileOf t s' = atPc (onward (tileOf t s)) (tileOf t s))

/-- The row `c` with OP `op`, when `pre` holds of the word and the state, has the effect `post` and its PC moves on. -/
def rowGoes (c : Nat → Instr) (op : Nat) (pre : Nat → Fields → State → Prop) (post : Nat → Fields → State → State) : Prop :=
  ∀ t s, tileMeets op t s = true → pre t (here t s) s → answers (c t) s (setPc t (onward (tileOf t s)) (post t (here t s) s))

/-- The bytes of tile t's memory at an offset, where no codeword holds an error. -/
def tileBytes (t off n : Nat) (s : State) : List Byte := rawRead (tileBase t + off) n s

/-- No codeword of a range holds an error. -/
def rangeClean (a n : Nat) (s : State) : Bool := (badWords a n s.mem).isEmpty

/-- What memory reads at one address. -/
def byteAt (a : Nat) (s : State) : Byte := Tab.get s.mem.bytes a

/-- Outside n bytes at a, memory reads as before. -/
def bytesKept (a n : Nat) (s s' : State) : Prop := ∀ i, (i < a ∨ a + n ≤ i) → byteAt i s' = byteAt i s

/-- The n bytes at a are the given ones. -/
def bytesAre (a : Nat) (bs : List Byte) (s' : State) : Prop := ∀ i, i < bs.length → byteAt (a + i) s' = bs.getD i 0

/-! ### Halyards (Tables 8.5 - 8.8) -/

/-- The address of a Halyard's next descriptor. -/
def descAt (h : Nat) (s : State) : Nat := (halOf h s).prog + 32 * (halOf h s).idx

/-- The fields of a Halyard's next descriptor. -/
def descHere (h : Nat) (s : State) : Desc := descOf (rawRead (descAt h s) 32 s)

/-- Halyard h runs and its next descriptor, readable and free of faults, is of this OP; the limit of 8 and FENCE let it issue. -/
def halMeets (op h : Nat) (s : State) : Bool :=
  decide ((halOf h s).st = .running) && halRuns h s && decide ((halOf h s).idx < (halOf h s).len) && rangeClean (descAt h s) 32 s &&
    decide ((descHere h s).op = op) && decide (((halOf h s).flights.filter (fun f => !f.done)).length < 8) &&
    !(bitN (descHere h s).flags 1 && !(halOf h s).flights.isEmpty) && (descFault h (halOf h s).idx (descHere h s) s).isNone

/-! ### Commands on a ring mailbox or on SMB0 (Tables 6.2, 7.2) -/

/-- Mailbox c.mb is a ring that can be fetched from, or that of the tray controller while Masthead runs (there the always-on domain
answers READINESS and IDENTITY, R157), and no command is outstanding on the device. -/
def alone (c : Cmd) (s : State) : Bool :=
  ((decide (c.mb < 16) && canFetch c.mb s) || (decide (c.mb = 16) && mhRuns s && !decide (c.op = 1) && !decide (c.op = 2))) &&
    s.host.cmds.isEmpty && s.host.retired.isEmpty

/-- The outstanding command of c, at a stage of its progress. -/
def outstOf (c : Cmd) (p : Progress) (s : State) : Outst :=
  { cmd := c, seq := (Tab.get s.host.mbx c.mb).nextSeq, id := s.host.nextId, prog := p, dup := false, at_ := s.time.mono
    furlUp := fnRunning 0x05 s }

/-- The model's name of the command. -/
def refOf (c : Cmd) (s : State) : Nat × Nat := (c.mb, s.host.nextId)

/-- The state in which the row of c runs: the command has its SEQ, is counted in FETCHED, is outstanding and has started. -/
def begun (c : Cmd) (s : State) : State :=
  let s1 : State := { s with host := { s.host with
    mbx := Tab.mod s.host.mbx c.mb (fun m => { m with nextSeq := wrapInc 32 m.nextSeq, fetched := m.fetched + 1 })
    cmds := [outstOf c .running s], nextId := s.host.nextId + 1 } }
  match sourceAddr c with
  | some a => if c.mb < 16 then noteAts (mbReq c.mb s) a s1 else s1
  | none => s1

/-- No check of steps 1 to 3c of Table 7.2 answers. -/
def headPass (c : Cmd) (s : State) : Bool := (headChecks c false s).all (fun x => !x.1)

/-- What follows a command that has run: what its result lets start, and the conditions that Masthead watches. -/
def followUp (s : State) : State :=
  let s1 := sweeps (startAll 1 (postDirects s))
  let s2 := postDirects s1
  linkMapSweep (holdSweep (flrSweep (startAll (s2.host.cmds.length + 1) s2)))

/-- The command completes: its completion, with status, DETAIL and result, is ready to be posted. -/
def completed (c : Cmd) (st : Status) (detail : Nat) (result : List Byte) (s s' : State) : State := finish (refOf c s) st detail result s'

/-- What a completed command leaves: FURL_DOMAIN_CFG and SHR_CC_CFG have changed the configuration (R666). -/
def settled (c : Cmd) (s : State) : State := if c.op = 0x0501 || c.op = 0x0606 then digestChanged s else s

/-- What a begun command leaves: an accepted SUBMIT holds its context and frame no longer (R147). -/
def pending (c : Cmd) (r : Nat × Nat) (s : State) : State := if c.op = 0x0401 then modCmd r (fun p => { p with accepted := true }) s else s

/-- The row of c has run: its result is known, or its work has begun. -/
def runs (c : Cmd) (s : State) : State :=
  let res := doRow c (refOf c s) (begun c s)
  match res.2 with
  | .now st d bs =>
    let s3 := completed c st d bs s res.1
    if st = .ok && (c.op = 0x0501 || c.op = 0x0606) then digestChanged s3 else s3
  | .later => pending c (refOf c s) res.1

/-- None of a list of checks answers. -/
abbrev passes (l : List (Bool × Status × Nat)) : Prop := l.all (fun x => !x.1) = true

/-- A command of an opcode arrives alone, and the checks before its row's own let it in. -/
abbrev letIn (c : Cmd) (s : State) : Prop :=
  alone c s = true ∧ frozenWait (outstOf c .queued s) s = false ∧ copyWait (outstOf c .queued s) s = false ∧ headPass c (begun c s) = true

/-- A row of the catalogue that completes with OK: on a ring mailbox or on SMB0 with nothing outstanding, when the common checks and
`pre` hold, the command completes with OK, its DETAIL and result, and its effect. `pre` and `post` speak of the state in which the row
runs; `post` gives the state with the effect, DETAIL and the result. -/
def rowOkWith (mk : Cmd → Instr) (op : Nat) (pre : Cmd → State → Prop) (post : Cmd → State → State × Nat × List Byte) : Prop :=
  ∀ c0 s, let c := { c0 with op := op }
    letIn c s → pre c (begun c s) → answers (mk c0) s
      (followUp (settled c (completed c .ok (post c (begun c s)).2.1 (post c (begun c s)).2.2 s (post c (begun c s)).1)))

/-- The same with DETAIL 0. -/
def rowOk (mk : Cmd → Instr) (op : Nat) (pre : Cmd → State → Prop) (post : Cmd → State → State × List Byte) : Prop :=
  rowOkWith mk op pre (fun c b => ((post c b).1, 0, (post c b).2))

/-- A row of the catalogue that completes with a status other than OK on some operands: `post` gives the state with the effect, the
status, DETAIL and the result. -/
def rowEnds (mk : Cmd → Instr) (op : Nat) (pre : Cmd → State → Prop) (post : Cmd → State → State × Status × Nat × List Byte) : Prop :=
  ∀ c0 s, let c := { c0 with op := op }
    letIn c s → pre c (begun c s) → answers (mk c0) s
      (followUp (completed c (post c (begun c s)).2.1 (post c (begun c s)).2.2.1 (post c (begun c s)).2.2.2 s (post c (begun c s)).1))

/-- A row of the catalogue whose result comes later: the command stays outstanding and its work has begun. -/
def rowBegins (mk : Cmd → Instr) (op : Nat) (pre : Cmd → State → Prop) (post : Cmd → Nat × Nat → State → State) : Prop :=
  ∀ c0 s, let c := { c0 with op := op }
    letIn c s → pre c (begun c s) → answers (mk c0) s (followUp (pending c (refOf c s) (post c (refOf c s) (begun c s))))

/-! ### What the rows of the catalogue ask (Tables 7.4 - 7.19, the checks of step 2 of Table 7.2) -/

/-- What SESSION_OPEN asks of its operands and of the state it runs in, for the effect whose premise is `sessionOpenGoes`. -/
abbrev sessionOpenGoes (c : Cmd) (b : State) : Prop :=
  let t := fieldN (payloadOf c) 0 4
  let ms := if t = 0 then 1000 else t
  10 ≤ ms ∧ ms ≤ 60000 ∧ 8 * longestShrTimeout b ≤ ms * 1000 ∧
  (c.mb < 16 → (Tab.get b.pcie.fns (mbReq c.mb b)).flr = false) ∧ sessOf c b = none

/-- What SESSION_CLOSE asks of its operands and of the state it runs in, for the effect whose premise is `sessionCloseGoes`. -/
abbrev sessionCloseGoes (c : Cmd) (_ : State) : Prop :=
  fieldN (payloadOf c) 0 1 ≤ 1

/-- What VF_BIND asks of its operands and of the state it runs in, for the effect whose premise is `vfBindGoes`. -/
abbrev vfBindGoes (c : Cmd) (b : State) : Prop :=
  let vf := fieldN (payloadOf c) 0 1
  let op := fieldN (payloadOf c) 1 1
  let t := fieldN (payloadOf c) 2 2
  1 ≤ vf ∧ vf ≤ 15 ∧ op ≤ 1 ∧ ((Tab.get b.host.mbx vf).session.isSome && decide (mbFn vf b = vf)) = false ∧
  (op = 0 → t < 256 ∧ (Tab.get b.sec.hbm t).isSome = true ∧ Tab.get b.host.bound vf = none)

/-- What DEVICE_RESET asks of its operands and of the state it runs in, for the effect whose premise is `deviceResetGoes`. -/
abbrev deviceResetGoes (c : Cmd) (_ : State) : Prop :=
  fieldN (payloadOf c) 0 1 = 1

/-- What STATS_READ asks of its operands and of the state it runs in, for the effect whose premise is `statsReadGoes`. -/
abbrev statsReadGoes (c : Cmd) (b : State) : Prop :=
  let k := fieldN (payloadOf c) 8 1
  let i := fieldN (payloadOf c) 10 2
  k ≤ 7 ∧ fieldN (payloadOf c) 9 1 ≤ 1 ∧ statsFound k i b = true ∧ (isTenant c b = true → statsOwn c k i b = true)

/-- What FUNC_START asks of its operands and of the state it runs in, for the effect whose premise is `funcStartBegins`. -/
abbrev funcStartBegins (c : Cmd) (b : State) : Prop :=
  let f := fieldN (payloadOf c) 0 1; f ≤ 0x0A ∧ fnState f b = .stopped

/-- What FUNC_START asks of its operands and of the state it runs in, for the effect whose premise is `funcStartThere`. -/
abbrev funcStartThere (c : Cmd) (b : State) : Prop :=
  let f := fieldN (payloadOf c) 0 1; f ≤ 0x0A ∧ fnState f b = .running

/-- What FUNC_STOP asks of its operands and of the state it runs in, for the effect whose premise is `funcStopBegins`. -/
abbrev funcStopBegins (c : Cmd) (b : State) : Prop :=
  let f := fieldN (payloadOf c) 0 1; f ≤ 0x0A ∧ fnState f b = .running

/-- What FUNC_STOP asks of its operands and of the state it runs in, for the effect whose premise is `funcStopThere`. -/
abbrev funcStopThere (c : Cmd) (b : State) : Prop :=
  let f := fieldN (payloadOf c) 0 1; f ≤ 0x0A ∧ fnState f b = .stopped

/-- What POWER_POLICY asks of its operands and of the state it runs in, for the effect whose premise is `powerPolicyAsks`. -/
abbrev powerPolicyAsks (c : Cmd) (_ : State) : Prop :=
  c.plen = 0

/-- What POWER_POLICY asks of its operands and of the state it runs in, for the effect whose premise is `powerPolicySets`. -/
abbrev powerPolicySets (c : Cmd) (b : State) : Prop :=
  let p := payloadOf c
  c.plen ≠ 0 ∧ 600 ≤ fieldN p 0 2 ∧ fieldN p 0 2 ≤ 900 ∧ fieldN p 0 2 ≤ fieldN p 2 2 ∧ fieldN p 2 2 ≤ 900 ∧
  400 ≤ fieldN p 4 2 ∧ fieldN p 4 2 ≤ pMax b ∧ 100 ≤ fieldN p 6 2 ∧ fieldN p 6 2 ≤ 400 ∧
  freqOk b (fieldN p 8 2) = true ∧ freqOk b (fieldN p 10 2) = true ∧ fieldN p 12 1 ≤ 1 ∧
  zeroAt p 13 1 = true ∧ zeroAt p 14 1 = true ∧ zeroAt p 15 1 = true

/-- What POWER_STATUS asks of its operands and of the state it runs in, for the effect whose premise is `powerStatusGoes`. -/
abbrev powerStatusGoes (c : Cmd) (_ : State) : Prop :=
  fieldN (payloadOf c) 0 1 ≤ 1

/-- What TT_SEVERITY asks of its operands and of the state it runs in, for the effect whose premise is `ttSeverityGoes`. -/
abbrev ttSeverityGoes (c : Cmd) (_ : State) : Prop :=
  let src := fieldN (payloadOf c) 0 2
  src < 0x1C0 ∧ srcReserved src = false ∧ directPath src = false ∧ fieldN (payloadOf c) 2 1 ≤ 3

/-- What TT_CLEAR asks of its operands and of the state it runs in, for the effect whose premise is `ttClearGoes`. -/
abbrev ttClearGoes (c : Cmd) (_ : State) : Prop :=
  let src := fieldN (payloadOf c) 0 2
  (src = 0xFFFF ∨ (src < 0x1C0 ∧ srcReserved src = false)) ∧ fieldN (payloadOf c) 2 1 ≤ 3

/-- What TIME_SOURCE asks of its operands and of the state it runs in, for the effect whose premise is `timeSourceGoes`. -/
abbrev timeSourceGoes (c : Cmd) (b : State) : Prop :=
  let p := payloadOf c
  fieldN p 0 1 ≤ 3 ∧ fieldN p 1 1 ≤ 1 ∧ fieldN p 2 1 ≤ 127 ∧ zeroAt p 3 1 = true ∧ fnState 0x0A b = .stopped

/-- What MEM_ALLOC asks of its operands and of the state it runs in, for the effect whose premise is `memAllocGoes`. -/
abbrev memAllocGoes (c : Cmd) (b : State) : Prop :=
  let p := payloadOf c
  let size := fieldN p 0 8
  size ≠ 0 ∧ size % 0x200000 = 0 ∧ size ≤ 0x6000000000 ∧ badTenant (fieldN p 8 2) = false ∧ fieldN p 10 1 ≤ 1 ∧
  otherTenant c (fieldN p 8 2) b = false ∧ hasHbmKey (fieldN p 8 2) b = true ∧
  (findRun (fun k => pageFree k b) (size / 0x200000) 196608 0 0).isSome = true ∧ (freeIdx b.srv.regions (·.live) 65536).isSome = true

/-- What MEM_FREE asks of its operands and of the state it runs in, for the effect whose premise is `memFreeGoes`. -/
abbrev memFreeGoes (c : Cmd) (b : State) : Prop :=
  let h := fieldN (payloadOf c) 0 4; passes (regionChecks c h b) ∧ regionUsed (h % 65536) b = false

/-- What MEM_COPY asks of its operands and of the state it runs in, for the effect whose premise is `memCopyIn`. -/
abbrev memCopyIn (c : Cmd) (b : State) : Prop :=
  let p := payloadOf c
  fieldN p 28 1 = 0 ∧ fieldN p 16 8 % 64 = 0 ∧ passes (regionChecks c (fieldN p 24 4) b) ∧
  (regionOf (fieldN p 24 4 % 65536) b).holds (fieldN p 8 8) (fieldN p 16 8) = true ∧ (readHost (mbReq c.mb b) c.rd.data b).isSome = true

/-- What MEM_COPY asks of its operands and of the state it runs in, for the effect whose premise is `memCopyOut`. -/
abbrev memCopyOut (c : Cmd) (b : State) : Prop :=
  let p := payloadOf c
  fieldN p 28 1 = 1 ∧ fieldN p 16 8 % 64 = 0 ∧ passes (regionChecks c (fieldN p 24 4) b) ∧ canIssue (mbReq c.mb b) b = true ∧
  (regionOf (fieldN p 24 4 % 65536) b).holds (fieldN p 0 8) (fieldN p 16 8) = true ∧ rangeClean (fieldN p 0 8) (fieldN p 16 8) b = true

/-- What MEM_COPY asks of its operands and of the state it runs in, for the effect whose premise is `memCopyHere`. -/
abbrev memCopyHere (c : Cmd) (b : State) : Prop :=
  let p := payloadOf c
  fieldN p 28 1 = 2 ∧ fieldN p 16 8 % 64 = 0 ∧ passes (regionChecks c (fieldN p 24 4) b) ∧
  (regionOf (fieldN p 24 4 % 65536) b).holds (fieldN p 0 8) (fieldN p 16 8) = true ∧
  (regionOf (fieldN p 24 4 % 65536) b).holds (fieldN p 8 8) (fieldN p 16 8) = true ∧ rangeClean (fieldN p 0 8) (fieldN p 16 8) b = true

/-- What NVME_CFG asks of its operands and of the state it runs in, for the effect whose premise is `nvmeCfgGoes`. -/
abbrev nvmeCfgGoes (c : Cmd) (b : State) : Prop :=
  let p := payloadOf c
  fieldN p 0 1 ≤ 1 ∧ fieldN p 1 1 < 16 ∧ 1 ≤ fieldN p 2 2 ∧ fieldN p 2 2 ≤ 64 ∧ fnState 0x08 b = .stopped

/-- What APERTURE_SET asks of its operands and of the state it runs in, for the effect whose premise is `apertureSetGoes`. -/
abbrev apertureSetGoes (c : Cmd) (_ : State) : Prop :=
  fieldN (payloadOf c) 0 8 % 0x40000000 = 0 ∧ fieldN (payloadOf c) 0 8 < 0x6000000000

/-- What MODEL_LOAD asks of its operands and of the state it runs in, for the effect whose premise is `modelLoadGoes`. -/
abbrev modelLoadGoes (c : Cmd) (b : State) : Prop :=
  let p := payloadOf c
  let r := regionOf (fieldN p 12 4 % 65536) b
  let t := fieldN p 24 2
  let img := slice ((readHost (mbReq c.mb b) c.rd.data b).getD []) 0 (fieldN p 8 4)
  let ys := loadRelocs (r.page * 0x200000) (devNum b) (placeAll img (sectHdrs img) 0)
  (isTenant c b = true → bitN (fieldN p 26 1) 0 = false) ∧ badTenant t = false ∧ fieldN p 26 1 ≤ 1 ∧
  passes (objChecks c (fieldN p 12 4) 65536 r.gen r.live r.fn b) ∧ otherTenant c t b = false ∧ hasHbmKey t b = true ∧
  (freeIdx b.srv.models (fun m => m.live) 65536).isSome = true ∧ (readHost (mbReq c.mb b) c.rd.data b).isSome = true ∧
  loadError img (fieldN p 8 4) (r.page * 0x200000) (r.pages * 0x200000) (devNum b) (placeAll img (sectHdrs img) 0) ys b = none

/-- What MODEL_UNLOAD asks of its operands and of the state it runs in, for the effect whose premise is `modelUnloadGoes`. -/
abbrev modelUnloadGoes (c : Cmd) (b : State) : Prop :=
  let h := fieldN (payloadOf c) 0 4
  let m := modelOf (h % 65536) b
  passes (objChecks c h 65536 m.gen m.live m.fn b) ∧ modelUsed (h % 65536) b = false

/-- What WEIGHTS_LOAD asks of its operands and of the state it runs in, for the effect whose premise is `weightsFromHost`. -/
abbrev weightsFromHost (c : Cmd) (b : State) : Prop :=
  let p := payloadOf c
  let m := modelOf (fieldN p 0 4 % 65536) b
  let x := m.sects.getD (fieldN p 4 4) {}
  fieldN p 24 1 = 0 ∧ zeroAt p 25 3 = true ∧ fieldN p 28 4 = 0 ∧ passes (objChecks c (fieldN p 0 4) 65536 m.gen m.live m.fn b) ∧
  fieldN p 4 4 < m.sects.length ∧ x.typ = 6 ∧ fieldN p 16 8 ≤ x.memLen ∧ modelUsed (fieldN p 0 4 % 65536) b = false ∧
  (readHost (mbReq c.mb b) c.rd.data b).isSome = true

/-- The operands of WEIGHTS_LOAD SRC 1: a rack global address of a device, the section and the model free to be written. -/
abbrev weightsFromDevice (c : Cmd) (b : State) : Prop :=
  let p := payloadOf c
  let m := modelOf (fieldN p 0 4 % 65536) b
  let x := m.sects.getD (fieldN p 4 4) {}
  fieldN p 24 1 = 1 ∧ fieldN p 8 8 / 2 ^ 45 < 72 ∧ sourceRange (bitsN (fieldN p 8 8) 0 45) (fieldN p 16 8) = true ∧ zeroAt p 25 3 = true ∧
  passes (objChecks c (fieldN p 0 4) 65536 m.gen m.live m.fn b) ∧ fieldN p 4 4 < m.sects.length ∧ x.typ = 6 ∧ fieldN p 16 8 ≤ x.memLen ∧
  modelUsed (fieldN p 0 4 % 65536) b = false

/-- What WEIGHTS_LOAD asks of its operands and of the state it runs in, for the effect whose premise is `weightsFromHere`. -/
abbrev weightsFromHere (c : Cmd) (b : State) : Prop :=
  let p := payloadOf c
  weightsFromDevice c b ∧ fieldN p 8 8 / 2 ^ 45 = devNum b ∧ rangeClean (bitsN (fieldN p 8 8) 0 45) (fieldN p 16 8) b = true

/-- What WEIGHTS_LOAD asks of its operands and of the state it runs in, for the effect whose premise is `weightsFromPeer`. -/
abbrev weightsFromPeer (c : Cmd) (b : State) : Prop :=
  let p := payloadOf c
  weightsFromDevice c b ∧ fieldN p 8 8 / 2 ^ 45 ≠ devNum b ∧ passes (connChecks c (fieldN p 28 4) b)

/-- What CTX_ALLOC asks of its operands and of the state it runs in, for the effect whose premise is `ctxAllocGoes`. -/
abbrev ctxAllocGoes (c : Cmd) (b : State) : Prop :=
  let p := payloadOf c
  let mh := fieldN p 0 4
  let m := modelOf (mh % 65536) b
  let t := fieldN p 4 2
  let d := Tab.get b.furl.doms (fieldN p 6 2)
  t < 256 ∧ fieldN p 6 2 < 4096 ∧ fieldN p 8 1 < 8 ∧ fieldN p 9 1 < 2 ∧ passes (modelChecks c mh b) ∧ otherTenant c t b = false ∧
  (m.shared = true ∨ m.tenant = t) ∧ d.opened = true ∧ d.mask.getLsbD t = true ∧
  m.sects.any (fun x => x.typ = 6 && !x.written) = false ∧ (freeIdx b.srv.ctxs (fun x => x.live) 4096).isSome = true

/-- What CTX_FREE asks of its operands and of the state it runs in, for the effect whose premise is `ctxFreeIdle`. -/
abbrev ctxFreeIdle (c : Cmd) (b : State) : Prop :=
  let h := fieldN (payloadOf c) 0 4
  fieldN (payloadOf c) 4 1 < 2 ∧ passes (ctxChecks c h b) ∧ (ctxOf (h % 65536) b).req = none

/-- What CTX_FREE asks of its operands and of the state it runs in, for the effect whose premise is `ctxFreeServing`. -/
abbrev ctxFreeServing (c : Cmd) (b : State) : Prop :=
  let h := fieldN (payloadOf c) 0 4
  fieldN (payloadOf c) 4 1 = 1 ∧ passes (ctxChecks c h b) ∧ (ctxOf (h % 65536) b).req.isSome = true

/-- A context is a proxy of one that another device serves (R585, R586). -/
abbrev away (x : Ctx) : Bool := x.evacuated && !x.destLost

/-- What CTX_QUERY asks of its operands and of the state it runs in, for the effect whose premise is `ctxQueryGoes`. -/
abbrev ctxQueryGoes (c : Cmd) (b : State) : Prop :=
  passes (ctxChecks c (fieldN (payloadOf c) 0 4) b)

/-- The frame that a SUBMIT names with FLAGS bit 1: its context, its slot and the slot's handle are right. -/
abbrev submitFrame (c : Cmd) (b : State) : Prop :=
  let p := payloadOf c
  let fh := fieldN p 12 4
  let f := fh % 65536 / 4
  let t := slotOf f (fh % 4) b
  if bitN (fieldN p 4 1) 1 then fieldN p 40 4 ≤ fieldN p 8 4 ∧ passes (objChecks c fh 1024 t.gen ((fctxOf f b).live && t.st ≠ .free) (fctxOf f b).fn b)
  else fh = 0

/-- The frame of a SUBMIT as the request holds it. -/
abbrev frameOf (c : Cmd) : Option (Nat × Nat) :=
  let p := payloadOf c
  if bitN (fieldN p 4 1) 1 then some (fieldN p 12 4 % 65536 / 4, fieldN p 12 4 % 4) else none

/-- What SUBMIT asks of its operands and of the state it runs in, wherever its context is served. -/
abbrev submitAsks (c : Cmd) (b : State) : Prop :=
  let p := payloadOf c
  let fl := fieldN p 4 1
  let n := fieldN p 8 4
  let x := ctxOf (fieldN p 0 4 % 65536) b
  fl < 8 ∧ zeroAt p 5 1 = true ∧ fieldN p 6 2 ≠ 0 ∧ n ≠ 0 ∧ n ≤ 262144 ∧ (bitN fl 2 = true → x.toks.length + n ≤ 262144) ∧ submitFrame c b ∧
  fieldN p 16 8 % 4 = 0 ∧ fieldN p 24 8 % 4 = 0 ∧ passes (ctxChecks c (fieldN p 0 4) b) ∧ x.req = none ∧
  (readHost (mbReq c.mb b) c.rd.data b).isSome = true

/-- The state in which the private KV of a SUBMIT is placed: without CONTINUE the context's blocks are let go first. -/
abbrev submitFrom (c : Cmd) (b : State) : State :=
  let i := fieldN (payloadOf c) 0 4 % 65536
  if bitN (fieldN (payloadOf c) 4 1) 2 then b else furlSettle (dropPriv i (dropBlocks i b))

/-- The pages that a SUBMIT's private KV needs. -/
abbrev submitPages (c : Cmd) (b : State) : Nat :=
  let p := payloadOf c
  let x := ctxOf (fieldN p 0 4 % 65536) b
  privNeed (modelOf x.model b) ((if bitN (fieldN p 4 1) 2 then x.toks.length else 0) + fieldN p 8 4 + framePatches (frameOf c) b + fieldN p 6 2)

/-- What SUBMIT asks of its operands and of the state it runs in, for the effect whose premise is `submitGoes`. -/
abbrev submitGoes (c : Cmd) (b : State) : Prop :=
  submitAsks c b ∧ (ctxOf (fieldN (payloadOf c) 0 4 % 65536) b).evacuated = false ∧
  (placePriv (fieldN (payloadOf c) 0 4 % 65536) (submitPages c b) (submitFrom c b)).isSome = true

/-- What SUBMIT asks of its operands and of the state it runs in, for the effect whose premise is `submitForwards`. -/
abbrev submitForwards (c : Cmd) (b : State) : Prop :=
  let x := ctxOf (fieldN (payloadOf c) 0 4 % 65536) b
  submitAsks c b ∧ x.evacuated = true ∧ x.destLost = false

/-- The ids of a SUBMIT's tokens. -/
abbrev submitIds (c : Cmd) (b : State) : List Nat :=
  (List.range (fieldN (payloadOf c) 8 4)).map (fun j => fieldN ((readHost (mbReq c.mb b) c.rd.data b).getD []) (4 * j) 4)

/-- The request that a SUBMIT makes: it runs from its fetch, which is when it began, alone as it came (R174, R177). -/
abbrev submitReq (c : Cmd) (r : Nat × Nat) (b : State) : Req :=
  let p := payloadOf c
  let o := b.host.cmds.find? (isRef r.1 r.2)
  { ref := r, fetched := (o.map (·.at_)).getD b.time.mono, deadline := fieldN p 32 4, maxNew := fieldN p 6 2, stop := fieldN p 36 4
    pubDecode := bitN (fieldN p 4 1) 0, furl := (o.map (·.furlUp)).getD true, outAddr := fieldN p 24 8, frame := frameOf c
    framePos := fieldN p 40 4 }

/-- What SUBMIT_CANCEL asks of its operands and of the state it runs in, for the effect whose premise is `submitCancelGoes`. -/
abbrev submitCancelGoes (c : Cmd) (b : State) : Prop :=
  let h := fieldN (payloadOf c) 0 4
  passes (ctxChecks c h b) ∧ (ctxOf (h % 65536) b).req.isSome = true

/-- What FURL_DOMAIN_CFG asks of its operands and of the state it runs in, for the effect whose premise is `furlDomainCfgGoes`. -/
abbrev furlDomainCfgGoes (c : Cmd) (_ : State) : Prop :=
  fieldN (payloadOf c) 0 2 < 4096 ∧ fieldN (payloadOf c) 2 1 < 2 ∧ zeroAt (payloadOf c) 3 1 = true

/-- What FURL_PIN asks of its operands and of the state it runs in, for the effect whose premise is `furlPinGoes`. -/
abbrev furlPinGoes (c : Cmd) (b : State) : Prop :=
  passes (ctxChecks c (fieldN (payloadOf c) 0 4) b) ∧ fnRunning 0x05 b = true ∧
  (freeIdx b.furl.pins (fun x => x.live) 65536).isSome = true

/-- What FURL_UNPIN asks of its operands and of the state it runs in, for the effect whose premise is `furlUnpinGoes`. -/
abbrev furlUnpinGoes (c : Cmd) (b : State) : Prop :=
  let h := fieldN (payloadOf c) 0 4
  let x := Tab.get b.furl.pins (h % 65536)
  passes (objChecks c h 65536 x.gen x.live x.fn b)

/-- What FURL_EVICT_CFG asks of its operands and of the state it runs in, for the effect whose premise is `furlEvictCfgGoes`. -/
abbrev furlEvictCfgGoes (c : Cmd) (b : State) : Prop :=
  let p := payloadOf c
  fieldN p 0 1 < fieldN p 1 1 ∧ fieldN p 1 1 ≤ 100 ∧ fieldN p 2 1 < 2 ∧ zeroAt p 3 1 = true ∧
  (bitN (fieldN p 2 1) 0 = true → fnState 0x05 b = .stopped)

/-- What FURL_PURGE asks of its operands and of the state it runs in, for the effect whose premise is `furlPurgeGoes`. -/
abbrev furlPurgeGoes (c : Cmd) (b : State) : Prop :=
  fieldN (payloadOf c) 0 2 < 4096 ∧ fieldN (payloadOf c) 2 1 < 2 ∧ zeroAt (payloadOf c) 3 1 = true ∧ fnRunning 0x05 b = true

/-- What FURL_PROBE asks of its operands and of the state it runs in, for the effect whose premise is `furlProbeGoes`. -/
abbrev furlProbeGoes (c : Cmd) (b : State) : Prop :=
  let p := payloadOf c
  let d := Tab.get b.furl.doms (fieldN p 4 2)
  fieldN p 4 2 < 4096 ∧ zeroAt p 6 2 = true ∧ fieldN p 8 4 ≠ 0 ∧ fieldN p 8 4 ≤ 262144 ∧ zeroAt p 12 4 = true ∧ fieldN p 16 8 % 4 = 0 ∧
  passes (modelChecks c (fieldN p 0 4) b) ∧ d.opened = true ∧
  (sessOf c b).all (fun x => x.tenant.all (fun t => d.mask.getLsbD t)) = true ∧
  fnRunning 0x05 b = true ∧ (readHost (mbReq c.mb b) c.rd.data b).isSome = true

/-- What SHR_CONN_OPEN asks of its operands and of the state it runs in, for the effect whose premise is `shrConnOpenGoes`. -/
abbrev shrConnOpenGoes (c : Cmd) (b : State) : Prop :=
  let p := payloadOf c
  let carrier := fieldN p 0 1
  let peer : ShrPeer := if carrier = 0 then .stay (fieldN p 4 2) else .udp (carrier - 1) (slice p 8 16)
  carrier < 3 ∧ fieldN p 1 1 < 3 ∧ badTenant (fieldN p 2 2) = false ∧
  (carrier = 0 → fieldN p 4 2 < 72 ∧ fieldN p 4 2 ≠ devNum b) ∧ zeroAt p 6 2 = true ∧
  timeoutOk (carrier = 0) (if fieldN p 24 4 = 0 then 200 else fieldN p 24 4) b = true ∧ b.dev.mode ≠ .quarantine ∧ b.rack.rmuLost = false ∧
  otherTenant c (fieldN p 2 2) b = false ∧
  fieldN p 28 4 ≤ 16383 ∧ (Tab.get b.sec.shr (fieldN p 28 4)).any (fun k => decide (k.tenant = fieldN p 2 2) && !k.used) = true ∧
  shrRuns b = true ∧ b.shr.conns.any (fun x => x.2.st = .opening && x.2.peer = peer) = false ∧
  (freeIdx b.shr.conns (fun x => !(x.st = .free)) 16384).isSome = true

/-- What SHR_CONN_CLOSE asks of its operands and of the state it runs in, for the effect whose premise is `shrConnCloseGoes`. -/
abbrev shrConnCloseGoes (c : Cmd) (b : State) : Prop :=
  let h := fieldN (payloadOf c) 0 4
  fieldN (payloadOf c) 4 1 < 2 ∧ passes (connChecks c h b) ∧ (connOf (h % 65536) b).st ≠ .opening ∧ (connOf (h % 65536) b).st ≠ .closing

/-- What SHR_CONN_TIMEOUT asks of its operands and of the state it runs in, for the effect whose premise is `shrConnTimeoutGoes`. -/
abbrev shrConnTimeoutGoes (c : Cmd) (b : State) : Prop :=
  let h := fieldN (payloadOf c) 0 4
  passes (connChecks c h b) ∧ timeoutOk (connOf (h % 65536) b).onStay (fieldN (payloadOf c) 4 4) b = true

/-- What SHR_MAP asks of its operands and of the state it runs in, for the effect whose premise is `shrMapGoes`. -/
abbrev shrMapGoes (c : Cmd) (b : State) : Prop :=
  let p := payloadOf c
  let i := fieldN p 0 4 % 65536
  let rg := regionOf (fieldN p 4 4 % 65536) b
  let own := b.shr.maps.filter (fun m => m.2.live && m.2.conn = i)
  fieldN p 8 8 % 4096 = 0 ∧ fieldN p 16 8 % 4096 = 0 ∧ fieldN p 16 8 ≠ 0 ∧ fieldN p 24 1 < 4 ∧ fieldN p 25 1 < 2 ∧
  b.dev.mode ≠ .quarantine ∧ b.rack.rmuLost = false ∧ passes (connChecks c (fieldN p 0 4) b) ∧
  passes (objChecks c (fieldN p 4 4) 65536 rg.gen rg.live rg.fn b) ∧ rg.tenant = (connOf i b).tenant ∧
  own.any (fun m => overlaps (fieldN p 8 8) (fieldN p 16 8) m.2.remote m.2.len) = false ∧ fieldN p 16 8 ≤ rg.pages * 0x200000 ∧
  shrRuns b = true ∧ (connOf i b).st = .opened ∧ own.length < 256 ∧ (freeIdx b.shr.maps (·.live) 65536).isSome = true

/-- An operation executes through window k of a connection: its oldest whole one, held at an absent page (R407). -/
abbrev windowBusy (k : Nat) (b : State) : Bool :=
  let m := Tab.get b.shr.maps k
  match (connOf m.conn b).inq with
  | o :: _ => o.whole && o.opc ≠ 5 && decide (((windowAt m.conn o.addr b).map (·.1)) = some k)
  | [] => false

/-- What SHR_UNMAP asks of its operands and of the state it runs in, whether it completes at once or waits. -/
abbrev shrUnmapGoes (c : Cmd) (b : State) : Prop :=
  let h := fieldN (payloadOf c) 0 4
  let m := Tab.get b.shr.maps (h % 65536)
  passes (objChecks c h 65536 m.gen m.live m.fn b) ∧ m.unmap = none

/-- What SHR_UNMAP asks of its operands and of the state it runs in, for the effect whose premise is `shrUnmapNow`. -/
abbrev shrUnmapNow (c : Cmd) (b : State) : Prop := shrUnmapGoes c b ∧ windowBusy (fieldN (payloadOf c) 0 4 % 65536) b = false

/-- What SHR_UNMAP asks of its operands and of the state it runs in, for the effect whose premise is `shrUnmapWaits`. -/
abbrev shrUnmapWaits (c : Cmd) (b : State) : Prop := shrUnmapGoes c b ∧ windowBusy (fieldN (payloadOf c) 0 4 % 65536) b = true

/-- What SHR_CC_CFG asks of its operands and of the state it runs in, for the effect whose premise is `shrCcCfgGoes`. -/
abbrev shrCcCfgGoes (c : Cmd) (b : State) : Prop :=
  zeroAt (payloadOf c) 10 2 = true ∧ fnState 3 b = .stopped

/-- What TRIM_MODE asks of its operands and of the state it runs in, for the effect whose premise is `trimModeGoes`. -/
abbrev trimModeGoes (c : Cmd) (b : State) : Prop :=
  fieldN (payloadOf c) 0 1 < 14 ∧ zeroAt (payloadOf c) 3 1 = true ∧ fnState 4 b = .stopped

/-- What TRIM_SHAPER asks of its operands and of the state it runs in, for the effect whose premise is `trimShaperGoes`. -/
abbrev trimShaperGoes (c : Cmd) (_ : State) : Prop :=
  let p := payloadOf c
  let rate := fieldN p 4 4
  let burst := fieldN p 8 4
  fieldN p 0 1 < 14 ∧ (fieldN p 1 1 < 6 ∨ fieldN p 1 1 = 0xFF) ∧ zeroAt p 2 2 = true ∧
  (rate = 0 → burst = 0) ∧
  (rate ≠ 0 → 10 ≤ rate ∧ rate ≤ (if fieldN p 0 1 < 2 then 400000 else 800000) ∧ 16384 ≤ burst ∧ burst ≤ 16777216)

/-- What TRIM_POLICER asks of its operands and of the state it runs in, for the effect whose premise is `trimPolicerGoes`. -/
abbrev trimPolicerGoes (c : Cmd) (b : State) : Prop :=
  let p := payloadOf c
  fieldN p 0 2 < 256 ∧ fieldN p 2 1 < 2 ∧ fieldN p 3 1 < 2 ∧ (fieldN p 4 4 ≠ 0 → 8192 ≤ fieldN p 8 4 ∧ fieldN p 8 4 ≤ 16777216) ∧
  (bitN (fieldN p 2 1) 0 = true → fnState 4 b = .stopped)

/-- What PLB_WINDOW asks of its operands and of the state it runs in, for the effect whose premise is `plbWindowGoes`. -/
abbrev plbWindowGoes (c : Cmd) (b : State) : Prop :=
  let p := payloadOf c
  fieldN p 0 1 < 2 ∧ fieldN p 1 1 < 8 ∧ fieldN p 2 1 < 3 ∧ fieldN p 3 1 < 4 ∧ zeroAt p 12 4 = true ∧ fnState 7 b = .stopped

/-- What PLB_ACCESS asks of its operands and of the state it runs in, for the effect whose premise is `plbAccessGoes`. -/
abbrev plbAccessGoes (c : Cmd) (b : State) : Prop :=
  let p := payloadOf c
  let n := fieldN p 4 1
  (n = 1 ∨ n = 2 ∨ n = 4) ∧ fieldN p 0 4 % n = 0 ∧ fieldN p 5 1 < 2 ∧ zeroAt p 6 2 = true ∧
  (fieldN p 5 1 = 0 → fieldN p 8 4 < 256 ^ n) ∧ inboundWin (fieldN p 0 4) b = none ∧ bowRuns b = true

/-- What PLB_IRQ_ROUTE asks of its operands and of the state it runs in, for the effect whose premise is `plbIrqRouteGoes`. -/
abbrev plbIrqRouteGoes (c : Cmd) (b : State) : Prop :=
  let p := payloadOf c
  fieldN p 0 1 < 8 ∧ fieldN p 1 1 < 3 ∧ fieldN p 3 1 < 2 ∧ fnState 7 b = .stopped

/-- What PLB_ARB_CFG asks of its operands and of the state it runs in, for the effect whose premise is `plbArbCfgGoes`. -/
abbrev plbArbCfgGoes (c : Cmd) (b : State) : Prop :=
  fieldN (payloadOf c) 0 1 < 2 ∧ fnState 7 b = .stopped

/-- The context that a FRAME_CTX_CFG makes: its entry, its Cleat and what the operands say. -/
abbrev newFrameCtx (c : Cmd) (b : State) : FrameCtx :=
  let p := payloadOf c
  { gen := firstGen (fctxOf ((freeIdx b.frame.ctxs (fun x => x.live) 256).getD 0) b).gen, live := true, fn := mbFn c.mb b, tenant := fieldN p 22 2
    source := fieldN p 0 1, pixfmt := fieldN p 1 1, follow := bitN (fieldN p 2 1) 0, fillRepeat := bitN (fieldN p 2 1) 1, width := fieldN p 4 2
    height := fieldN p 6 2, frameBytes := fieldN p 8 4, fillRgb := fieldN p 12 4, region := fieldN p 16 4 % 65536, patch := fieldN p 20 2
    curW := fieldN p 4 2, curH := fieldN p 6 2, cleat := (freeIdx b.comp.gcl (fun x => x.active) 4096).getD 0 }

/-- What FRAME_CTX_CFG asks of its operands and of the state it runs in, for the effect whose premise is `frameCtxCfgGoes`. -/
abbrev frameCtxCfgGoes (c : Cmd) (b : State) : Prop :=
  let p := payloadOf c
  let raw := decide (fieldN p 0 1 = 0)
  let w := fieldN p 4 2
  let h := fieldN p 6 2
  let rg := regionOf (fieldN p 16 4 % 65536) b
  fieldN p 0 1 < 4 ∧ (if raw then fieldN p 1 1 < 3 else fieldN p 1 1 = 2) ∧ fieldN p 2 1 < 4 ∧ zeroAt p 3 1 = true ∧
  sizeOk (fieldN p 0 1) w (if raw then 16 else 64) = true ∧ sizeOk (fieldN p 0 1) (if raw then 16 else 64) h = true ∧
  fieldN p 8 4 = (if raw then rawBytes w h (fieldN p 1 1) else 0) ∧ fieldN p 12 4 < 2 ^ 24 ∧ 4 ≤ fieldN p 20 2 ∧ fieldN p 20 2 ≤ 64 ∧
  fieldN p 20 2 % 2 = 0 ∧ fieldN p 22 2 < 256 ∧ passes (objChecks c (fieldN p 16 4) 65536 rg.gen rg.live rg.fn b) ∧
  otherTenant c (fieldN p 22 2) b = false ∧ hasHbmKey (fieldN p 22 2) b = true ∧ rg.tenant = fieldN p 22 2 ∧
  (newFrameCtx c b).slotOff 4 + (if raw then 0x100000 else 0) ≤ rg.pages * 0x200000 ∧
  fnRunning 0x06 b = true ∧ (freeIdx b.frame.ctxs (fun x => x.live) 256).isSome = true ∧
  (freeIdx b.comp.gcl (fun x => x.active) 4096).isSome = true

/-- What FRAME_CTX_FREE asks of its operands and of the state it runs in, for the effect whose premise is `frameCtxFreeGoes`. -/
abbrev frameCtxFreeGoes (c : Cmd) (b : State) : Prop :=
  let h := fieldN (payloadOf c) 0 4
  passes (fctxChecks c h b) ∧ anySlot (h % 65536) (fun t => t = .queued || t = .begun) b = false ∧ frameHeld (h % 65536) none b = false

/-- What FRAME_RC asks of its operands and of the state it runs in, for the effect whose premise is `frameRcGoes`. -/
abbrev frameRcGoes (c : Cmd) (b : State) : Prop :=
  passes (fctxChecks c (fieldN (payloadOf c) 0 4) b)

/-- What FRAME_ROI asks of its operands and of the state it runs in, for the effect whose premise is `frameRoiGoes`. -/
abbrev frameRoiGoes (c : Cmd) (b : State) : Prop :=
  let p := payloadOf c
  let x := fctxOf (fieldN p 0 4 % 65536) b
  fieldN p 4 1 < 8 ∧ -12 ≤ fieldS p 5 1 ∧ fieldS p 5 1 ≤ 12 ∧ fieldN p 6 1 < 2 ∧ zeroAt p 7 1 = true ∧ passes (fctxChecks c (fieldN p 0 4) b) ∧
  (bitN (fieldN p 6 1) 0 = true → fieldN p 8 2 + fieldN p 12 2 ≤ x.width ∧ fieldN p 10 2 + fieldN p 14 2 ≤ x.height ∧
    anySlot (fieldN p 0 4 % 65536) (fun t => t = .begun) b = false)

/-- The picture size that a FRAME_SUBMIT has: that of the context, or what the decoder reads in the chunk's stream. -/
abbrev submitDims (c : Cmd) (b : State) : Nat × Nat :=
  let p := payloadOf c
  let x := fctxOf (fieldN p 0 4 % 65536) b
  let chunk := if bitN (fieldN p 4 1) 0 then some (rawRead (fieldN p 8 8) (fieldN p 16 4) b) else readHost (mbReq c.mb b) c.rd.data b
  (if x.source = 0 then none else Config.streamDims x.source (chunk.getD [])).getD (x.curW, x.curH)

/-- What FRAME_SUBMIT asks of its operands and of the state it runs in, whether it waits for the frame or not. -/
abbrev frameSubmitGoes (c : Cmd) (b : State) : Prop :=
  let p := payloadOf c
  let f := fieldN p 0 4 % 65536
  let x := fctxOf f b
  let d := submitDims c b
  fieldN p 4 1 < 4 ∧ zeroAt p 5 3 = true ∧ fieldN p 16 4 ≠ 0 ∧ fieldN p 16 4 ≤ 0x4000000 ∧ passes (fctxChecks c (fieldN p 0 4) b) ∧
  (bitN (fieldN p 4 1) 0 = true → inTenantRegion x.tenant (fieldN p 8 8) (fieldN p 16 4) b = true) ∧
  (x.source ≠ 0 → (x.follow = true ∨ d = (x.width, x.height)) ∧ pictBytes d.1 d.2 ≤ pictBytes x.width x.height ∧
    x.slotBytes d.1 d.2 ≤ x.slotBytes x.width x.height) ∧
  fnRunning 0x06 b = true ∧ (pickSlot f b).isSome = true

/-- What FRAME_SUBMIT asks of its operands and of the state it runs in, for the effect whose premise is `frameSubmitNow`. -/
abbrev frameSubmitNow (c : Cmd) (b : State) : Prop := frameSubmitGoes c b ∧ bitN (fieldN (payloadOf c) 4 1) 1 = false

/-- What FRAME_SUBMIT asks of its operands and of the state it runs in, for the effect whose premise is `frameSubmitWaits`. -/
abbrev frameSubmitWaits (c : Cmd) (b : State) : Prop := frameSubmitGoes c b ∧ bitN (fieldN (payloadOf c) 4 1) 1 = true

/-- The generation of the slot that a FRAME_SUBMIT takes. -/
abbrev submitGen (c : Cmd) (b : State) : Nat :=
  let f := fieldN (payloadOf c) 0 4 % 65536
  let old := slotOf f ((pickSlot f b).getD 0) b
  if old.st = .ended then nextGen old.gen else firstGen old.gen

/-- The state with a FRAME_SUBMIT's frame queued in its slot: captured at its fetch where the source is a stream (R517). -/
abbrev frameQueued (c : Cmd) (r : Nat × Nat) (b : State) : State :=
  let p := payloadOf c
  let f := fieldN p 0 4 % 65536
  let x := fctxOf f b
  let d := submitDims c b
  let n := (pickSlot f b).getD 0
  let at_ := ((b.host.cmds.find? (isRef r.1 r.2)).map (·.at_)).getD b.time.mono
  let t : FrameSlot :=
    { st := .queued, gen := submitGen c b, seq := x.seq + 1, width := d.1, height := d.2, captureNs := if x.source = 0 then 0 else at_
      srcLocal := bitN (fieldN p 4 1) 0, srcAddr := fieldN p 8 8, len := fieldN p 16 4, wait := if bitN (fieldN p 4 1) 1 then some r else none }
  putRecord f n (modFctx f (fun x => { x with seq := x.seq + 1, curW := d.1, curH := d.2, slots := Tab.put x.slots n t }) b)

/-- What REEF_CFG asks of its operands and of the state it runs in, for the effect whose premise is `reefCfgGoes`. -/
abbrev reefCfgGoes (c : Cmd) (b : State) : Prop :=
  fieldN (payloadOf c) 0 1 < 3 ∧ fieldN (payloadOf c) 1 1 < 8 ∧ fnState 0x09 b = .stopped

/-- What REEF_SNAPSHOT asks of its operands and of the state it runs in, for the effect whose premise is `reefSnapshotGoes`. -/
abbrev reefSnapshotGoes (c : Cmd) (b : State) : Prop :=
  let p := payloadOf c
  let one := fieldN p 0 1 = 1
  fieldN p 0 1 < 2 ∧ zeroAt p 1 3 = true ∧ (one → passes (ctxChecks c (fieldN p 4 4) b) ∧ (ctxOf (fieldN p 4 4 % 65536) b).evacuated = false) ∧
  fnRunning 0x09 b = true ∧ b.reef.st ≠ .snapping ∧ b.reef.st ≠ .evacuating ∧ snapRoom b = true

/-- What REEF_EVACUATE asks of its operands and of the state it runs in, for the effect whose premise is `reefEvacuateGoes`. -/
abbrev reefEvacuateGoes (c : Cmd) (b : State) : Prop :=
  let p := payloadOf c
  let h := fieldN p 0 4
  fieldN p 4 2 ≠ devNum b ∧ fieldN p 4 2 ≤ 71 ∧ evacTo (fieldN p 4 2) b = true ∧ passes (snapChecks c h b) ∧ fnRunning 0x09 b = true ∧
  (snapOf (h % 65536) b).ready = true ∧ b.reef.st ≠ .snapping ∧ b.reef.st ≠ .evacuating

/-- What REEF_RESTORE asks of its operands and of the state it runs in, for the effect whose premise is `reefRestoreGoes`. -/
abbrev reefRestoreGoes (c : Cmd) (b : State) : Prop :=
  let d := fieldN (payloadOf c) 4 2
  d ≤ 71 ∧ d ≠ devNum b ∧ activeMember d b = true ∧ fnRunning 0x09 b = true

/-- The copy that a REEF_RESTORE of an own snapshot reads. -/
abbrev ownCopy (c : Cmd) (b : State) : Option (Nat × NvSnap) :=
  let x := snapOf (fieldN (payloadOf c) 0 4 % 65536) b
  match x.target with
  | .nvme n => if x.live && x.ready then slotCopy n b else none
  | .peer _ => none

/-- An own snapshot's images after a REEF_RESTORE has read its copy and put back those that can be: the contexts, how many were skipped,
and the state. -/
abbrev putBack (c : Cmd) (b : State) : List Nat × Nat × State :=
  let x := snapOf (fieldN (payloadOf c) 0 4 % 65536) b
  let n := match x.target with | .nvme n => n | .peer _ => 0
  let k := (ownCopy c b).getD (0, default)
  k.2.images.foldl (fun p g => reinstate g p) ([], 0, nvSubmit k.1 .read .none (slotFirst k.1 n b) ((x.total + 4095) / 4096) 0 b)

/-- What REEF_RESTORE asks of its operands and of the state it runs in, for an own snapshot. -/
abbrev reefRestoreOwn (c : Cmd) (b : State) : Prop :=
  fieldN (payloadOf c) 4 2 = devNum b ∧ devNum b ≤ 71 ∧ passes (snapChecks c (fieldN (payloadOf c) 0 4) b) ∧ (ownCopy c b).isSome = true ∧
  fnRunning 0x09 b = true

/-- What REEF_RESTORE asks of its operands and of the state it runs in, for the effect whose premise is `reefRestoreSome`. -/
abbrev reefRestoreSome (c : Cmd) (b : State) : Prop := reefRestoreOwn c b ∧ (putBack c b).1 ≠ []

/-- What REEF_RESTORE asks of its operands and of the state it runs in, for the effect whose premise is `reefRestoreNone`. -/
abbrev reefRestoreNone (c : Cmd) (b : State) : Prop := reefRestoreOwn c b ∧ (putBack c b).1 = []

/-- What SEC_KEY_SET asks of its operands and of the state it runs in, for the effect whose premise is `secKeySetGoes`. -/
abbrev secKeySetGoes (c : Cmd) (b : State) : Prop :=
  let p := payloadOf c
  let t := fieldN p 0 2
  let kind := fieldN p 2 1
  let slot := fieldN p 4 4
  t < 256 ∧ kind < 2 ∧ zeroAt p 3 1 = true ∧ zeroAt p 8 8 = true ∧ b.sec.lock ≠ .opened ∧ b.sec.fuse.kik.isSome = true ∧
  (kind = 0 → slot = 0 ∧ ((Tab.get b.sec.hbm t).isSome && domainInUse t b) = false) ∧
  (kind = 1 → slot ≤ 16383 ∧ keySlotUsed slot b = false)

/-- What SEC_KEY_DESTROY asks of its operands and of the state it runs in, for the effect whose premise is `secKeyDestroyGoes`. -/
abbrev secKeyDestroyGoes (c : Cmd) (b : State) : Prop :=
  let p := payloadOf c
  let t := fieldN p 0 2
  let slot := fieldN p 4 4
  t < 256 ∧ fieldN p 2 1 < 2 ∧ zeroAt p 3 1 = true ∧
  (fieldN p 2 1 = 0 → slot = 0 ∧ (Tab.get b.sec.hbm t).isSome = true ∧ domainInUse t b = false) ∧
  (fieldN p 2 1 = 1 → slot ≤ 16383 ∧ (Tab.get b.sec.shr slot).any (fun k => decide (k.tenant = t)) = true ∧ keySlotUsed slot b = false)

/-- The bytes of an FW_UPDATE: in its payload on SMB0, else at its address. -/
abbrev fwData (c : Cmd) (b : State) : Option (List Byte) :=
  if c.mb < 16 then readHost (mbReq c.mb b) c.rd.data b else some (slice (payloadOf c) 20 (fieldN (payloadOf c) 8 4))

/-- The slot's image after the chunk of an FW_UPDATE. -/
abbrev fwImage (c : Cmd) (b : State) : List Byte :=
  (if fieldN (payloadOf c) 12 4 = 0 then [] else (fwSlot (1 - b.dev.slot) b).written) ++ slice ((fwData c b).getD []) 0 (fieldN (payloadOf c) 8 4)

/-- What FW_UPDATE asks of its operands and of the state it runs in, whether the chunk is the last or not. -/
abbrev fwUpdateGoes (c : Cmd) (b : State) : Prop :=
  let p := payloadOf c
  let len := fieldN p 8 4
  let off := fieldN p 12 4
  (c.mb < 16 → len ≤ 1048576) ∧ (c.mb = 16 → fieldN p 0 8 = 0 ∧ len ≤ 996 ∧ c.plen = 20 + len) ∧ len ≠ 0 ∧ off + len ≤ 33554432 ∧
  zeroAt p 17 3 = true ∧ b.pins.pwrFallen = false ∧ (off = 0 ∨ off = (fwSlot (1 - b.dev.slot) b).written.length) ∧ (fwData c b).isSome = true

/-- What FW_UPDATE asks of its operands and of the state it runs in, for the effect whose premise is `fwUpdateChunk`. -/
abbrev fwUpdateChunk (c : Cmd) (b : State) : Prop := fwUpdateGoes c b ∧ fieldN (payloadOf c) 16 1 = 0

/-- What FW_UPDATE asks of its operands and of the state it runs in, for the effect whose premise is `fwUpdateLast`. -/
abbrev fwUpdateLast (c : Cmd) (b : State) : Prop :=
  let n := fieldN (payloadOf c) 12 4 + fieldN (payloadOf c) 8 4
  fwUpdateGoes c b ∧ fieldN (payloadOf c) 16 1 = 1 ∧ n % 4096 = 0 ∧ n = 512 + fieldN (fwImage c b) 16 4

/-- What DEBUG_UNLOCK asks of its operands and of the state it runs in, for the effect whose premise is `debugUnlockPassword`. -/
abbrev debugUnlockPassword (c : Cmd) (b : State) : Prop :=
  let p := payloadOf c
  fieldN p 0 1 = 0 ∧ zeroAt p 1 3 = true ∧ (slice p 4 16).all pwChar = true ∧ b.sec.lock ≠ .lockedOut ∧ b.sec.fails < 5 ∧
  anyTenantKey b = false ∧ fnState 0x05 b = .stopped

/-- What DEBUG_UNLOCK asks of its operands and of the state it runs in, for the effect whose premise is `debugUnlockOwner`. -/
abbrev debugUnlockOwner (c : Cmd) (b : State) : Prop :=
  let p := payloadOf c
  fieldN p 0 1 = 1 ∧ zeroAt p 1 3 = true ∧ b.sec.lock ≠ .lockedOut ∧ b.sec.fails < 5 ∧ anyTenantKey b = false ∧ fnState 0x05 b = .stopped ∧
  b.sec.fuse.ownerPub.isSome = true

/-- What an attempt to unlock leaves, when it verifies and when it does not (R191, R558 - R562): the state and the status. -/
abbrev unlockEnd (method : Nat) (good : Bool) (b : State) : State × Status :=
  let b1 := modSec (fun x => { x with chal := none }) b
  if good then (if b.sec.lock = .opened then modSec (fun x => { x with fails := 0 }) b1 else consoleClass (lockOpen method b1), .ok)
  else (unlockFail b1, .perm)

/-- What DEBUG_LOCK asks of its operands and of the state it runs in, for the effect whose premise is `debugLockGoes`. -/
abbrev debugLockGoes (_ : Cmd) (_ : State) : Prop :=
  True

/-- What SENSOR_READ asks of its operands and of the state it runs in, for the effect whose premise is `sensorReadGoes`. -/
abbrev sensorReadGoes (c : Cmd) (_ : State) : Prop :=
  fieldN (payloadOf c) 8 1 < 3

/-- What RATLINE_SWEEP asks of its operands and of the state it runs in, for the effect whose premise is `ratlineSweepGoes`. -/
abbrev ratlineSweepGoes (_ : Cmd) (b : State) : Prop :=
  b.rl.sweep = none

/-- What CONSOLE_CFG asks of its operands and of the state it runs in, for the effect whose premise is `consoleCfgGoes`. -/
abbrev consoleCfgGoes (c : Cmd) (_ : State) : Prop :=
  9600 ≤ fieldN (payloadOf c) 0 4 ∧ fieldN (payloadOf c) 0 4 ≤ 3000000

/-- What PSTORE_READ asks of its operands and of the state it runs in, for the effect whose premise is `pstoreReadGoes`. -/
abbrev pstoreReadGoes (c : Cmd) (b : State) : Prop :=
  fieldN (payloadOf c) 8 2 ≤ 0xFF ∧ (psRead (fieldN (payloadOf c) 8 2) b).isSome = true ∧
  fieldN (payloadOf c) 10 2 < ((psRead (fieldN (payloadOf c) 8 2) b).getD []).length

/-- What PSTORE_WRITE asks of its operands and of the state it runs in, for the effect whose premise is `pstoreWriteGoes`. -/
abbrev pstoreWriteGoes (c : Cmd) (b : State) : Prop :=
  let p := payloadOf c
  (16 ≤ c.mb → fieldN p 0 8 = 0 ∧ zeroAt p 12 4 = true) ∧ fieldN p 8 2 ≤ 0xFF ∧ fieldN p 10 2 ≠ 0 ∧ fieldN p 10 2 ≤ 4096 ∧
  b.pins.pwrFallen = false ∧ b.ps.writing = none ∧ (c.mb < 16 → (readHost (mbReq c.mb b) c.rd.data b).isSome = true)

/-- What RACK_EPOCH asks of its operands and of the state it runs in, for the effect whose premise is `rackEpochGoes`. -/
abbrev rackEpochGoes (c : Cmd) (b : State) : Prop :=
  let v := viewOf (payloadOf c)
  v.fwMin ≤ v.fwMax ∧ v.fwMax < 2 ^ 24 ∧ (b.rack.view.epoch < v.epoch ∨ b.rack.view = v)

/-! ### What follows a step -/

/-- Nothing follows a step: no command waits, no object dies, nothing that Masthead watches has changed. -/
def nothingWaits (s : State) : Bool :=
  s.host.cmds.isEmpty && decide ((((s.mem.pages.filter (fun p => p.2.use = .retired && !p.2.unrecorded)).map (·.1)).take 1024) = s.mem.listed) &&
  !(s.srv.regions.any (fun r => r.2.fn = dying) || s.srv.models.any (fun r => r.2.fn = dying) || s.furl.pins.any (fun r => r.2.fn = dying) ||
    s.shr.maps.any (fun r => r.2.fn = dying) || s.frame.ctxs.any (fun r => r.2.fn = dying)) &&
  !(speaks s && decide (s.rack.said ≠ sayNow s)) && decide (activeMask s = s.rack.active) &&
  (List.range 72).all (fun e => !s.rack.active.getLsbD e || (match (peerOf e s).ann with | none => true | some a => decide (a.ecdh = (peerOf e s).sysKey))) &&
  s.reef.restores.isEmpty && s.srv.ctxs.all (fun c => !(c.2.hosted.isSome && c.2.frozen)) &&
  s.trim.qs.all (fun c => !decide (16 ≤ c.1) || c.2.pkts.all (fun k => k.started || decide (vcState k.vc s = .ready))) &&
  s.trim.waiting.all (fun w => !decide (16 ≤ w.1) || w.2.started || decide (vcState w.2.vc s = .ready)) &&
  s.furl.probes.isEmpty && s.furl.selfq.isEmpty && (newlyLost s).isEmpty && s.srv.ctxs.all (fun c => match c.2.req with | some r => !frameBad r s | none => true) &&
  s.pcie.fns.all (fun p => !p.2.flr) && s.shr.loads.all (fun l => !decide (l.left = 0)) &&
  s.furl.copies.all (fun y => y.nvme || !decide (y.left = 0)) && s.furl.failed.isEmpty &&
  s.srv.dispatches.all (fun d => !(d.2.live && d.2.ending)) && decide (linkMapData s = s.stay.mapSaid)

end Sys2Proof.Safety
end

