-- ==== Sys2Proof/Certificates/Slice0/Obligations.lean ====
section
/-! DEFINITION. The statements for the provers: every family of commands answers with the effect of its rows, and what holds of
the whole block. -/

open Sys2Proof Sys2Proof.Machine Sys2Proof.Safety

/-! ### The whole block -/

/-- A step runs the command at the front of the queue on the state with the queue's rest, and every command answers a next state. On an
empty queue one TCLK edge passes, which is the model's choice (log entry 8). The
table gives no row bits, so that no word spells a command. -/
def Obligations.StepRunsTheFront : Prop :=
  (∀ c rest s, s.pending = c :: rest → step s = exec c { s with pending := rest } ∧ ∃ t, step s = .next t) ∧
  (∀ s, s.pending = [] → step s = .next (idleTick s)) ∧
  (∀ nbits w (s : State), decodeTableWord nbits w = none ∧ s.withFetchWord nbits w = s)

/-- What reset leaves: BOOT at ROM_START after a power-on, and the reset values that Tables 3.5, 4.3, 5.1 - 5.12, 16.9, 17.2, 19.5 and
23.3 give. Memory lists nothing and has its canonical form; the queue is empty. The values of log entry 1 are the model's and none of
them is stated here. -/
def Obligations.ResetLeaves : Prop :=
  let s := State.reset
  (s.dev.mode = .boot ∧ s.dev.stage = 1 ∧ s.dev.fail = false ∧ s.dev.cause = 0 ∧ s.dev.item = 0xFF ∧ s.dev.heartbeat = 0) ∧
  (s.pow.policy.vmin = 600 ∧ s.pow.policy.vmax = 900 ∧ s.pow.policy.pcap = 1200 ∧ s.pow.policy.noncore = 300 ∧
    s.pow.policy.freq0 = 2000 ∧ s.pow.policy.freq1 = 2000 ∧ s.pow.policy.avsEn = true ∧ s.pow.r0.f = 800 ∧ s.pow.r1.f = 800) ∧
  (s.tt.sticky = 0 ∧ s.tt.wiring = 0 ∧ s.tt.reaction = .none ∧ s.tt.irqEn = false) ∧
  (∀ f, fnState f s = .stopped) ∧ (∀ m, (Tab.get s.host.mbx m).session = none) ∧
  (∀ m, (Tab.get s.host.pages m).sqTail = 0 ∧ (Tab.get s.host.pages m).cqHead = 0 ∧ (Tab.get s.host.pages m).phase = true) ∧
  (s.time.sec = 0 ∧ s.time.ns = 0 ∧ s.time.synced = false) ∧ s.rack.mstate = .unset ∧ s.pins.gpioDir = 0 ∧ s.pins.nvmePerstN = 0 ∧
  (s.sec.lock = .closed ∧ s.sec.hbm = [] ∧ s.sec.shr = [] ∧ s.sec.media0 = none ∧ s.sec.media1 = none) ∧
  (∀ k, (linkOf k s).st = .training ∧ (linkOf k s).phase = .detect ∧ (linkOf k s).lanes = .x4) ∧
  (∀ p, p < 2 → (Tab.get s.eth p).up = false ∧ (Tab.get s.trim.ports p).weights = [16, 16, 16, 16, 16, 16, 0, 0]) ∧
  (∀ i, (connOf i s).st = .free) ∧ (s.shr.target = 3000 ∧ s.shr.ai = 2000 ∧ s.shr.md = 16384 ∧ s.shr.minRate = 1000) ∧
  (s.bow.maxTenure = 256 ∧ s.bow.pclkDiv = 48 ∧ (Tab.get s.bow.outw 0).enable = true ∧ (Tab.get s.bow.outw 0).size = 0x10000000 ∧
    (Tab.get s.bow.inw 0).enable = true ∧ (Tab.get s.bow.inw 0).base = 0xFFF00000 ∧ (Tab.get s.bow.inw 0).size = 4096) ∧
  (∀ t, (tileOf t s).st = .idle) ∧ (∀ h, (halOf h s).st = .idle) ∧ (∀ d, d < 2 → (driveOf d s).st = .absent) ∧
  s.mem.bytes = [] ∧ s.mem.ecc = [] ∧ s.mem.wf = true ∧ s.pending = []

/-- Only a cold reset takes the device out of SAFE (R618): whatever command a step runs in SAFE, the device is in SAFE after it, unless
the command is a power-on reset or SYS_RST_N falling, which leave COLD. -/
def Obligations.SafeIsLeftOnlyByColdReset : Prop :=
  ∀ s s', s.dev.mode = .safe → step s = .next s' →
    s'.dev.mode = .safe ∨ (s'.dev.mode = .cold ∧ (s.pending.head? = some .powerOnReset ∨ s.pending.head? = some .sysRstNLow))

/-- A write of memory (R310, R301, and the frame of every write): it leaves every byte outside its range as it was and the canonical form;
a byte at an address of Table 13.1 lands unless its word is poisoned, and one at any other address changes nothing; a write of the whole
aligned 64 bytes around a poisoned word lands and clears the poison, and any other one leaves the word and its poison as they were. -/
def Obligations.WritesLandAndPoisonHolds : Prop :=
  ∀ a bs s, s.mem.wf = true →
    let t := memWrite a bs s
    t.mem.wf = true ∧ bytesKept a bs.length s t ∧
    (∀ i < bs.length, inMemory (a + i) = true →
      Tab.get s.mem.ecc (wordOf (a + i)) = .clean ∨ Tab.get s.mem.ecc (wordOf (a + i)) = .correctable → byteAt (a + i) t = bs.getD i 0) ∧
    (∀ i < bs.length, inMemory (a + i) = false → byteAt (a + i) t = byteAt (a + i) s) ∧
    (∀ w, inMemory w = true → w % eccUnit w = 0 → Tab.get s.mem.ecc w = .poisoned →
      let whole := a ≤ w / 64 * 64 ∧ w / 64 * 64 + 64 ≤ a + bs.length
      (whole → Tab.get t.mem.ecc w = .clean ∧ ∀ i < eccUnit w, byteAt (w + i) t = bs.getD (w + i - a) 0) ∧
      (¬ whole → Tab.get t.mem.ecc w = .poisoned ∧ ∀ i < eccUnit w, byteAt (w + i) t = byteAt (w + i) s))

/-- An event has its own effect alone where it leaves nothing to follow: no command waits, no object dies and nothing that Masthead
watches has changed. With this every statement of an event gives its whole next state, and what that state keeps. -/
def Obligations.QuietEventsHaveTheirEffectAlone : Prop :=
  (∀ s, nothingWaits s = true → settle s = s) ∧ (∀ i s t, acts i s t → nothingWaits t = true → answers i s t)

/-! ### The command catalogue (Tables 7.4 - 7.19) -/

/-- Device and session commands complete with the effect of their rows (Table 7.4; from R149, R154, R155, R172, R186). -/
def Obligations.DeviceCommandsComplete : Prop :=
  rowOk Instr.readiness 0x0001 (fun _ _ => True) (fun _ b => (b, readinessBytes b)) ∧
  rowOk Instr.identity 0x0002 (fun _ _ => True) (fun _ b => (b, identityBytes b)) ∧
  rowOk Instr.sessionOpen 0x0003 sessionOpenGoes
    (fun c b =>
      let t := fieldN (payloadOf c) 0 4
      let x : Session := { id := b.host.nextSession, cls := mbClass c.mb b, tenant := boundTenant c.mb b, timeoutMs := if t = 0 then 1000 else t }
      let s1 := modMbx c.mb (fun m => { m with session := some x }) b
      ({ s1 with host := { s1.host with nextSession := if x.id = 0xFFFFFFFF then 1 else x.id + 1 } },
       leBytes 2 (x.tenant.getD 0xFFFF) ++ leBytes 1 (clsCode x.cls) ++ leBytes 1 0 ++ leBytes 4 x.id)) ∧
  rowOk Instr.sessionClose 0x0004 sessionCloseGoes
    (fun c b => (modMbx c.mb (fun m => { m with session := none })
      (if fieldN (payloadOf c) 0 1 = 1 then postLast (c.mb, b.host.nextId - 1) (cancelReqs c.mb b) else b), [])) ∧
  rowOk Instr.vfBind 0x0005 vfBindGoes
    (fun c b =>
      let vf := fieldN (payloadOf c) 0 1
      ({ b with host := { b.host with
          bound := Tab.put b.host.bound vf (if fieldN (payloadOf c) 1 1 = 0 then some (fieldN (payloadOf c) 2 2) else none) } }, [])) ∧
  rowBegins Instr.deviceReset 0x0006 deviceResetGoes
    (fun _ r b => warmReset (postAll (finish r .ok 0 [] (postAll (faultOthers r b))))) ∧
  rowOk Instr.statsRead 0x0009 statsReadGoes
    (fun c b =>
      let k := fieldN (payloadOf c) 8 1
      let i := fieldN (payloadOf c) 10 2
      let x := statsRecord k i b
      (if fieldN (payloadOf c) 9 1 = 1 then statsClear k i x.2 else x.2, x.1))

/-- FUNC_START and FUNC_STOP begin the transition of Table 5.5 and answer at its end; on a function that is already there they answer
at once (from R187). The commands of the supplies, of the Telltale and of the time unit complete with the effect of their rows (Tables 7.4,
7.15, 7.16; from R74 - R76, R188, R193, R600, R601, R603, R604). -/
def Obligations.FunctionPowerTelltaleTimeCommandsComplete : Prop :=
  rowBegins Instr.funcStart 0x0007 funcStartBegins
    (fun c _ b => let f := fieldN (payloadOf c) 0 1; setFn f .starting (if f = 2 then enableLinks b else b)) ∧
  rowOk Instr.funcStart 0x0007 funcStartThere (fun c b => (if fieldN (payloadOf c) 0 1 = 2 then enableLinks b else b, [])) ∧
  rowBegins Instr.funcStop 0x0008 funcStopBegins
    (fun c _ b => fnStopping (fieldN (payloadOf c) 0 1) (setFn (fieldN (payloadOf c) 0 1) .stopping b)) ∧
  rowOk Instr.funcStop 0x0008 funcStopThere (fun _ b => (b, [])) ∧
  rowOk Instr.powerPolicy 0x000A powerPolicyAsks (fun _ b => (b, policyBytes b.pow.policy)) ∧
  rowOk Instr.powerPolicy 0x000A powerPolicySets
    (fun c b =>
      let p := payloadOf c
      let q : Policy := { vmin := fieldN p 0 2, vmax := fieldN p 2 2, pcap := fieldN p 4 2, noncore := fieldN p 6 2,
                          freq0 := fieldN p 8 2, freq1 := fieldN p 10 2, avsEn := bitN (fieldN p 12 1) 0 }
      let s1 := { b with pow := { b.pow with policy := q } }
      (reformAll (if q.avsEn then s1 else { s1 with pow := { s1.pow with r0 := { s1.pow.r0 with ofs := 0 }, r1 := { s1.pow.r1 with ofs := 0 } } }), [])) ∧
  rowOk Instr.powerStatus 0x000B powerStatusGoes
    (fun c b => (if fieldN (payloadOf c) 0 1 = 1 then clearPins b else b, powerStatus b)) ∧
  rowOk Instr.ttSeverity 0x0A01 ttSeverityGoes
    (fun c b =>
      let src := fieldN (payloadOf c) 0 2
      let v : Sev := [Sev.info, .corrected, .degraded, .fatal].getD (fieldN (payloadOf c) 2 1) .fatal
      (recheckMode { b with tt := { b.tt with sevs := Tab.put b.tt.sevs src (if v = defaultSev src then none else some v) } }, [])) ∧
  rowOk Instr.ttRead 0x0A02 (fun _ _ => True)
    (fun _ b =>
      let n := fun (v : Sev) => leBytes 2 (countSev b.tt (shownSticky b) v 448)
      (b, leBytes 56 b.tt.sticky.toNat ++ leBytes 56 b.tt.wiring.toNat ++ n .info ++ n .corrected ++ n .degraded ++ n .fatal ++
        leBytes 1 (maxSevCode b) ++ leBytes 7 0)) ∧
  rowOk Instr.ttClear 0x0A03 ttClearGoes
    (fun c b =>
      let src := fieldN (payloadOf c) 0 2
      let f := fieldN (payloadOf c) 2 1
      let mask : BitVec 448 := if src = 0xFFFF then BitVec.allOnes 448 else BitVec.ofNat 448 (2 ^ src)
      (occur (c.rd.recur.filter (fun i => i < 448 && !srcReserved i)) (recheckMode { b with tt := { b.tt with
          sticky := b.tt.sticky &&& ~~~(if bitN f 0 then mask else 0), wiring := b.tt.wiring &&& ~~~(if bitN f 1 then mask else 0) } }), [])) ∧
  rowOk Instr.timeSource 0x0B01 timeSourceGoes
    (fun c b =>
      let p := payloadOf c
      ({ b with time := { b.time with source := fieldN p 0 1, ppsOutEn := bitN (fieldN p 1 1) 0, ptpDomain := fieldN p 2 1, ppsDelay := fieldS p 4 4 } }, [])) ∧
  rowOk Instr.timeStatus 0x0B02 (fun _ _ => True)
    (fun _ b => (b, leBytes 1 (b2n b.time.synced) ++ leBytes 1 b.time.source ++ leBytes 2 0 ++ leBytesInt 4 b.time.offset ++ leBytes 4 b.time.pinned))

/-- The memory, NVMe and model commands complete with the effect of their rows (Tables 7.6, 7.7; from R273 - R279, R306, R311, R317, R318,
R322): a region of the first free run of pages, freed pages, copies in three directions, the aperture, a placed model, weights. -/
def Obligations.MemoryAndModelCommandsComplete : Prop :=
  rowOk Instr.memAlloc 0x0201 memAllocGoes
    (fun c b =>
      let p := payloadOf c
      let n := fieldN p 0 8 / 0x200000
      let t := fieldN p 8 2
      let k := (findRun (fun k => pageFree k b) n 196608 0 0).getD 0
      let i := (freeIdx b.srv.regions (·.live) 65536).getD 0
      let g := firstGen (regionOf i b).gen
      (takeRegion k n t (bitN (fieldN p 10 1) 0) i
        { b with srv := { b.srv with regions := Tab.put b.srv.regions i { gen := g, live := true, fn := mbFn c.mb b, tenant := t, page := k, pages := n } } },
       leBytes 4 (handleOf i g) ++ [0, 0, 0, 0] ++ leBytes 8 (k * 0x200000))) ∧
  rowOk Instr.memFree 0x0202 memFreeGoes
    (fun c b => (dropRegion (fieldN (payloadOf c) 0 4 % 65536) b, [])) ∧
  rowOk Instr.memCopy 0x0203 memCopyIn
    (fun c b =>
      let p := payloadOf c
      (memWrite (fieldN p 8 8) (slice ((readHost (mbReq c.mb b) c.rd.data b).getD []) 0 (fieldN p 16 8)) b, [])) ∧
  rowOk Instr.memCopy 0x0203 memCopyOut
    (fun c b =>
      let p := payloadOf c
      (writeHost (mbReq c.mb b) (fieldN p 8 8) (rawRead (fieldN p 0 8) (fieldN p 16 8) b) b, [])) ∧
  rowOk Instr.memCopy 0x0203 memCopyHere
    (fun c b =>
      let p := payloadOf c
      (memWrite (fieldN p 8 8) (rawRead (fieldN p 0 8) (fieldN p 16 8) b) b, [])) ∧
  rowOk Instr.apertureSet 0x0204 apertureSetGoes
    (fun c b => (modPcieFn (mbReq c.mb b) (fun p => { p with localBase := fieldN (payloadOf c) 0 8 }) b, [])) ∧
  rowOk Instr.nvmeCfg 0x0205 nvmeCfgGoes
    (fun c b =>
      let p := payloadOf c
      ({ b with nvme := { b.nvme with mode := fieldN p 0 1, flags := fieldN p 1 1, ioq := fieldN p 2 2, nsid0 := fieldN p 4 4, nsid1 := fieldN p 8 4 } }, [])) ∧
  rowOk Instr.modelLoad 0x0301 modelLoadGoes
    (fun c b =>
      let p := payloadOf c
      let r := regionOf (fieldN p 12 4 % 65536) b
      let img := slice ((readHost (mbReq c.mb b) c.rd.data b).getD []) 0 (fieldN p 8 4)
      let base := r.page * 0x200000
      let ys := loadRelocs base (devNum b) (placeAll img (sectHdrs img) 0)
      let i := (freeIdx b.srv.models (fun m => m.live) 65536).getD 0
      let g := firstGen (modelOf i b).gen
      (modModel i (fun _ =>
        { gen := g, live := true, fn := mbFn c.mb b, tenant := fieldN p 24 2, shared := bitN (fieldN p 26 1) 0, tag := fieldN p 16 8,
          crc := fieldN img 12 4, region := fieldN p 12 4 % 65536, layers := fieldN img 24 2, stepsSect := fieldN img 26 2,
          sects := ys.map (fun x => if placed x.typ then { x with base := base + x.base } else x), blockBytes := declaredBlock ys })
        (ys.foldl (fun s x => putSect base x s) b),
       leBytes 4 (handleOf i g) ++ leBytes 4 ((kernels ys).foldl (fun n k => max n k.nt) 0))) ∧
  rowOk Instr.modelUnload 0x0302 modelUnloadGoes
    (fun c b => (modModel (fieldN (payloadOf c) 0 4 % 65536) (fun m => { gen := nextGen m.gen }) b, [])) ∧
  rowOk Instr.weightsLoad 0x0303 weightsFromHost
    (fun c b =>
      let p := payloadOf c
      let i := fieldN p 0 4 % 65536
      let k := fieldN p 4 4
      let d := slice ((readHost (mbReq c.mb b) c.rd.data b).getD []) 0 (fieldN p 16 8)
      (weightsWritten i k (fieldN p 16 8) (memWrite ((modelOf i b).sects.getD k {}).base d b), [])) ∧
  rowOk Instr.weightsLoad 0x0303 weightsFromHere
    (fun c b =>
      let p := payloadOf c
      let i := fieldN p 0 4 % 65536
      let k := fieldN p 4 4
      (weightsWritten i k (fieldN p 16 8)
        (memWrite ((modelOf i b).sects.getD k {}).base (rawRead (bitsN (fieldN p 8 8) 0 45) (fieldN p 16 8) b) b), [])) ∧
  rowBegins Instr.weightsLoad 0x0303 weightsFromPeer
    (fun c r b =>
      let p := payloadOf c
      let i := fieldN p 0 4 % 65536
      let k := fieldN p 4 4
      let len := fieldN p 16 8
      let n := ceilDiv len 0x1000000
      loadsDone (postReads (.load r) (fieldN p 28 4 % 65536) (bitsN (fieldN p 8 8) 0 45) ((modelOf i b).sects.getD k {}).base len n
        (modShr (fun u => { u with loads := u.loads ++ [{ ref := r, model := i, sect := k, len := len, left := n }] }) b)))

/-- The context and SUBMIT commands run with the effect of their rows (Tables 7.5, 7.8, 7.9; from R173, R174, R178 - R180, R184, R585): a context
in the lowest free entry, a freed one, the query of one on this device, a sequence whose private KV has its pages, a request that ends
at its next step boundary. -/
def Obligations.ContextCommandsComplete : Prop :=
  rowOk Instr.ctxAlloc 0x0101 ctxAllocGoes
    (fun c b =>
      let p := payloadOf c
      let mi := fieldN p 0 4 % 65536
      let i := (freeIdx b.srv.ctxs (fun x => x.live) 4096).getD 0
      let g := firstGen (ctxOf i b).gen
      (modCtx i (fun _ =>
        { gen := g, live := true, fn := mbFn c.mb b, tenant := fieldN p 4 2, model := mi, pdom := fieldN p 6 2, prio := fieldN p 8 1,
          noFurl := bitN (fieldN p 9 1) 0 || (modelOf mi b).blockBytes = 0 }) b, leBytes 4 (handleOf i g))) ∧
  rowOk Instr.ctxFree 0x0102 ctxFreeIdle
    (fun c b =>
      let h := fieldN (payloadOf c) 0 4
      let x := ctxOf (h % 65536) b
      (freeCtx (h % 65536) (if away x then reefSend x.dest (.free h) b else b), [])) ∧
  rowBegins Instr.ctxFree 0x0102 ctxFreeServing
    (fun c r b =>
      let h := fieldN (payloadOf c) 0 4
      let i := h % 65536
      let x := ctxOf i b
      let b1 := modReq i (fun q => { q with cancelled := true, free := some r }) b
      if away x then reefSend x.dest (.free h) b1 else boundary i b1) ∧
  rowOk Instr.ctxQuery 0x0103 ctxQueryGoes
    (fun c b =>
      let x := ctxOf (fieldN (payloadOf c) 0 4 % 65536) b
      let n := fun (q : Blk → Bool) => (x.blocks.filter q).length
      (b, leBytes 1 (ctxState x) ++ [0] ++ leBytes 2 x.pdom ++ leBytes 4 (handleOf x.model (modelOf x.model b).gen) ++
        leBytes 4 x.toks.length ++ leBytes 4 (n (fun k => k.kind = .mapped)) ++ leBytes 4 (n (fun k => k.built)) ++
        leBytes 4 (n (fun k => k.kind = .waiting)) ++ leBytes 4 x.tokensOut)) ∧
  rowBegins Instr.submit 0x0401 submitGoes
    (fun c r b =>
      let i := fieldN (payloadOf c) 0 4 % 65536
      furlSettle (startReq i (submitReq c r b) (bitN (fieldN (payloadOf c) 4 1) 2) (submitIds c b)
        ((placePriv i (submitPages c b) (submitFrom c b)).getD b))) ∧
  rowBegins Instr.submit 0x0401 submitForwards
    (fun c r b =>
      let h := fieldN (payloadOf c) 0 4
      reefSend (ctxOf (h % 65536) b).dest (.submit h (payloadOf c) (submitIds c b))
        (modCtx (h % 65536) (fun y => { y with req := some (submitReq c r b) }) b)) ∧
  rowBegins Instr.submitCancel 0x0402 submitCancelGoes
    (fun c r b =>
      let h := fieldN (payloadOf c) 0 4
      let x := ctxOf (h % 65536) b
      boundary (h % 65536) (modReq (h % 65536) (fun q => { q with cancelled := true, cancels := q.cancels ++ [r] })
        (if x.evacuated then reefSend x.dest (.cancel h) b else b)))

/-- The Furl commands run with the effect of their rows (Table 7.10; from R346 - R348): the tenants of a prefix domain, a pin that holds a
reference on every block its context maps, its release, the watermarks and the quota, a purge, a probe. -/
def Obligations.FurlCommandsComplete : Prop :=
  rowOk Instr.furlDomainCfg 0x0501 furlDomainCfgGoes
    (fun c b =>
      let p := payloadOf c
      let m : BitVec 256 := BitVec.ofNat 256 (fieldN p 4 32)
      let close := fieldN p 2 1 = 1
      (modFurl (fun u => { u with doms := Tab.mod u.doms (fieldN p 0 2) (fun x =>
        if close then { x with mask := x.mask &&& ~~~m, opened := x.opened && decide (x.mask &&& ~~~m ≠ 0) }
        else { x with everOpen := true, mask := x.mask ||| m, opened := true }) }) b, [])) ∧
  rowOk Instr.furlPin 0x0502 furlPinGoes
    (fun c b =>
      let ks := mappedKeys (ctxOf (fieldN (payloadOf c) 0 4 % 65536) b)
      let i := (freeIdx b.furl.pins (fun x => x.live) 65536).getD 0
      let g := firstGen (Tab.get b.furl.pins i).gen
      (modFurl (fun u => { u with pins := Tab.put u.pins i { gen := g, live := true, fn := mbFn c.mb b, keys := ks } })
        (ks.foldl (fun s k => holdRef k.1 s) b), leBytes 4 (handleOf i g) ++ leBytes 4 ks.length)) ∧
  rowOk Instr.furlUnpin 0x0503 furlUnpinGoes
    (fun c b =>
      let i := fieldN (payloadOf c) 0 4 % 65536
      let x := Tab.get b.furl.pins i
      (furlSettle (x.keys.foldl (fun s k => dropRef k.1 s) (modFurl (fun u => { u with pins := Tab.put u.pins i { gen := nextGen x.gen } }) b)),
       [])) ∧
  rowOk Instr.furlEvictCfg 0x0504 furlEvictCfgGoes
    (fun c b =>
      let p := payloadOf c
      (modFurl (fun u => { u with lowPct := fieldN p 0 1, highPct := fieldN p 1 1,
                                  quotaGib := if bitN (fieldN p 2 1) 0 then fieldN p 4 4 else u.quotaGib }) b, [])) ∧
  rowOk Instr.furlPurge 0x0505 furlPurgeGoes
    (fun c b =>
      let d := fieldN (payloadOf c) 0 2
      (furlSettle (evictionStart (modFurl (fun u =>
        { u with purging := u.purging.filter (fun q => q.1 ≠ d) ++ [(d, bitN (fieldN (payloadOf c) 2 1) 0)] }) b)), [])) ∧
  rowBegins Instr.furlProbe 0x0506 furlProbeGoes
    (fun c r b =>
      let p := payloadOf c
      let m := modelOf (fieldN p 0 4 % 65536) b
      let ids := (List.range (fieldN p 8 4)).map (fun j => fieldN ((readHost (mbReq c.mb b) c.rd.data b).getD []) (4 * j) 4)
      let k := if m.blockBytes = 0 then 0 else fieldN p 8 4 / 32
      probesDone (furlSettle (probeLookups b.furl.probes.length m.tag (fieldN p 4 2) (keyChain m.tag (fieldN p 4 2) k 0 ids) 0 0 ids
        (modFurl (fun u => { u with probes := u.probes ++ [{ ref := r, left := k, blocks := k, got := List.replicate k 0 }] }) b))))

/-- The Shroud commands run with the effect of their rows (Table 7.11; from R194, R389, R391, R392, R406, R407): a connection that opens with
a fresh key slot, a close, the timeout, a window, the end of a window that no operation runs through, the congestion constants. -/
def Obligations.ShroudCommandsComplete : Prop :=
  rowBegins Instr.shrConnOpen 0x0601 shrConnOpenGoes
    (fun c r b =>
      let p := payloadOf c
      let carrier := fieldN p 0 1
      let slot := fieldN p 28 4
      connOpen ((freeIdx b.shr.conns (fun x => !(x.st = .free)) 16384).getD 0)
        { fn := mbFn c.mb b, peer := if carrier = 0 then .stay (fieldN p 4 2) else .udp (carrier - 1) (slice p 8 16), tenant := fieldN p 2 2,
          keySlot := slot, key := (match Tab.get b.sec.shr slot with | some k => k.key | none => []), chain := fieldN p 1 1,
          timeout := if fieldN p 24 4 = 0 then 200 else fieldN p 24 4, openRef := some r }
        { b with sec := { b.sec with shr := Tab.mod b.sec.shr slot (fun k => k.map (fun k => { k with used := true })) } }) ∧
  rowBegins Instr.shrConnClose 0x0602 shrConnCloseGoes
    (fun c r b => connClose (fieldN (payloadOf c) 0 4 % 65536) (bitN (fieldN (payloadOf c) 4 1) 0) (some r) b) ∧
  rowOk Instr.shrConnTimeout 0x0603 shrConnTimeoutGoes
    (fun c b => (modConn (fieldN (payloadOf c) 0 4 % 65536) (fun x => { x with timeout := fieldN (payloadOf c) 4 4 }) b, [])) ∧
  rowOk Instr.shrMap 0x0604 shrMapGoes
    (fun c b =>
      let p := payloadOf c
      let k := (freeIdx b.shr.maps (·.live) 65536).getD 0
      let g := firstGen (Tab.get b.shr.maps k).gen
      let w : ShrMap :=
        { gen := g, live := true, fn := mbFn c.mb b, conn := fieldN p 0 4 % 65536, region := fieldN p 4 4 % 65536, remote := fieldN p 8 8,
          len := fieldN p 16 8, rd := bitN (fieldN p 24 1) 0, wr := bitN (fieldN p 24 1) 1, resend := fieldN p 25 1 = 1 }
      (modShr (fun u => { u with maps := Tab.put u.maps k w }) b,
       leBytes 4 (handleOf k g))) ∧
  rowOk Instr.shrUnmap 0x0605 shrUnmapNow
    (fun c b =>
      let k := fieldN (payloadOf c) 0 4 % 65536
      (modShr (fun u => { u with maps := Tab.put u.maps k { gen := nextGen (Tab.get b.shr.maps k).gen } }) b, [])) ∧
  rowBegins Instr.shrUnmap 0x0605 shrUnmapWaits
    (fun c r b =>
      let k := fieldN (payloadOf c) 0 4 % 65536
      modShr (fun u => { u with maps := Tab.put u.maps k { Tab.get b.shr.maps k with unmap := some r } }) b) ∧
  rowOk Instr.shrCcCfg 0x0606 shrCcCfgGoes
    (fun c b =>
      let p := payloadOf c
      (modShr (fun u => { u with target := fieldN p 0 4, ai := fieldN p 4 4, md := fieldN p 8 2, minRate := fieldN p 12 4 }) b, []))

/-- The Trim commands complete with the effect of their rows (Table 7.12; from R433, R434, R436, R438): a port's selection, a bucket, a
policer. -/
def Obligations.TrimCommandsComplete : Prop :=
  rowOk Instr.trimMode 0x0701 trimModeGoes
    (fun c b =>
      let p := payloadOf c
      (modPort (fieldN p 0 1) (fun t =>
          { t with mode := fieldN p 1 1, nStrict := fieldN p 2 1, weights := (List.range 8).map (fun i => fieldN p (4 + i) 1),
                   turn := 7 - fieldN p 2 1, inTurn := false })
        ((List.range 8).foldl (fun s q => modQ (fieldN p 0 1) q (fun t => { t with deficit := 0 }) s) b), [])) ∧
  rowOk Instr.trimShaper 0x0702 trimShaperGoes
    (fun c b =>
      let p := payloadOf c
      let k := Bucket.set (fieldN p 4 4) (fieldN p 8 4)
      (if fieldN p 1 1 = 0xFF then modPort (fieldN p 0 1) (fun t => { t with bucket := k }) b
       else modQ (fieldN p 0 1) (fieldN p 1 1) (fun t => { t with bucket := k }) b, [])) ∧
  rowOk Instr.trimPolicer 0x0703 trimPolicerGoes
    (fun c b =>
      let p := payloadOf c
      (modTrim (fun x => { x with policers := Tab.mod x.policers (fieldN p 0 2) (fun q =>
        { q with bucket := Bucket.set (fieldN p 4 4) (fieldN p 8 4),
                 mark := if bitN (fieldN p 2 1) 0 then fieldN p 3 1 = 1 else q.mark }) }) b, []))

/-- The Bowsprit commands run with the effect of their rows (Table 7.18; from R483, R485, R487): a window of the bus, a single access that is
queued for the bus, the route of an interrupt line, the arbiter's values. -/
def Obligations.BowspritCommandsComplete : Prop :=
  rowOk Instr.plbWindow 0x0D01 plbWindowGoes
    (fun c b =>
      let p := payloadOf c
      let w : PlbWin := { enable := bitN (fieldN p 3 1) 0, burstOk := bitN (fieldN p 3 1) 1, base := fieldN p 4 4, size := fieldN p 8 4,
                          width := fieldN p 2 1, lcl := fieldN p 16 8 }
      (modBow (fun u => if fieldN p 0 1 = 1 then { u with inw := Tab.put u.inw (fieldN p 1 1) w } else { u with outw := Tab.put u.outw (fieldN p 1 1) w }) b,
       [])) ∧
  rowBegins Instr.plbAccess 0x0D02 plbAccessGoes
    (fun c r b =>
      let p := payloadOf c
      let a := fieldN p 0 4
      let n := fieldN p 4 1
      queueAcc { ref := some r, read := fieldN p 5 1 = 1, n := n,
                 cycles := accCycles (accessWidth a b) false a n (if fieldN p 5 1 = 1 then none else some (beBytes n (fieldN p 8 4))) } b) ∧
  rowOk Instr.plbIrqRoute 0x0D03 plbIrqRouteGoes
    (fun c b =>
      let p := payloadOf c
      let x : PlbRoute := { target := fieldN p 1 1, vec := fieldN p 2 1, level := bitN (fieldN p 3 1) 0 }
      (modBow (fun u => { u with routes := Tab.put u.routes (fieldN p 0 1) x }) b, [])) ∧
  rowOk Instr.plbArbCfg 0x0D04 plbArbCfgGoes
    (fun c b =>
      let p := payloadOf c
      (modBow (fun u => { u with fixedPrio := fieldN p 0 1 = 1, pclkDiv := fieldN p 1 1, maxTenure := fieldN p 2 2 }) b, []))

/-- The Frame commands run with the effect of their rows (Table 7.13; from R505, R508, R509, R511, R530): a configured context with its
Cleat and its ring record, a freed one, the rate, a rectangle and its quality, a raw frame queued in a slot of its own. -/
def Obligations.FrameCommandsComplete : Prop :=
  rowOk Instr.frameCtxCfg 0x0801 frameCtxCfgGoes
    (fun c b =>
      let f := (freeIdx b.frame.ctxs (fun x => x.live) 256).getD 0
      let x := newFrameCtx c b
      let ring := if x.source = 0 then leBytes 8 (x.slotOff 4) ++ leBytes 8 (x.ringLen b) else leBytes 8 0 ++ leBytes 8 0
      (memWrite (x.base b + 0x100) (ring ++ leBytes 16 0)
        (modCleat true x.cleat (fun _ => { active := true, owner := .frame f }) (modFctx f (fun _ => x) b)), leBytes 4 (handleOf f x.gen))) ∧
  rowOk Instr.frameCtxFree 0x0802 frameCtxFreeGoes
    (fun c b =>
      let f := fieldN (payloadOf c) 0 4 % 65536
      (modCleat true (fctxOf f b).cleat Cleat.freed (modFctx f (fun _ => { gen := nextGen (fctxOf f b).gen }) b), [])) ∧
  rowOk Instr.frameRc 0x0803 frameRcGoes
    (fun c b => (modFctx (fieldN (payloadOf c) 0 4 % 65536) (fun x => { x with kbps := fieldN (payloadOf c) 4 4 }) b, [])) ∧
  rowOk Instr.frameRoi 0x0804 frameRoiGoes
    (fun c b =>
      let p := payloadOf c
      let geom := bitN (fieldN p 6 1) 0
      (modFctx (fieldN p 0 4 % 65536) (fun x =>
        { x with rois := Tab.mod x.rois (fieldN p 4 1) (fun r =>
                   if geom then { x := fieldN p 8 2, y := fieldN p 10 2, w := fieldN p 12 2, h := fieldN p 14 2, quality := fieldS p 5 1 }
                   else { r with quality := fieldS p 5 1 }),
                 forceIdr := x.forceIdr || geom }) b, [])) ∧
  (∀ c0 s, let c := { c0 with op := 0x0805 }
    letIn c s → frameSubmitNow c (begun c s) → answers (.frameSubmit c0) s
      (followUp (completed c .ok 0
        (let b := begun c s
         let p := payloadOf c
         let f := fieldN p 0 4 % 65536
         let d := submitDims c b
         leBytes 4 (frameHandle f ((pickSlot f b).getD 0) (submitGen c b)) ++ leBytes 4 0 ++ leBytes 4 ((fctxOf f b).patches d.1 d.2))
        s (frameQueued c (refOf c s) (begun c s))))) ∧
  rowBegins Instr.frameSubmit 0x0805 frameSubmitWaits (fun c r b => frameQueued c r b)

/-- The Reef commands run with the effect of their rows (Table 7.14; from R569, R580, R588, R591): the configuration, a snapshot that starts to
be taken, an evacuation that starts, a restore that asks the device that holds the snapshot, the state. -/
def Obligations.ReefCommandsComplete : Prop :=
  rowOk Instr.reefCfg 0x0901 reefCfgGoes
    (fun c b =>
      let p := payloadOf c
      (modReef (fun r => { r with target := fieldN p 0 1, triggers := fieldN p 1 1, peerDev := fieldN p 2 2, conn := fieldN p 4 4,
                                  cePerMin := fieldN p 8 4, thermDc := fieldN p 12 2 }) b, [])) ∧
  rowBegins Instr.reefSnapshot 0x0902 reefSnapshotGoes
    (fun c r b =>
      let p := payloadOf c
      furlSettle (startSnap (if fieldN p 0 1 = 1 then [fieldN p 4 4 % 65536] else snapScope b) 4 (some r) c.rd.held b)) ∧
  rowBegins Instr.reefEvacuate 0x0903 reefEvacuateGoes
    (fun c r b =>
      let p := payloadOf c
      let i := fieldN p 0 4 % 65536
      startEvac i (fieldN p 4 2) (some r) (modSnap i (fun x => { x with held := c.rd.held }) b)) ∧
  rowBegins Instr.reefRestore 0x0904 reefRestoreGoes
    (fun c r b =>
      let p := payloadOf c
      reefSend (fieldN p 4 2) (.pull (fieldN p 0 4))
        (modReef (fun y => { y with restores := y.restores ++ [{ ref := r, src := fieldN p 4 2, snap := fieldN p 0 4 }] }) b)) ∧
  rowBegins Instr.reefRestore 0x0904 reefRestoreSome
    (fun c r b =>
      let p := payloadOf c
      let x := putBack c b
      furlSettle (modReef (fun y => { y with restores := y.restores ++
        [{ ref := r, src := fieldN p 4 2, snap := fieldN p 0 4, restored := x.1.length, skipped := x.2.1, ctxs := x.1 }] }) x.2.2)) ∧
  rowOk Instr.reefRestore 0x0904 reefRestoreNone
    (fun c b => ((putBack c b).2.2, leBytes 4 0 ++ leBytes 4 (putBack c b).2.1 ++ leBytes 4 0 ++ leBytes 4 0)) ∧
  rowOk Instr.reefStatus 0x0905 (fun _ _ => True)
    (fun _ b =>
      let xs := b.reef.snaps.filter (fun x => x.2.live)
      let st := match b.reef.st with | .idle => 0 | .snapping => 1 | .ready => 2 | .evacuating => 3
      (b, leBytes 1 st ++ leBytes 1 b.reef.lastTrigger ++ leBytes 2 0 ++ leBytes 4 xs.length ++ leBytes 8 ((xs.map (fun x => x.2.total)).sum) ++
        leBytes 4 ((xs.map (fun x => x.2.keys.length)).sum)))

/-- The security commands run with the effect of their rows (Table 7.17; from R541 - R544, R549, R551 - R562): a key, installed when
it opens under the KIK and is fresh, a destroyed one, a chunk of an image, the final chunk with what the verification answers, the
report, a challenge, an unlock by the password or by the owner's key or a failure counted, the lock. -/
def Obligations.SecurityCommandsComplete : Prop :=
  rowEnds Instr.secKeySet 0x0C01 secKeySetGoes
    (fun c b =>
      let p := payloadOf c
      let w := slice p 16 96
      let t := fieldN p 0 2
      let kind := fieldN p 2 1
      let slot := fieldN p 4 4
      let aad := leBytes 8 b.fuses.serial ++ b.sec.nonce ++ leBytes 2 t ++ leBytes 1 kind ++ leBytes 1 0 ++ leBytes 4 slot ++ leBytes 4 (fieldN w 0 4)
      let k := b.sec.fuse.kik.bind (fun k => Config.gcmOpen k (slice w 4 12) aad (slice w 16 64) (slice w 80 16))
      let d := k.getD []
      let fresh := match b.sec.seqHigh with | some q => decide (q < fieldN w 0 4) | none => true
      if k.isSome && fresh && (if kind = 0 then decide (slice d 0 32 ≠ slice d 32 32) else zeroAt d 32 32) then
        (modSec (fun x => if kind = 0 then { x with hbm := Tab.put x.hbm t (some (slice d 0 64)), seqHigh := some (fieldN w 0 4) }
                          else { x with shr := Tab.put x.shr slot (some { tenant := t, key := slice d 0 32 }), seqHigh := some (fieldN w 0 4) }) b,
         .ok, 0, [])
      else (raise 0x15D b, .inval, 24, [])) ∧
  rowOk Instr.secKeyDestroy 0x0C02 secKeyDestroyGoes
    (fun c b =>
      let p := payloadOf c
      (modSec (fun x => if fieldN p 2 1 = 0 then { x with hbm := Tab.put x.hbm (fieldN p 0 2) none }
                        else { x with shr := Tab.put x.shr (fieldN p 4 4) none }) b, [])) ∧
  rowOk Instr.fwUpdate 0x0C03 fwUpdateChunk
    (fun c b => (modFwSlot (1 - b.dev.slot) (fun _ => { written := fwImage c b }) b, [])) ∧
  rowEnds Instr.fwUpdate 0x0C03 fwUpdateLast
    (fun c b =>
      let n := 1 - b.dev.slot
      let img := fwImage c b
      let b1 := modFwSlot n (fun _ => { written := img }) b
      if fwSigOk img b.sec.fuse = false then (b1, .fault, 2, [])
      else if fwSvn img < b.sec.fuse.svnMin then (b1, .fault, 3, [])
      else (secEvent 3 n (modFwSlot n (fun x => { x with committed := true, version := fwVersion img, svn := fwSvn img, sigOk := true }) b1),
            .ok, 0, [])) ∧
  rowOk Instr.measure 0x0C04 (fun _ _ => True)
    (fun c b =>
      let r := reportBody (slice (payloadOf c) 8 16) b
      (b, r ++ padTo 96 ((Config.attestSign b.sec.fuse.secret (sha384 r)).take 96))) ∧
  rowOk Instr.debugChallenge 0x0C05 (fun _ _ => True)
    (fun _ b =>
      let n := leBytes 8 (drawFree b).1.toNat ++ leBytes 8 (drawFree (drawFree b).2).1.toNat
      (modSec (fun x => { x with chal := some n }) (drawFree (drawFree b).2).2, n)) ∧
  rowEnds Instr.debugUnlock 0x0C06 debugUnlockPassword
    (fun c b =>
      let x := unlockEnd 0 (decide (sha384 (leBytes 8 b.fuses.serial ++ slice (payloadOf c) 4 16) = b.sec.fuse.pwHash)) b
      (x.1, x.2, 0, [])) ∧
  rowEnds Instr.debugUnlock 0x0C06 debugUnlockOwner
    (fun c b =>
      let good := match b.sec.chal, b.sec.fuse.ownerPub with
        | some n, some k => Config.ed25519Verify k (challengeMessage n b) (slice (payloadOf c) 4 64)
        | _, _ => false
      let x := unlockEnd 1 good b
      (x.1, x.2, 0, [])) ∧
  rowOk Instr.debugLock 0x0C07 debugLockGoes
    (fun _ b =>
      let b1 := secEvent 2 0 (modSec (fun x => { x with lock := .closed }) b)
      (if b.sec.lock = .opened then
         consoleClass { b1 with jtag := { b1.jtag with reg := if b1.jtag.reg = .privateDebug then .bypass else b1.jtag.reg } }
       else b, []))

/-- The commands of the board and of the rack run with the effect of their rows (Table 7.19; from R33, R192, R196, R631, R652, R654,
R659 - R662): the three kinds of readings, a sweep of the tray, GPIO, the console's rate, a record read and a write begun, an epoch, the
rack's state. -/
def Obligations.BoardAndRackCommandsComplete : Prop :=
  rowOk Instr.sensorRead 0x0E01 sensorReadGoes
    (fun c b =>
      let p := payloadOf c
      let x := c.rd.data.getD []
      let d := Tab.get b.smb1.devs (fieldN p 9 1)
      let vrm := fun (n : Nat) => leBytes 2 (railOf n b).v ++ leBytes 2 ((railOf n b).milliamp / 100) ++ leBytes 2 (railOf n b).temp ++
        slice x (6 * n) 2 ++ slice x (6 * n + 2) 4 ++ leBytes 4 0
      (b, if fieldN p 8 1 = 0 then slice x 0 22 ++ leBytes 2 0
          else if fieldN p 8 1 = 1 then vrm 0 ++ vrm 1
          else leBytes 1 (fieldN p 9 1) ++ leBytes 1 (if d.listed then d.status else 3) ++ leBytes 2 d.word ++
            leBytes 4 (min 0xFFFFFFFF ((b.time.mono - d.readAt) / 1000000)))) ∧
  rowBegins Instr.ratlineSweep 0x0E02 ratlineSweepGoes
    (fun _ r b =>
      let q := if 255 ≤ b.rl.seq then 1 else b.rl.seq + 1
      emit (.ratline (rlFrame (leBytes 1 0x5A ++ leBytes 1 1 ++ leBytes 1 q ++ leBytes 1 (devNum b) ++ leBytes 7 0)))
        { b with rl := { b.rl with seq := q, sweep := some { seq := q, cmd := r } } }) ∧
  rowOk Instr.gpioCfg 0x0E03 (fun _ _ => True)
    (fun c b =>
      let p := payloadOf c
      let m : Byte := BitVec.ofNat 8 (fieldN p 0 1)
      ({ b with pins := { b.pins with gpioDir := (b.pins.gpioDir &&& ~~~m) ||| (BitVec.ofNat 8 (fieldN p 1 1) &&& m),
                                      gpioOut := (b.pins.gpioOut &&& ~~~m) ||| (BitVec.ofNat 8 (fieldN p 2 1) &&& m) } }, [])) ∧
  rowOk Instr.consoleCfg 0x0E04 consoleCfgGoes
    (fun c b => ({ b with uart := { b.uart with baud := fieldN (payloadOf c) 0 4 } }, [])) ∧
  rowOkWith Instr.pstoreRead 0x0E05 pstoreReadGoes
    (fun c b =>
      let d := (psRead (fieldN (payloadOf c) 8 2) b).getD []
      let x := d.drop (fieldN (payloadOf c) 10 2)
      (b, d.length, if c.mb = 16 then x.take 1008 else x)) ∧
  rowBegins Instr.pstoreWrite 0x0E06 pstoreWriteGoes
    (fun c r b =>
      let p := payloadOf c
      let data := if c.mb < 16 then (readHost (mbReq c.mb b) c.rd.data b).getD [] else slice p 16 (fieldN p 10 2)
      psStart (fieldN p 8 2) (slice data 0 (fieldN p 10 2)) (some r) b) ∧
  rowOk Instr.rackEpoch 0x0E07 rackEpochGoes
    (fun c b =>
      let p := payloadOf c
      let v := viewOf p
      let newer := decide (b.rack.view.epoch < v.epoch)
      let b1 := modRack (fun r => { r with view := v, epochAt := b.time.mono, rmuLost := false, oldWindow := r.oldWindow || newer }) b
      let b2 := verdict (if v.gmId = b.rack.view.gmId then b1 else dropSync b1)
      let b3 := if newer then psFirmware 1 (p.take 41) b2 else b2
      (b3, leBytes 1 (b2n (b3.rack.mstate = .quarantine)) ++ leBytes 1 b3.rack.mstate.code ++ leBytes 1 b3.rack.reasons.toNat ++ leBytes 5 0)) ∧
  rowOk Instr.rackStatus 0x0E08 (fun _ _ => True)
    (fun _ b =>
      let r := b.rack
      let own := (r.mstate = .member || r.mstate = .grace) && decide (devNum b < 72)
      (b, leBytes 8 r.view.epoch ++ leBytes 8 r.view.digest ++ leBytes 1 r.mstate.code ++ leBytes 1 r.reasons.toNat ++
        leBytes 1 (b2n (r.rmuLost || r.mstate = .unset) + 2 * b2n b.time.synced) ++ leBytes 1 (graceLeft b) ++ leBytes 4 (msSinceRmu b) ++ leBytes 8 r.digest ++
        leBytes 9 ((activeMask b).toNat + (if own then 2 ^ devNum b else 0)) ++ leBytes 7 0))

/-! ### Resets and the boot -/

/-- Power-on reset and SYS_RST_N low leave the Cold column of Table 4.3: the pins in high impedance, the mode COLD, the policy record at
its reset values, no session, no queue, no private debug instruction; the flash, the fuses, the drives, what READY NVMe snapshots hold and
the input levels remain (from R85, R87, R33, R35, R637, R707); a flash operation that the reset cuts short took effect or did not, as a
free value has it (log entry 3). SYS_RST_N high and the end of power-on reset start the sampling of the straps anew (from R30, R86). -/
def Obligations.ColdResetsLeave : Prop :=
  let cold := fun (s : State) (por sysRst trip : Bool) (j : Jtag) =>
    ({ fuses := s.fuses
       pins := { por := por, sysRstN := sysRst, perstN := s.pins.perstN, pwrFailN := s.pins.pwrFailN, hiZ := true, thermTrip := trip
                 nvmeRefclk := false, plbClkoDiv := 0 }
       pow := { policy := coldPolicy s.fuses.is9612 }
       dev := { mode := .cold, porSince := s.dev.porSince, lostRefs := s.dev.lostRefs, lostPlls := s.dev.lostPlls }
       jtag := j
       ps := { slots := match s.ps.writing with
                        | some w => if (Config.freeValue s.free).getLsbD 0 then Tab.mod s.ps.slots (2 * w.record + b2n w.slotB) (psApply w)
                                    else s.ps.slots
                        | none => s.ps.slots }
       sec := { s.sec with hbm := [], shr := [], media0 := none, media1 := none, chal := none, nonce := [], lock := .closed, fails := 0 }
       reef := reefReset s.reef
       out := s.out, free := s.free + b2n s.ps.writing.isSome, pending := s.pending } : State)
  ∀ s : State,
    answers .powerOnReset s (cold { s with dev := { s.dev with porSince := true } } true s.pins.sysRstN false {}) ∧
    answers .sysRstNLow s (cold s s.pins.por false s.pins.thermTrip
      (if s.jtag.reg = .privateDebug then { s.jtag with reg := .bypass } else s.jtag)) ∧
    answers .sysRstNRise s { s with pins := { s.pins with sysRstN := true, samples := [] } } ∧
    answers .powerOnResetRelease s { s with pins := { s.pins with por := false, samples := [] } }

/-- While cold reset holds, the straps are sampled; the third sample latches the majority of each bit, and the straps whose three samples
disagree are marked (from R36, R38). -/
def Obligations.StrapsLatch : Prop :=
  (∀ l s, s.dev.mode = .cold → s.pins.por = false → s.pins.sysRstN = true →
    (s.pins.samples.length < 2 → answers (.strapSample l) s { s with pins := { s.pins with samples := s.pins.samples ++ [l] } }) ∧
    (∀ a b, s.pins.samples = [a, b] → ∃ v d,
      answers (.strapSample l) s { s with pins := { s.pins with samples := [a, b, l], straps := v, disagree := d } } ∧
      (∀ i < 14, v.getLsbD i = ((a.getLsbD i && b.getLsbD i) || (a.getLsbD i && l.getLsbD i) || (b.getLsbD i && l.getLsbD i))) ∧
      (∀ k < 6, d.getLsbD k = true ↔ ∃ i < 14, strapOf i = k ∧ ¬ (a.getLsbD i = b.getLsbD i ∧ b.getLsbD i = l.getLsbD i))) ∧
    (3 ≤ s.pins.samples.length → answers (.strapSample l) s s)) ∧
  (∀ l s, (s.dev.mode ≠ .cold ∨ s.pins.por = true ∨ s.pins.sysRstN = false) → answers (.strapSample l) s s)

/-- Cold reset releases into BOOT at ROM_START once the straps are latched and the PLLs are locked: the pins leave high impedance, the clocks
that are lost raise their sources, and the regulators' voltages are read; without lock by the limit the boot halts with fault 0x08 (from
R33, R62, R83, R86, R93, R97, Table 4.3). PLB_CLKO follows PLB_CLKSEL whatever PLB_ROLE is: the model's choice, log entry 76. -/
def Obligations.ColdResetReleases : Prop :=
  let begins := fun (s : State) =>
    let s1 : State := { s with
      dev := { s.dev with mode := .boot, stage := 1, fail := false, fault := 0, item := 0xFF, cause := if s.dev.porSince then 0 else 1,
                          porSince := false, pllWait := false, warm := false }
      pins := { s.pins with hiZ := false, nvmeRefclk := true, plbClkoDiv := if s.pins.straps.getLsbD 4 then 0 else 48 }
      bow := { inw := [(0, plbIn0 (s.pins.straps.getLsbD 11))] } }
    let s2 := secBoot true (if lclkRuns s1 then s1 else linksDown s1)
    let free := [5, 6, 7] ++ (if s2.pins.straps.getLsbD 4 then [11] else [])
    enterStage 1 0 ((free.filter (fun d => domainLost d s2)).foldl (fun s d => clockLoss d s) s2)
  ∀ s : State, s.dev.mode = .cold → s.pins.por = false → s.pins.sysRstN = true →
    (s.pins.samples.length = 3 →
      (xtalRuns s = true → answers (.coldResetRelease true) s (avsSend 1 .readVoltage (avsSend 0 .readVoltage (begins s)))) ∧
      (xtalRuns s = false → answers (.coldResetRelease true) s { s with dev := { s.dev with pllWait := true } }) ∧
      answers (.coldResetRelease false) s { s with dev := { s.dev with pllWait := true } }) ∧
    (s.pins.samples.length < 3 → ∀ l, answers (.coldResetRelease l) s s) ∧
    (s.dev.pllWait = true → answers .pllLockTimeout s (haltBoot 8 0xFF 0 (begins s)))

/-- The boot stages in their order (from R54, R62, R83, R93 - R97, R99, Table 4.4): what each checks, what it leaves and the stage that
follows; a stage that fails or runs out of time halts the boot with its fault code; while CCLK is lost no stage ends. -/
def Obligations.BootStagesRun : Prop :=
  ∀ (r : StageReport) (s : State), s.dev.mode = .boot → s.dev.fail = false →
    let t := r.aclk / 2500
    let watched := r.railsOut.filter (fun k => [0, 1, 2, 3, 5, 4, 7].contains k)
    (domainLost 9 s = true → acts (.bootStageDone r) s s) ∧
    (∀ aclk, s.dev.stage ≠ 4 → answers (.bootStageTimeout aclk) s (haltBoot 4 0xFF (aclk / 2500) s)) ∧
    (domainLost 9 s = false →
    (s.dev.stage = 1 → ∀ k ks, watched = k :: ks →
      acts (.bootStageDone r) s (haltBoot 2 (ks.foldl min k) t (vrmStart r.vrmMv0 r.vrmMv1 s))) ∧
    (s.dev.stage = 1 → watched = [] → strapFault (vrmStart r.vrmMv0 r.vrmMv1 s).pins = none →
      acts (.bootStageDone r) s (enterStage 2 t (vrmStart r.vrmMv0 r.vrmMv1 s))) ∧
    (s.dev.stage = 1 → watched = [] → ∀ k, strapFault (vrmStart r.vrmMv0 r.vrmMv1 s).pins = some k →
      acts (.bootStageDone r) s (haltBoot 1 k t (vrmStart r.vrmMv0 r.vrmMv1 s))) ∧
    (s.dev.stage = 2 →
      let s1 := secFuse { s with dev := { s.dev with fuseRead := true } }
      acts (.bootStageDone r) s (if s.pins.straps.toNat % 4 = 1 then crsEnd (enterStage 4 t s1) else enterStage 3 t s1)) ∧
    (s.dev.stage = 3 → s.pins.straps.toNat % 4 ≠ 2 → ∀ n, bootSlot s = some n → acts (.bootStageDone r) s
      (fwInit t (runFirmware n (fwSlot n s).version (secMeasure (fwSlot n s).written (fwSlot n s).svn s)))) ∧
    (s.dev.stage = 3 → s.pins.straps.toNat % 4 ≠ 2 → bootSlot s = none → acts (.bootStageDone r) s (haltBoot 3 0xFF t s)) ∧
    (s.dev.stage = 3 → s.pins.straps.toNat % 4 = 2 → ∀ img, r.image = some img → acts (.bootStageDone r) s
      (if fwVerify img s.sec.fuse = Verdict.ok then fwInit t (runFirmware 0 (fwVersion img) (secMeasure img (fwSvn img) s))
       else haltBoot 3 0xFF t s)) ∧
    (s.dev.stage = 3 → s.pins.straps.toNat % 4 = 2 → r.image = none → acts (.bootStageDone r) s (haltBoot 3 0xFF t s)) ∧
    (s.dev.stage = 5 → acts (.bootStageDone r) s (if r.linksOk then enterStage 6 t s else haltBoot 6 0xFF t s)) ∧
    (s.dev.stage = 6 → acts (.bootStageDone r) s (if r.hbmOk then enterStage 7 t (memInit s) else haltBoot 5 0xFF t s)) ∧
    (s.dev.stage = 7 → acts (.bootStageDone r) s
      (if 8 < popcount r.failedTiles 128 then haltBoot 7 0xFF t (fenceTiles r.failedTiles s) else enterStage 8 t (fenceTiles r.failedTiles s))) ∧
    (s.dev.stage = 8 → acts (.bootStageDone r) s (enterStage 9 t (portInit s))) ∧
    (s.dev.stage = 9 → acts (.bootStageDone r) s (bootDone t r.svnFails s)))

/-- HOST_LOAD in HOST_WAIT (from R99, R100, R162): on the inline mailbox the boot ROM reads the image; one that verifies is measured and run,
and FW_INIT follows with OK; one that does not ends with FAULT and DETAIL 2. Either way the completion stands in the inline mailbox. -/
def Obligations.HostLoadRuns : Prop :=
  ∀ (c0 : Cmd) (s : State), let c := { c0 with op := 0x000C }
    c.mb = 19 → s.host.inl.busy = false → s.dev.mode = .boot → inlineInBoot s = true → s.dev.stage = 4 → s.dev.fail = false →
    let p := c.body
    let len := fieldN p 8 4
    fieldN p 0 8 % 4096 = 0 → 4096 ≤ len → len ≤ 0x2000000 → len % 4096 = 0 → zeroAt p 12 44 = true →
    let b := modMbx 19 (fun m => { m with nextSeq := wrapInc 32 m.nextSeq, fetched := m.fetched + 1, completed := m.completed + 1 }) s
    ∀ d, readHost 0 c.rd.data b = some d →
      let img := slice d 0 len
      let k := fun (st : Status) (x : Nat) => encodeCpl
        ({ tag := c.tag, op := 0x000C, status := st.code, phase := false, sqIdx := 0, seq := (Tab.get s.host.mbx 19).nextSeq, rlen := 0
           detail := x, result := [] } : Cpl)
      let done := fun (st : Status) (x : Nat) (t : State) =>
        ({ t with host := { t.host with inl := { t.host.inl.complete st.code (k st x) with clen := 0 } } } : State)
      answers (.hostLoad c0) s
        (if fwVerify img s.sec.fuse = Verdict.ok then
          done .ok 0 (fwInit (c.rd.aclk / 2500) (runFirmware 0 (fwVersion img) (secMeasure img (fwSvn img) b)))
         else done .fault 2 b)

/-- The host link and its functions (from R49, R91, R98, R446, R447, R451 - R459, Tables 18.3, 18.8): a reset of the endpoint with the loss of the link, a link that comes
up, a function level reset, VFs that appear and disappear, D3hot, an ATS invalidation, an unmasked vector, a failed transfer. While the
endpoint answers with Configuration Retry Status, nothing is configured and the host's requests are repeated (R38, R99). -/
def Obligations.PcieEventsComplete : Prop :=
  (∀ k s,
    let s1 := if k = .perst then { s with pins := { s.pins with perstN := false } } else s
    acts (.pcieReset k) s (if s.dev.mode = .cold then s1 else endpointReset (linkLost s1))) ∧
  (∀ s, answers .perstNRelease s { s with pins := { s.pins with perstN := true } }) ∧
  (∀ rate width flit inv rev cfg s, s.dev.mode ≠ .cold → s.pins.perstN = true → s.pcie.linkUp = false → hclkRuns s = true → 1 ≤ width → width ≤ 16 →
    rate ∈ [25, 50, 80, 160, 320, 640] →
    acts (.pcieLinkUp rate ⟨width, inv, rev⟩ flit cfg) s
      (hostConfigure cfg { s with pcie := { s.pcie with linkUp := true, rate := rate, width := width, flit := flit || rate = 640
                                                        rxInv := inv, reversed := rev } })) ∧
  (∀ cfg s, (crs s = true → hostConfigure cfg s = { s with pcie := { s.pcie with retried := cfg } }) ∧
    (crs s = false → hostConfigure cfg s = cfg.foldl (fun s c =>
      if (liveFns s).contains c.fn then sendPending c.fn (modPcieFn c.fn (fun p => p.configured c) s) else s) s)) ∧
  (∀ fn cfg s, crs s = true → acts (.flr fn cfg) s s ∧ acts (.d3hotEntry fn) s s ∧ acts (.d0Return fn) s s) ∧
  (∀ fn cfg s, (liveFns s).contains fn = true → s.pcie.linkUp = true → crs s = false →
    acts (.flr fn cfg) s (hostConfigure cfg (if fn = 0 then endpointReset s else
      dyingSweep (condemn fn (resetFnRegs fn (resetPage fn (cancelSession fn s)))))) ∧
    acts (.d3hotEntry fn) s (modPcieFn fn (fun p => { p with d3hot := true }) s) ∧
    acts (.d0Return fn) s (modPcieFn fn (fun p => { p with d3hot := false }) s)) ∧
  (∀ s, s.pcie.vfEnable = true → acts .vfEnableClear s
    (let s1 := (liveFns s).foldl (fun s m => if m = 0 then s else endVf m s) s
     { s1 with pcie := { s1.pcie with vfEnable := false, numVfs := 0 } })) ∧
  (∀ n cfg s, crs s = true → acts (.vfEnableSet n cfg) s s) ∧
  (∀ n cfg s, s.pcie.vfEnable = false → s.pcie.linkUp = true → crs s = false → 1 ≤ n → n ≤ 15 → acts (.vfEnableSet n cfg) s
    (let s1 := (List.range n).foldl (fun s k =>
       resetPage (k + 1) (endSession (k + 1) (discardCmds (fun o => o.cmd.mb = k + 1)
         (postRingAll (k + 1) (forceStale (k + 1) none s))))) s
     hostConfigure cfg { s1 with pcie := { s1.pcie with vfEnable := true, numVfs := n } })) ∧
  (∀ fn pages s, (liveFns s).contains fn = true → s.pcie.linkUp = true → answers (.atsInvalidate fn pages) s
    (emit (.atsDone fn) (modPcieFn fn (fun p => { p with atc := p.atc.filter (fun a => !pages.contains a) }) s))) ∧
  (∀ fn vec s, (liveFns s).contains fn = true → s.pcie.linkUp = true → crs s = false → (Tab.get s.pcie.fns fn).d3hot = false → vec < 64 →
    answers (.msixUnmask fn vec) s
      ((List.range 64).foldl (fun s v =>
        let p := Tab.get s.pcie.fns fn
        if p.pend.getLsbD v && p.msixEn && !p.msixFnMask && !p.vecMask.getLsbD v then
          msixRaw fn v (modPcieFn fn (fun p => { p with pend := setBit p.pend v false }) s)
        else s) (modPcieFn fn (fun p => { p with vecMask := setBit p.vecMask vec false }) s))) ∧
  (∀ m s, halted s = false → m < 16 → (Tab.get s.host.pages m).st ≠ .stopped → acts (.hostTransferFailure m none) s (ringFault m s)) ∧
  (∀ m q o s, halted s = false → s.host.cmds.find? (fun o => o.cmd.mb = m && o.seq = q) = some o →
    (∀ c ∈ s.srv.ctxs, ∀ r, c.2.req = some r → r.ref ≠ (m, o.id)) →
    acts (.hostTransferFailure m (some q)) s (finish (m, o.id) .fault 1 [] s))

/-- Clocks and temperature (from R83, R84, R122, R685, R686, R35): a lost reference marks its domains, raises their sources and stops what they clock;
its return starts the links anew; a thermal trip drives THERM_TRIP_N and takes the direct path; the heartbeat counts. -/
def Obligations.ClockAndThermalEventsComplete : Prop :=
  (∀ k s, s.dev.mode ≠ .cold →
    acts (.referenceLoss k) s
      (let ds := (srcDomains k s).filter (fun d => !domainLost d s)
       clocksStopped ds (ds.foldl (fun s d => clockLoss d s) (markClock k true s))) ∧
    acts (.referenceReturn k) s
      (let s2 := if (srcDomains k s).contains 4 then latchedSticky (markClock k false s) else markClock k false s
       if (srcDomains k s).contains 5 then (List.range 12).foldl (fun s i => trainDown i s) s2 else s2)) ∧
  (∀ k s, s.dev.mode = .cold → acts (.referenceLoss k) s (markClock k true s) ∧ acts (.referenceReturn k) s (markClock k false s)) ∧
  (∀ die s, die < 3 →
    acts (.thermalTrip die) s (directAssert (0x17E + die) { s with pins := { s.pins with thermTrip := true } })) ∧
  (∀ k s, k < 7 → acts (.railOutOfRange k) s (raise (0x165 + k) s)) ∧
  (∀ s, s.dev.mode ≠ .cold → s.dev.mode ≠ .safe → s.dev.fail = false → 5 ≤ s.dev.stage → domainLost 9 s = false →
    answers .heartbeatTick s { s with dev := { s.dev with heartbeat := s.dev.heartbeat + 1 } })

/-! ### Registers, mailboxes and transports -/

/-- The events of the core rails, while the rails are under control (from R58 - R73, R76, Table 3.7): a change of the desired point, the end of
a clock switch, the frames and answers of the AVSBus, the slew and settle timers, the adaptive loop, the limiter, and power failure with
its recovery. -/
def Obligations.PowerEventsComplete : Prop :=
  (∀ die s, die < 2 → railsActive s = true →
    let r := railOf die s
    let w := desired die s
    (r.want = w → acts (.desiredPointChange die) s s) ∧
    (r.want ≠ w → r.st = .steady → w ≠ (r.f, r.v) →
      acts (.desiredPointChange die) s (railStart die w (setRail die { r with want := w } s))) ∧
    (r.want ≠ w → r.st = .held → acts (.desiredPointChange die) s
      (if w.1 < r.switching.getD r.f then setRail die { r with want := w, switching := some w.1 } s else setRail die { r with want := w } s)) ∧
    (r.want ≠ w → r.st ≠ .steady → r.st ≠ .held →
      acts (.desiredPointChange die) s (setRail die { r with want := w, pend := some w } s)) ∧
    (∀ g, r.switching = some g →
      (r.st = .lowerF → r.vt ≠ r.v → acts (.yclkSwitchDone die) s
        (avsSend die (.writeVoltage r.vt) (setRail die { r with f := g, switching := none, st := .slew, repeated := false } s))) ∧
      (r.st = .raiseF → acts (.yclkSwitchDone die) s (railSteady die (setRail die { r with f := g, switching := none } s)))) ∧
    (∀ v, acts (.avsStatusRead die v) s (statusRead die v (avsSend die .readStatus s)) ∧
      acts (.avsPoll die (.status v)) s (statusRead die v (avsSend die .readStatus s))) ∧
    (∀ ma, acts (.avsPoll die (.current ma)) s
      (setRail die { railOf die (avsSend die .readCurrent s) with milliamp := ma } (avsSend die .readCurrent s))) ∧
    (∀ t, acts (.avsPoll die (.temperature t)) s
      (setRail die { railOf die (avsSend die .readTemperature s) with temp := t } (avsSend die .readTemperature s))) ∧
    (r.st = .slew → r.repeated = false →
      acts (.avsSlewTimeout die) s (avsSend die (.writeVoltage r.vt) (setRail die { r with repeated := true } s))) ∧
    (r.st = .slew → r.repeated = true → acts (.avsSlewTimeout die) s
      (raise (0x16C + die) (setRail die { r with st := .held, pend := none, switching := some (min w.1 (fsup die s (min r.v r.vt))) } s))) ∧
    (r.st = .settle → acts (.settleTimer die) s
      (if vreq die s r.ofs r.fd ≤ (r.v : Int) then setRail die { r with st := .raiseF, switching := some r.fd } s else railSteady die s)) ∧
    (∀ d : Int, r.touched = false → r.st = .steady → s.pow.policy.avsEn = true →
      let o := max (-60) (min 30 (r.ofs + 5 * d.sign))
      let v := vreq die s o r.f
      let n := vreq die s 0 r.f
      let step := fun b : Int => max (-60) (min 30 (if r.ofs + 5 ≤ b then r.ofs + 5 else if b ≤ r.ofs - 5 then r.ofs - 5 else r.ofs))
      acts (.adaptiveLoopPeriod die d) s
        (if v < (s.pow.policy.vmin : Int) then
           reform die (setRail die { r with vminPin := satInc 32 r.vminPin, ofs := step (s.pow.policy.vmin - n) } s)
         else if (s.pow.policy.vmax : Int) < v then
           reform die (setRail die { r with vmaxPin := satInc 32 r.vmaxPin, ofs := step (s.pow.policy.vmax - n) } s)
         else reform die (setRail die { r with ofs := o } s))) ∧
    (∀ d : Int, (r.touched = true ∨ r.st ≠ .steady) →
      acts (.adaptiveLoopPeriod die d) s (setRail die { r with touched := !(decide (r.st = .steady)) } s)) ∧
    (∀ d : Int, r.touched = false → r.st = .steady → s.pow.policy.avsEn = false →
      acts (.adaptiveLoopPeriod die d) s (reform die (setRail die { r with ofs := 0 } s)))) ∧
  (∀ die s f, die < 2 → halted s = false → (railOf die s).lastFrame = some f →
    let r := railOf die s
    acts (.avsFrameError die) s (if r.repeats < 3 then emit (.avs die f) (setRail die { r with repeats := r.repeats + 1 } s)
      else setRail die { r with repeats := 0, lastFrame := none } s)) ∧
  (∀ s, railsActive s = true →
    let total := coreUw 0 s + coreUw 1 s + s.pow.policy.noncore * 1000000
    let s1 := limAct total { s with pow := { s.pow with pwrW := total / 1000000 } }
    let floor := s.pow.policy.pcap * 1000000 < total && decide ((railOf 0 s).f = 800) && decide ((railOf 1 s).f = 800)
    let held := fun d => decide ((railOf d s1).limF < min (reqF d s1) (fsup d s1 s1.pow.policy.vmax)) &&
      (!(railOf d s1).fallLim || decide (s1.pow.policy.pcap * 1000000 * 98 ≤ total * 100))
    let capped := held 0 || held 1
    let s2 := { s1 with pow := { s1.pow with
      capPin := if capped && !s.pins.pwrFallen then satInc 32 s1.pow.capPin else s1.pow.capPin
      floorPin := if floor then satInc 32 s1.pow.floorPin else s1.pow.floorPin } }
    let s3 := reformAll (vmaxPinned 1 (vmaxPinned 0 s2))
    acts .limiterPeriod s (if floor then raise 0x16E s3 else s3)) ∧
  (∀ n s,
    let low := { s with pins := { s.pins with pwrFailN := false } }
    let s2 := { low with pins := { low.pins with pwrFallen := true } }
    acts (.pwrFailNFall n) s
      (if n < 4 then low else reformAll (setRail 1 { s2.pow.r1 with limF := 800, fallLim := true }
        (setRail 0 { s2.pow.r0 with limF := 800, fallLim := true } s2)))) ∧
  (∀ s, answers .pwrFailNRise s { s with pins := { s.pins with pwrFailN := true } }) ∧
  (∀ s, s.pins.pwrFailN = true → s.pins.pwrFallen = true → acts .pwrFailNRecovery s { s with pins := { s.pins with pwrFallen := false } })

/-- The fault collector's events (from R595 - R597, R608, R609, R613, R614, R709): the sampled pairs of one FCLK cycle, Masthead's
acknowledgement, the watchdog, the direct path and the parity scan. -/
def Obligations.TelltaleEventsComplete : Prop :=
  (∀ ps s, fclkRuns s = true → s.dev.mode ≠ .cold →
    let l := (samplePairs ps s).1
    let ds := l.filter directPath
    let s2 := occur (l.filter (fun i => !directPath i)) (ds.foldl (fun s i => directLatch i s)
      (reefNote (l.filter (fun i => !s.tt.held.getLsbD i)) (samplePairs ps s).2))
    acts (.ttOccurrence ps) s (if ds.isEmpty then s2 else directSafe s2)) ∧
  (∀ s, s.tt.reaction = .degraded →
    acts .ttAcknowledge s { s with tt := { s.tt with reaction := .none, request := false, ackMap := s.tt.sticky } } ∧
    acts .ttWatchdog s (raise 0x181 s)) ∧
  (∀ i s, acts (.directPathAssert i) s (directAssert i s)) ∧
  (∀ s, fclkRuns s = true → acts (.ttParityScan true) s (directAssert 0x1BF s) ∧ acts (.ttParityScan false) s s)

/-- Writes and reads of the host control page (from R13, R104 - R108, R112, R118, R123 - R130, R143, R641): the registers that a 4-byte or an
8-byte write reaches, a write of another size, an offset that is not mapped, the bits that a one clears unless their event recurs, the
time unit, the doorbells of a mailbox and GO of the inline mailbox. -/
def Obligations.RegisterAccessesComplete : Prop :=
  (∀ fn off v s, off % 4 = 0 → off ≠ 0x4040 → reaches fn off s = true →
    acts (.bar0RegisterWrite fn off 4 v) s (bar0Write32 fn off (v.setWidth 32) 0 s)) ∧
  (∀ fn off v s, off % 4 = 0 → off ≠ 0x4040 → off ≠ 0x403C → reaches fn off s = true →
    acts (.bar0RegisterWrite fn off 8 v) s (bar0Write32 fn (off + 4) ((v >>> 32).setWidth 32) 0 (bar0Write32 fn off (v.setWidth 32) 0 s))) ∧
  (∀ fn v s, reaches fn 0x4040 s = true → acts (.bar0RegisterWrite fn 0x4040 4 v) s
    (if v.getLsbD 0 then inlineCmd (cmdOfBytes 19 0 (Tab.getList s.host.inl.cmd 0 64) {}) s else s)) ∧
  (∀ fn off n v s, (n ≠ 4 ∧ n ≠ 8) ∨ off % 4 ≠ 0 → barDecoded fn s = true → writable off s = true →
    let touched := (List.range ((off % 4 + n + 3) / 4)).map (fun k => off / 4 * 4 + 4 * k)
    acts (.bar0RegisterWrite fn off n v) s (modView fn (fun w =>
      { w with accSize := true, accUnmapped := w.accUnmapped || touched.any (fun r => !mapped fn r s) }) s)) ∧
  (∀ fn off w s, barDecoded fn s = true → (w = true → writable off s = true) → s.dev.mode ≠ .cold → mapped fn off s = false →
    answers (.bar0UnmappedAccess fn off w) s (modView fn (fun v => { v with accUnmapped := true }) s)) ∧
  (∀ fn v r s, reaches fn 0x134 s = true → acts (.w1cWrite fn 0x134 v r) s (modView fn (fun w =>
    { w with accUnmapped := (w.accUnmapped && !v.getLsbD 0) || r.getLsbD 0, accSize := (w.accSize && !v.getLsbD 1) || r.getLsbD 1,
             liveWr := (w.liveWr && !v.getLsbD 2) || r.getLsbD 2 }) s)) ∧
  (∀ fn v r s, reaches fn 0x3028 s = true → acts (.w1cWrite fn 0x3028 v r) s (modTime (fun t =>
    { t with setInval := (t.setInval && !v.getLsbD 1) || r.getLsbD 1, wrIgn := (t.wrIgn && !v.getLsbD 2) || r.getLsbD 2 }) s)) ∧
  (∀ fn k v r s, k < 14 → reaches fn (0x2100 + 4 * k) s = true → acts (.ttStickyWrite fn (0x2100 + 4 * k) v r) s
    (occur (((List.range 32).filter (fun j => r.getLsbD j)).map (fun j => 32 * k + j) |>.filter (fun i => !srcReserved i))
      (recheckMode { s with tt := { s.tt with sticky := s.tt.sticky &&& ~~~(((v &&& ~~~r).setWidth 448) <<< (32 * k)) } }))) ∧
  (∀ fn k v r s, k < 14 → reaches fn (0x2200 + 4 * k) s = true → acts (.ttStickyWrite fn (0x2200 + 4 * k) v r) s
    (let s1 := recheckMode { s with tt := { s.tt with wiring := s.tt.wiring &&& ~~~(((v &&& ~~~r).setWidth 448) <<< (32 * k)) } }
     let again := ((List.range 32).filter (fun j => r.getLsbD j)).map (fun j => 32 * k + j) |>.filter (fun i => !srcReserved i)
     { s1 with tt := { s1.tt with wiring := again.foldl (fun m i => setBit m i true) s1.tt.wiring } })) ∧
  (∀ fn s, barDecoded fn s = true → readable 0x3000 s = true →
    answers (.todNsRead fn) s (modView fn (fun v => { v with secShadow := s.time.sec }) s)) ∧
  (∀ fn v s, reaches fn 0x3018 s = true →
    acts (.todSetNs fn v) s (modTime (fun t =>
      if !(fnState 0x0A s = .stopped) then { t with wrIgn := true }
      else if 1000000000 ≤ v.toNat % 2 ^ 30 then { t with setInval := true }
      else { t with setPend := some (t.setSecLo + t.setSecHi * 2 ^ 32, v.toNat % 2 ^ 30) }) s)) ∧
  (∀ fn v s, reaches fn 0x3020 s = true →
    acts (.todStep fn v) s (modTime (fun t =>
      if !(fnState 0x0A s = .stopped) then { t with wrIgn := true }
      else if ((t.sec * 1000000000 + t.ns : Nat) : Int) + t.stepPend + v.toInt < 0 then { t with setInval := true }
      else { t with stepPend := t.stepPend + v.toInt }) s)) ∧
  (∀ fn v s, reaches fn 0x3024 s = true →
    acts (.todAdjPpb fn v) s (modTime (fun t =>
      if !(fnState 0x0A s = .stopped) then { t with wrIgn := true }
      else if v.toInt < -500000 || 500000 < v.toInt then { t with setInval := true }
      else { t with adjPpb := v.toInt, trim := v.toInt }) s)) ∧
  (∀ fn m v s, m < 16 → reaches fn (0x10000 + 0x1000 * m) s = true →
    acts (.enable fn m v) s (enableWrite m (v.getLsbD 0) (modPage m (fun p => { p with ctl := v }) s))) ∧
  (∀ fn m v s, m < 16 → reaches fn (0x10000 + 0x1000 * m + 0x20) s = true →
    let p := Tab.get s.host.pages m
    let x := v.toNat % 4096
    let q := if x < 2 ^ (p.sizes.toNat % 16) then { p with sqTail := x } else { p with sqErr := true }
    acts (.sqTail fn m v) s { s with host := { s.host with pages := Tab.put s.host.pages m q } }) ∧
  (∀ fn m v s, m < 16 → reaches fn (0x10000 + 0x1000 * m + 0x2C) s = true →
    let p := Tab.get s.host.pages m
    let x := v.toNat % 4096
    let q := if x < 2 ^ (bitsN p.sizes.toNat 8 4) then { p with cqHead := x } else p
    acts (.cqHead fn m v) s { s with host := { s.host with pages := Tab.put s.host.pages m q } }) ∧
  (∀ fn v rd s, reaches fn 0x4040 s = true → v.getLsbD 0 = true →
    acts (.inlineGo fn v rd) s (inlineCmd (cmdOfBytes 19 0 (Tab.getList s.host.inl.cmd 0 64) rd) s))

/-- The transitions of a function end (from R113 - R115, R187, Table 5.5): a validated one runs, a refused one is STOPPED again and answers or
marks START_INVAL, a drained one is STOPPED. -/
def Obligations.FunctionTransitionsEnd : Prop :=
  (∀ f s, halted s = false → fnState f s = .starting →
    acts (.funcValidated f) s
      (let s1 := if fnValid f s then fnStarted f (setFn f .running s) else setFn f .stopped s
       if 16 ≤ f then heldEnable (f - 16) (if fnValid f s then s1 else modPage (f - 16) (fun p => { p with startInval := true }) s1)
       else if fnValid f s then fnAnswer 7 f .ok 0 s1 else fnAnswer 7 f .inval 0xFFFF s1)) ∧
  (∀ f s, halted s = false → fnState f s = .stopping → fnDrained f s = true →
    acts (.funcDrained f) s
      (let s1 := fnStopped f (setFn f .stopped s)
       if 16 ≤ f then heldEnable (f - 16) s1 else fnAnswer 8 f .ok 0 s1))

/-- The ring mailboxes' own events (from R142, R144 - R146, R150, R151): a turn of fetches, a ring that cannot be read, a batch of completions posted with
its interrupt as far as the ring has room, the rest held, a timeout with its completion and its counts, a result that comes too late. -/
def Obligations.MailboxEventsComplete : Prop :=
  (∀ m l s, canFetch m s = true → (Tab.get s.host.pages m).sqHead ≠ (Tab.get s.host.pages m).sqTail → canIssue (mbReq m s) s = true →
    acts (.mailboxFetch m (some l)) s
      (fetchAll m (l.take 8) (noteAts (mbReq m s) ((Tab.get s.host.pages m).sqBase.toNat + 64 * (Tab.get s.host.pages m).sqHead) s)) ∧
    acts (.mailboxFetch m none) s (ringFault m s)) ∧
  (∀ m n s, mhRuns s = true → m < 16 → (Tab.get s.pcie.fns (mbReq m s)).d3hot = false → canIssue (mbReq m s) s = true →
    let p := Tab.get s.host.pages m
    let ks := (s.host.cmds.filter (fun o => o.cmd.mb = m && o.known?.isSome)).take (min n 8)
    let now := ks.take p.cqRoom
    let marked := fun (t : State) =>
      let full := decide (now.length < ks.length)
      modPage m (fun q => { q with cqFull := full })
        (if full && !(Tab.get t.host.pages m).cqFull then modMbx m (fun x => { x with cqFullEv := satInc 32 x.cqFullEv }) t else t)
    (ks ≠ [] → now = [] → ∀ ok, acts (.completionPost m n ok) s (marked s)) ∧
    (now ≠ [] →
      acts (.completionPost m n true) s
        (let s1 := now.foldl (fun s o => match o.known? with | some c => postOne m c s | none => s) s
         let s2 := marked (countPosted m now.length (dropCmds (fun o => now.any (fun k => isRef m k.id o)) s1))
         if p.ctl.getLsbD 1 && now.any (fun o => !bitN o.cmd.flags 1) then sendMsix (mbReq m s) (bitsN p.ctl.toNat 8 6) s2 else s2) ∧
      acts (.completionPost m n false) s (marked (ringFault m (discardCmds (fun o => now.any (fun k => isRef m k.id o)) s))))) ∧
  (∀ m q o s, mhRuns s = true →
    s.host.cmds.find? (fun o => o.cmd.mb = m && o.seq = q && o.known?.isNone && o.cmd.op ≠ 0x0401) = some o →
    acts (.commandTimeout m q) s
      (let r : Nat × Nat := (m, o.id)
       let s1 := modCmd r (fun p => { p with prog := .known (mkCpl o .timedout 0 []) }) s
       let s2 : State := if o.prog = .running then { s1 with host := { s1.host with retired := s1.host.retired ++ [(r, q)] } } else s1
       raise 0x13B (modMbx m (fun x => { x with timedOut := satInc 32 x.timedOut }) (openTimedOut r s2)))) ∧
  (∀ m q x s, s.host.retired.find? (fun x => x.1.1 = m && x.2 = q) = some x →
    acts (.lateResult m q) s (modMbx m (fun y => { y with lateCpl := satInc 32 y.lateCpl })
      { s with host := { s.host with retired := s.host.retired.filter (fun y => y.1 ≠ x.1) } }))

/-- The management transports (from R156 - R160, R620 - R623, R630, R632 - R634): packets written to and read from SMB0 and SMB1, the alert, the target reset,
the MCTP control commands, GO of the PLB mailbox, a line and a character of the console. -/
def Obligations.TransportsComplete : Prop :=
  (∀ p rd s, s.dev.mode ≠ .cold → p.body.length ≤ 64 → p.som = true → nakFirst p s = false →
    (match s.smb0.eid with | some e => p.dest = e | none => p.dest = 0) →
    let put := fun (a : Option (Nat × Nat)) (bs : List Byte) => ({ s with smb0 := { s.smb0 with assembling := a, partialMsg := bs } } : State)
    acts (.smb0BlockWrite p true rd) s
      (if p.eom then mcpMessage { bus := 0, src := p.src, tag := p.tag } p.body rd (put none []) else put (some (p.seq, p.tag)) p.body) ∧
    acts (.smb1BlockWrite p true rd) s
      (if p.eom then mcpMessage { bus := 1, src := p.src, tag := p.tag } p.body rd (put none []) else put (some (p.seq, p.tag)) p.body) ∧
    acts (.smb0BlockWrite p false rd) s { s with smb0 := { s.smb0 with discarded := s.smb0.discarded + 1 } }) ∧
  (∀ s p ps, s.dev.mode ≠ .cold → s.smb0.waiting = p :: ps →
    answers .smb0BlockRead s (emit (.smb 0 p) { s with smb0 := { s.smb0 with waiting := ps } }) ∧
    answers .alertResponseAddress s
      (emit (.smbByte (BitVec.ofNat 8 (2 * (0x38 + bitsN s.pins.straps.toNat 12 2)))) { s with smb0 := { s.smb0 with answered := s.smb0.answered + 1 } })) ∧
  (∀ s p ps, s.dev.mode ≠ .cold → s.smb0.waiting1 = p :: ps →
    answers .smb1BlockRead s (emit (.smb 1 p) { s with smb0 := { s.smb0 with waiting1 := ps } })) ∧
  (∀ s, s.dev.mode ≠ .cold →
    acts .smb0TargetReset s (smbReset { s with smb0 := { s.smb0 with resets := s.smb0.resets + 1 } }) ∧
    answers .getEndpointId s (controlReply {} 2 0 (leBytes 1 (s.smb0.eid.getD 0) ++ [0x00, 0x00]) s) ∧
    answers .getMessageTypeSupport s (controlReply {} 5 0 [0x02, 0x00, 0x7E] s)) ∧
  (∀ (e : Byte) s, s.dev.mode ≠ .cold → e ≠ 0 → e ≠ 255 →
    acts (.setEndpointId e) s
      (let s1 := if s.smb0.eid = some e.toNat then s else smbReset s
       controlReply {} 1 0 (leBytes 1 0 ++ leBytes 1 e.toNat ++ leBytes 1 0) { s1 with smb0 := { s1.smb0 with eid := some e.toNat } })) ∧
  (∀ (t : Byte) s, s.dev.mode ≠ .cold →
    answers (.getMctpVersionSupport t) s
      (if t = 0xFF ∨ t = 0 then controlReply {} 4 0 [0x01, 0xF1, 0xF3, 0xF0, 0x00] s else controlReply {} 4 0x80 [] s)) ∧
  (∀ (v : W32) rd s, v.getLsbD 0 = true → mhRuns s = true → s.host.plb.busy = false →
    acts (.pmbGo v rd) s (settle (accept (cmdOfBytes 17 0 (Tab.getList s.host.plb.cmd 0 1024) rd) .queued
      { s with host := { s.host with plb := { s.host.plb with busy := true } } }))) ∧
  (∀ l b rd s, mhRuns s = true → outCount 18 s = 0 → l.length ≤ 2060 → l.take 2 = [0x43, 0x20] → hexBytes (l.drop 2) = some b → 8 ≤ b.length →
    b.length = 8 + fieldN b 6 2 →
    acts (.consoleLine l rd) s (settle (accept (cmdOfBytes 18 0 b rd) .queued s))) ∧
  (∀ bits n rd s, mhRuns s = true → (uartChar bits).2 = true →
    let b := (uartChar bits).1
    let put := fun (buf : List Byte) (cr : Bool) => ({ s with uart := { s.uart with buf := buf, lastCr := cr } } : State)
    acts (.uartCharacterRx bits n rd) s
      (if b = 0x0A ∧ s.uart.lastCr = true then put s.uart.buf false
       else if b = 0x0D ∨ b = 0x0A then consoleLine s.uart.buf rd (put [] (b = 0x0D))
       else put (if 2060 < s.uart.buf.length then s.uart.buf else s.uart.buf ++ [b]) false)) ∧
  (∀ bits n rd s, s.dev.mode ≠ .cold → (uartChar bits).2 = false →
    acts (.uartCharacterRx bits n rd) s
      (if 10 ≤ n then { s with uart := { s.uart with breaks := s.uart.breaks + 1 } } else { s with uart := { s.uart with framing := s.uart.framing + 1 } }))

/-! ### Tiles, Halyards, Sheets and Cleats -/

/-- The control and scalar ALU rows (Tables 9.4, 9.5, R223 - R228, R236): each issues on a tile that meets it, changes the register
it names as its row says, and nothing else but the PC, which moves on by one word or to IMM. -/
def Obligations.TileScalarRowsComplete : Prop :=
  rowSets .tNop 0x01 (fun _ u => u) ∧
  rowBranches .tBr 0x03 (fun _ _ => True) ∧
  rowBranches .tBeq 0x04 (fun x u => gReg u x.a = gReg u x.b) ∧
  rowBranches .tBne 0x05 (fun x u => gReg u x.a ≠ gReg u x.b) ∧
  rowBranches .tBlt 0x06 (fun x u => (gReg u x.a).toInt < (gReg u x.b).toInt) ∧
  rowBranches .tBge 0x07 (fun x u => (gReg u x.b).toInt ≤ (gReg u x.a).toInt) ∧
  rowBranches .tBltu 0x08 (fun x u => (gReg u x.a).toNat < (gReg u x.b).toNat) ∧
  rowBranches .tBgeu 0x09 (fun x u => (gReg u x.b).toNat ≤ (gReg u x.a).toNat) ∧
  rowBranches .tBpany 0x0C (fun x u => pReg u x.a ≠ 0) ∧
  rowBranches .tBpnone 0x0D (fun x u => pReg u x.a = 0) ∧
  (∀ t s, tileMeets 0x02 t s = true → ∃ s', answers (.tEnd t) s s' ∧ onlyTile t s s' ∧
    tileOf t s' = atPc (tileOf t s).pc { tileOf t s with atEnd := true }) ∧
  (∀ t s, tileMeets 0x0A t s = true → ∃ s', answers (.tJal t) s s' ∧ onlyTile t s s' ∧
    tileOf t s' = atPc (here t s).imm (setG (here t s).d (BitVec.ofNat 64 (onward (tileOf t s) % 8192)) (tileOf t s))) ∧
  (∀ t s, tileMeets 0x0B t s = true → ∃ s', answers (.tJr t) s s' ∧ onlyTile t s s' ∧
    tileOf t s' = atPc (gReg (tileOf t s) (here t s).a).toNat (tileOf t s)) ∧
  rowSets .tAdd 0x10 (fun x u => setG x.d (gReg u x.a + gReg u x.b) u) ∧
  rowSets .tSub 0x11 (fun x u => setG x.d (gReg u x.a - gReg u x.b) u) ∧
  rowSets .tMul 0x12 (fun x u => setG x.d (gReg u x.a * gReg u x.b) u) ∧
  rowSets .tMulhu 0x13 (fun x u => setG x.d (BitVec.ofNat 64 ((gReg u x.a).toNat * (gReg u x.b).toNat / 2 ^ 64)) u) ∧
  rowSets .tMulh 0x14 (fun x u => setG x.d (BitVec.ofInt 64 ((gReg u x.a).toInt * (gReg u x.b).toInt / 2 ^ 64)) u) ∧
  rowSets .tDiv 0x15 (fun x u => setG x.d
    (if gReg u x.b = 0 then BitVec.allOnes 64 else BitVec.ofInt 64 ((gReg u x.a).toInt.tdiv (gReg u x.b).toInt)) u) ∧
  rowSets .tDivu 0x16 (fun x u => setG x.d
    (if gReg u x.b = 0 then BitVec.allOnes 64 else BitVec.ofNat 64 ((gReg u x.a).toNat / (gReg u x.b).toNat)) u) ∧
  rowSets .tRem 0x17 (fun x u => setG x.d
    (if gReg u x.b = 0 then gReg u x.a else BitVec.ofInt 64 ((gReg u x.a).toInt.tmod (gReg u x.b).toInt)) u) ∧
  rowSets .tRemu 0x18 (fun x u => setG x.d
    (if gReg u x.b = 0 then gReg u x.a else BitVec.ofNat 64 ((gReg u x.a).toNat % (gReg u x.b).toNat)) u) ∧
  rowSets .tAnd 0x19 (fun x u => setG x.d (gReg u x.a &&& gReg u x.b) u) ∧
  rowSets .tOr 0x1A (fun x u => setG x.d (gReg u x.a ||| gReg u x.b) u) ∧
  rowSets .tXor 0x1B (fun x u => setG x.d (gReg u x.a ^^^ gReg u x.b) u) ∧
  rowSets .tSll 0x1C (fun x u => setG x.d (gReg u x.a <<< ((gReg u x.b).toNat % 64)) u) ∧
  rowSets .tSrl 0x1D (fun x u => setG x.d (gReg u x.a >>> ((gReg u x.b).toNat % 64)) u) ∧
  rowSets .tSra 0x1E (fun x u => setG x.d ((gReg u x.a).sshiftRight ((gReg u x.b).toNat % 64)) u) ∧
  rowSets .tSlt 0x1F (fun x u => setG x.d (if (gReg u x.a).toInt < (gReg u x.b).toInt then 1 else 0) u) ∧
  rowSets .tSltu 0x20 (fun x u => setG x.d (if (gReg u x.a).toNat < (gReg u x.b).toNat then 1 else 0) u) ∧
  rowSets .tMin 0x21 (fun x u => setG x.d (if (gReg u x.a).toInt ≤ (gReg u x.b).toInt then gReg u x.a else gReg u x.b) u) ∧
  rowSets .tMax 0x22 (fun x u => setG x.d (if (gReg u x.a).toInt ≤ (gReg u x.b).toInt then gReg u x.b else gReg u x.a) u) ∧
  rowSets .tMinu 0x23 (fun x u => setG x.d (if (gReg u x.a).toNat ≤ (gReg u x.b).toNat then gReg u x.a else gReg u x.b) u) ∧
  rowSets .tMaxu 0x24 (fun x u => setG x.d (if (gReg u x.a).toNat ≤ (gReg u x.b).toNat then gReg u x.b else gReg u x.a) u) ∧
  rowSets .tLi 0x26 (fun x u => setG x.d (immS x) u) ∧
  rowSets .tLih 0x27 (fun x u => setG x.d (BitVec.ofNat 64 (x.imm * 2 ^ 32 + (gReg u x.d).toNat % 2 ^ 32)) u) ∧
  rowSets .tAddi 0x28 (fun x u => setG x.d (gReg u x.a + immS x) u) ∧
  rowSets .tAndi 0x29 (fun x u => setG x.d (gReg u x.a &&& immS x) u) ∧
  rowSets .tOri 0x2A (fun x u => setG x.d (gReg u x.a ||| immS x) u) ∧
  rowSets .tXori 0x2B (fun x u => setG x.d (gReg u x.a ^^^ immS x) u) ∧
  rowSets .tSlli 0x2C (fun x u => setG x.d (gReg u x.a <<< ((immS x).toNat % 64)) u) ∧
  rowSets .tSrli 0x2D (fun x u => setG x.d (gReg u x.a >>> ((immS x).toNat % 64)) u) ∧
  rowSets .tSrai 0x2E (fun x u => setG x.d ((gReg u x.a).sshiftRight ((immS x).toNat % 64)) u) ∧
  rowSets .tSlti 0x2F (fun x u => setG x.d (if (gReg u x.a).toInt < (immS x).toInt then 1 else 0) u)

/-- The scalar loads (Table 9.6, R200, R209, D8): inside tile memory, clear of a queued drain and without an error in the codewords, the
register takes the little-endian bytes, with the sign of LB, LH and LW, and nothing but it and the PC changes. The stores write
the low bytes of gB at gA + IMM, where no queued Sail instruction is to read or to write them (R197, R209). -/
def Obligations.TileMemoryRowsComplete : Prop :=
  let from_ := fun (n t : Nat) (x : Fields) (s : State) => inTmem (accOff x (tileOf t s)) n = true ∧
    sailWillWrite t (accOff x (tileOf t s)) n s = false ∧ rangeClean (tileBase t + accOff x (tileOf t s)) n s = true
  let unsigned := fun (n t : Nat) (x : Fields) (s : State) =>
    modTile t (setG x.d (BitVec.ofNat 64 (leNat (tileBytes t (accOff x (tileOf t s)) n s)))) s
  let signed := fun (n t : Nat) (x : Fields) (s : State) =>
    modTile t (setG x.d ((BitVec.ofNat (8 * n) (leNat (tileBytes t (accOff x (tileOf t s)) n s))).signExtend 64)) s
  let into := fun (n t : Nat) (x : Fields) (s : State) => inTmem (accOff x (tileOf t s)) n = true ∧
    sailWillRead t (accOff x (tileOf t s)) n s = false ∧ sailWillWrite t (accOff x (tileOf t s)) n s = false
  let stored := fun (n t : Nat) (x : Fields) (s : State) =>
    memWrite (tileBase t + accOff x (tileOf t s)) (leBytes n (gReg (tileOf t s) x.b).toNat) s
  rowGoes .tLb 0x30 (from_ 1) (signed 1) ∧ rowGoes .tLbu 0x31 (from_ 1) (unsigned 1) ∧
  rowGoes .tLh 0x32 (from_ 2) (signed 2) ∧ rowGoes .tLhu 0x33 (from_ 2) (unsigned 2) ∧
  rowGoes .tLw 0x34 (from_ 4) (signed 4) ∧ rowGoes .tLwu 0x35 (from_ 4) (unsigned 4) ∧
  rowGoes .tLd 0x36 (from_ 8) (unsigned 8) ∧
  rowGoes .tSb 0x38 (into 1) (stored 1) ∧ rowGoes .tSh 0x39 (into 2) (stored 2) ∧
  rowGoes .tSw 0x3A (into 4) (stored 4) ∧ rowGoes .tSd 0x3B (into 8) (stored 8) ∧
  rowGoes .tVld 0x70 (fun t x s => from_ 256 t x s ∧ accOff x (tileOf t s) % 64 = 0)
    (fun t x s => modTile t (setV x.d x.pg (fun i => BitVec.ofNat 32 (leNat (tileBytes t (accOff x (tileOf t s) + 4 * i) 4 s)))) s) ∧
  rowGoes .tVst 0x71 (fun t x s => into 256 t x s ∧ accOff x (tileOf t s) % 64 = 0)
    (fun t x s =>
      if x.pg = 0 then memWrite (tileBase t + accOff x (tileOf t s)) (lanesBytes (tileOf t s) x.b 0 64) s
      else storeLanes t (accOff x (tileOf t s)) (tileOf t s) x.b x.pg 64 s)

/-- A word of a row whose code is not legal, and an access that leaves tile memory or is misaligned, complete nothing: the tile faults
with its code (from R224, R228, D8), the word is not issued, and its memory is as before. -/
def Obligations.TileWordsFault : Prop :=
  (∀ t s, tileIssues t s = true → legal (here t s) = false →
    answers (.tileReservedOpcode t) s (tileFault t 0x08 (tileOf t s).pc s)) ∧
  (∀ t s, tileMeets 0x36 t s = true → inTmem (accOff (here t s) (tileOf t s)) 8 = false →
    answers (.tLd t) s (tileFault t 0x01 (tileOf t s).pc s)) ∧
  (∀ t s, tileMeets 0x71 t s = true → accOff (here t s) (tileOf t s) % 64 ≠ 0 →
    answers (.tVst t) s (tileFault t 0x01 (tileOf t s).pc s)) ∧
  (∀ t code pc s, (tileOf t s).st ≠ .running → (tileOf t s).st ≠ .loaded → tileFault t code pc s = s) ∧
  (∀ t code pc s, (tileOf t s).st = .running → (tileFault t code pc s).mem = s.mem ∧ (tileOf t (tileFault t code pc s)).st = .faulted ∧
    (tileOf t (tileFault t code pc s)).fault = code ∧ (tileOf t (tileFault t code pc s)).faultPc = pc) ∧
  (∀ t s, (tileOf t s).st = .running →
    ((tileOf t s).stalled = true ∨ ((tileOf t s).atEnd = true ∧ ((tileOf t s).queue ≠ [] ∨ (tileOf t s).drain.isSome = true))) →
    answers (.stallWatchdog t) s (tileFault t 0x0A (tileOf t s).pc s)) ∧
  (∀ t s, (tileOf t s).st = .running → (tileOf t s).atEnd = true → (tileOf t s).queue = [] → (tileOf t s).drain = none →
    answers (.tileProgramEnd t) s (modTile t (fun u => { u with st := .loaded, atEnd := false, stalled := false }) s))

/-- The vector, packed, reduction, predicate and conversion rows (Tables 9.7 - 9.9 and 9.12, R213, R226): each issues on a tile that
meets it, writes the active lanes of vD (or gD, or pD) as its row says, and nothing else changes but the PC. -/
def Obligations.TileVectorRowsComplete : Prop :=
  let v1 := fun (f : W32 → W32) (x : Fields) (u : Tile) => setV x.d x.pg (fun i => f (lane u x.a i)) u
  let v2 := fun (f : W32 → W32 → W32) (x : Fields) (u : Tile) => setV x.d x.pg (fun i => f (lane u x.a i) (lane u x.b i)) u
  let packed := fun (f : Nat → Nat → Nat) => v2 (fun a b =>
    BitVec.ofNat 32 (f (a.toNat % 2 ^ 16) (b.toNat % 2 ^ 16) + f (a.toNat / 2 ^ 16) (b.toNat / 2 ^ 16) * 2 ^ 16))
  let v3 := fun (f : W32 → W32 → W32 → W32) (x : Fields) (u : Tile) =>
    setV x.d x.pg (fun i => f (lane u x.a i) (lane u x.b i) (lane u x.c i)) u
  let compares := fun (f : W32 → W32 → Bool) (x : Fields) (u : Tile) =>
    setPBits x.d x.pg (fun i => f (lane u x.a i) (lane u x.b i)) u
  let extreme := fun (f : W32 → W32 → W32) (z : W32) (x : Fields) (u : Tile) =>
    let r := match ((List.range 64).filter (active u x.pg)).map (lane u x.a) with
      | [] => z
      | a :: l => if isNan (l.foldl f a) then nan32 else l.foldl f a
    setG x.d (r.setWidth 64) u
  rowSets .tVfadd 0x50 (v2 fAdd) ∧ rowSets .tVfsub 0x51 (v2 fSub) ∧ rowSets .tVfmul 0x52 (v2 fMul) ∧ rowSets .tVfma 0x53 (v3 fFma) ∧
  rowSets .tVfmin 0x54 (v2 fMin) ∧ rowSets .tVfmax 0x55 (v2 fMax32) ∧ rowSets .tVfabs 0x56 (v1 fAbs) ∧ rowSets .tVfneg 0x57 (v1 fNeg) ∧
  rowSets .tVrcp 0x58 (v1 fRcp) ∧ rowSets .tVrsq 0x59 (v1 fRsq) ∧ rowSets .tVexp2 0x5A (v1 fExp2) ∧ rowSets .tVlog2 0x5B (v1 fLog2) ∧
  rowSets .tVfceq 0x5C (compares fEq) ∧ rowSets .tVfclt 0x5D (compares fLt) ∧ rowSets .tVfcle 0x5E (compares fLe) ∧
  rowSets .tVadd 0x60 (v2 (fun a b => a + b)) ∧ rowSets .tVsub 0x61 (v2 (fun a b => a - b)) ∧ rowSets .tVmul 0x62 (v2 (fun a b => a * b)) ∧
  rowSets .tVand 0x63 (v2 (fun a b => a &&& b)) ∧ rowSets .tVor 0x64 (v2 (fun a b => a ||| b)) ∧ rowSets .tVxor 0x65 (v2 (fun a b => a ^^^ b)) ∧
  rowSets .tVsll 0x66 (v2 (fun a b => a <<< (b.toNat % 32))) ∧ rowSets .tVsrl 0x67 (v2 (fun a b => a >>> (b.toNat % 32))) ∧
  rowSets .tVsra 0x68 (v2 (fun a b => a.sshiftRight (b.toNat % 32))) ∧
  rowSets .tVmin 0x69 (v2 (fun a b => if a.toInt ≤ b.toInt then a else b)) ∧
  rowSets .tVmax 0x6A (v2 (fun a b => if a.toInt ≤ b.toInt then b else a)) ∧
  rowSets .tVcmp 0x6B (fun x => compares (fun a b =>
    if x.imm = 0 then a = b else if x.imm = 1 then decide (a.toInt < b.toInt) else decide (a.toNat < b.toNat)) x) ∧
  rowSets .tVbadd 0x6C (packed bfAdd) ∧ rowSets .tVbmul 0x6D (packed bfMul) ∧
  rowSets .tVbfma 0x6E (v3 (fun a b c => BitVec.ofNat 32 (bfFma (a.toNat % 2 ^ 16) (b.toNat % 2 ^ 16) (c.toNat % 2 ^ 16) +
    bfFma (a.toNat / 2 ^ 16) (b.toNat / 2 ^ 16) (c.toNat / 2 ^ 16) * 2 ^ 16))) ∧
  rowSets .tVsel 0x6F (fun x u => setV x.d 0 (fun i => if (pReg u x.c).getLsbD i then lane u x.a i else lane u x.b i) u) ∧
  rowSets .tVbcst 0x72 (fun x u => setV x.d x.pg (fun _ => (gReg u x.a).setWidth 32) u) ∧
  rowSets .tVmov 0x73 (v1 (fun a => a)) ∧
  rowSets .tVext 0x74 (fun x u => setG x.d ((lane u x.a ((gReg u x.b).toNat % 64)).setWidth 64) u) ∧
  rowSets .tVins 0x75 (fun x u =>
    { u with v := Tab.put u.v (64 * x.d + (gReg u x.b).toNat % 64) ((gReg u x.a).setWidth 32) }) ∧
  rowSets .tViota 0x76 (fun x u => setV x.d x.pg (fun i => BitVec.ofNat 32 i) u) ∧
  rowSets .tVperm 0x77 (fun x u => setV x.d x.pg (fun i => lane u x.a ((lane u x.b i).toNat % 64)) u) ∧
  rowSets .tVrsum 0x78 (fun x u => setG x.d (((tree fAdd 6 ((List.range 64).map (fun i => if active u x.pg i then lane u x.a i else 0))).headD
    0).setWidth 64) u) ∧
  rowSets .tVrmax 0x79 (extreme fMax32 0xFF800000#32) ∧ rowSets .tVrmin 0x7A (extreme fMin 0x7F800000#32) ∧
  rowSets .tPlog 0x7B (fun x u => setP x.d
    (if x.imm = 0 then pReg u x.a &&& pReg u x.b else if x.imm = 1 then pReg u x.a ||| pReg u x.b
     else if x.imm = 2 then pReg u x.a ^^^ pReg u x.b else pReg u x.a &&& ~~~pReg u x.b) u) ∧
  rowSets .tPnot 0x7C (fun x u => setP x.d (~~~pReg u x.a) u) ∧
  rowSets .tPmovg 0x7D (fun x u => setG x.d (pReg u x.a) u) ∧ rowSets .tPmovp 0x7E (fun x u => setP x.d (gReg u x.a) u) ∧
  rowSets .tPset 0x7F (fun x u => setP x.d (if x.imm = 1 then BitVec.allOnes 64 else 0) u) ∧
  rowSets .tVcvtfi 0x82 (v1 cvtFI) ∧ rowSets .tVcvtif 0x83 (v1 cvtIF) ∧
  rowSets .tVcvtfb 0x80 (fun x u =>
    let e := fun k => cvtFB (if k < 64 then lane u x.a k else lane u x.b (k - 64))
    setV x.d x.pg (fun i => BitVec.ofNat 32 (e (2 * i) + e (2 * i + 1) * 2 ^ 16)) u) ∧
  rowSets .tVcvtbf 0x81 (fun x => v1 (fun a => cvtBF (a.toNat / 2 ^ (16 * x.imm) % 2 ^ 16)) x) ∧
  rowSets .tVq8 0x88 (fun x u => setV x.d 0 (byteLane
    (quantBytes .vf8 ((List.range 64).map (lane u x.a)) ((gReg u x.b).setWidth 32))) u) ∧
  rowSets .tVq4 0x89 (fun x u => setV x.d 0 (byteLane
    (quantBytes .vf4 ((List.range 64).map (lane u x.a)) ((gReg u x.b).setWidth 32))) u) ∧
  rowSets .tVdq8 0x8A (fun x u => setV x.d 0 (fun k =>
    let e := vfElem .vf8 (lanesBytes u x.a 0 64) k
    dequantise .vf8 e.1 e.2 ((gReg u x.b).setWidth 32)) u) ∧
  rowSets .tVdq4 0x8B (fun x u => setV x.d 0 (fun k =>
    let e := vfElem .vf4 (lanesBytes u x.a 0 64) k
    dequantise .vf4 e.1 e.2 ((gReg u x.b).setWidth 32)) u)

/-- The Sail rows and events (Table 9.11, R197, R204 - R207, R209 - R211, R251): a row whose operands are usable enters a queue that has room,
and the PC moves on; the instruction at the head executes once the drain path lets it and its operand words are had, after the upsets
that have come to memory meanwhile (R201); a drain ends when its bytes are written or its words pushed; an executed instruction frees its
slot. -/
def Obligations.SailRowsComplete : Prop :=
  let ready := fun (need : Nat) (dirs : List Nat) (t : Nat) (a : SailSrc) (s : State) =>
    (∀ o, a = .mem o → inTmem o (64 * need) = true ∧ o % 64 = 0) ∧
    (∀ n, a = .sheet n → (sheetOf t n s).st = .opened ∧ (sheetOf t n s).dir ∈ dirs)
  let src := fun (t : Nat) (byte : Bool) (n r : Nat) (s : State) => if byte then SailSrc.sheet n else .mem (gReg (tileOf t s) r).toNat
  let a := fun (t : Nat) (x : Fields) (s : State) => src t (x.imm.testBit 2) (x.imm / 16 % 32) x.a s
  let b := fun (t : Nat) (x : Fields) (s : State) => src t (x.imm.testBit 3) (x.imm / 512 % 32) x.b s
  let room := fun (t : Nat) (s : State) => (tileOf t s).queue.length < 4
  let queues := fun (t : Nat) (k : SailKind) (s : State) => modTile t (fun u => { u with queue := u.queue ++ [{ kind := k, pc := u.pc }] }) s
  rowGoes .tSmma 0x90
    (fun t x s => room t s ∧ ready (smmaWords (x.imm % 4) false) [0, 2] t (a t x s) s ∧ ready (smmaWords (x.imm % 4) true) [0, 2] t (b t x s) s)
    (fun t x s => queues t (.smma x.d (x.imm % 4) (a t x s) (b t x s)) s) ∧
  rowGoes .tSscl 0x91 (fun t x s => room t s ∧ ready 12 [0, 2] t (a t x s) s) (fun t x s => queues t (.sscl (a t x s)) s) ∧
  rowGoes .tSzero 0x92 (fun t _ s => room t s) (fun t x s => queues t (.szero x.d) s) ∧
  rowGoes .tSdrain 0x93
    (fun t x s => room t s ∧ ready (if x.imm.testBit 0 then 256 else 512) [1, 2] t (a t x s) s)
    (fun t x s => queues t (.sdrain x.d (x.imm.testBit 0) (x.imm.testBit 1) (a t x s)) s) ∧
  (∀ t ups q qs s0, let s := strike ups s0
    (tileOf t s).queue = q :: qs → q.executed = false → drainBlocks t q s = false →
    ((tileOf t s).st = .running ∨ q.begun = true) → domainLost (tileDie t) s = false → s.dev.mode ≠ .safe →
    let done := { q with begun := true, executed := true } :: qs
    (∀ n, q.kind = .szero n → ∃ s', answers (.sailExecute ⟨t, ups⟩) s0 s' ∧ onlyTile t s s' ∧
      let kept := Tab.dropIf (tileOf t s).acc (fun k _ => decide (8192 * n ≤ k) && decide (k < 8192 * n + 8192))
      tileOf t s' = { tileOf t s with acc := kept, queue := done }) ∧
    (∀ n bf z tgt, q.kind = .sdrain n bf z tgt →
      answers (.sailExecute ⟨t, ups⟩) s0 (modTile t (fun u => { u with queue := qs, drain := some { acc := n, bf := bf, zero := z, tgt := tgt } }) s)) ∧
    (∀ o, q.kind = .sscl (.mem o) → rangeClean (tileBase t + o) 768 s = true → ∃ s', answers (.sailExecute ⟨t, ups⟩) s0 s' ∧ onlyTile t s s' ∧
      tileOf t s' = { ssclApply (tileBytes t o 768 s) (tileOf t s) with queue := done }) ∧
    (∀ n f oa ob, q.kind = .smma n f (.mem oa) (.mem ob) → rangeClean (tileBase t + oa) (64 * smmaWords f false) s = true →
      rangeClean (tileBase t + ob) (64 * smmaWords f true) s = true → ∃ s', answers (.sailExecute ⟨t, ups⟩) s0 s' ∧ onlyTile t s s' ∧
      tileOf t s' = { smmaApply n f (tileBytes t oa (64 * smmaWords f false) s) (tileBytes t ob (64 * smmaWords f true) s) (tileOf t s) with
        queue := done }) ∧
    (∀ n ws, q.kind = .sscl (.sheet n) → q.gotA = [] → (sheetOf t n s).st = .opened → 12 ≤ (sheetOf t n s).present →
      sheetRead t (sheetOf t n s) 12 (sheetOf t n s).read s = (some ws, s) → ws.length = 768 →
      ∃ s', answers (.sailExecute ⟨t, ups⟩) s0 s' ∧ s'.mem = s.mem ∧ (∀ m, m ≠ n → sheetOf t m s' = sheetOf t m s) ∧
        sheetOf t n s' = { sheetOf t n s with read := (sheetOf t n s).read + 12 } ∧
        tileOf t s' = { ssclApply ws (tileOf t s) with queue := done })) ∧
  (∀ t d o s, (tileOf t s).drain = some d → d.tgt = .mem o →
    answers (.sailDrainDone t) s (modTile t (fun u => { (if d.zero then szeroApply d.acc u else u) with drain := none })
      (memWrite (tileBase t + o) (drainData d.acc d.bf (tileOf t s) 0 8192) s))) ∧
  (∀ t d n s, (tileOf t s).drain = some d → d.tgt = .sheet n → (sheetOf t n s).st = .opened →
    drainBytes d.bf / 64 ≤ (sheetOf t n s).credits → d.pushed = 0 →
    answers (.sailDrainDone t) s (modTile t (fun u => { (if d.zero then szeroApply d.acc u else u) with drain := none })
      (sheetPush t n (words64 (drainBytes d.bf / 64) (drainData d.acc d.bf (tileOf t s) 0 8192)) s))) ∧
  (∀ t q qs s, (tileOf t s).queue = q :: qs → q.executed = true →
    answers (.sailInstructionDone t) s (modTile t (fun u => { u with queue := qs }) s))

/-- The Sheet rows (Table 9.10, R242 - R254, R256): on a Sheet that Table 10.4 lets the tile use and no earlier Sail instruction names,
each issues with its effect on the positions, on gD and on tile memory; a pop beyond the words present, a push beyond the credits, a
release beyond the read position and a rewind past the release fault as their rows say. -/
def Obligations.SheetRowsComplete : Prop :=
  let opened := fun (dirs : List Nat) (t : Nat) (x : Fields) (s : State) =>
    (sheetOf t x.c s).st = .opened ∧ (sheetOf t x.c s).dir ∈ dirs ∧ sailNames (tileOf t s) x.c = false
  let clean := fun (t : Nat) (x : Fields) (s : State) =>
    ∀ i, i < x.imm → rangeClean (tileBase t + (sheetOf t x.c s).slot ((sheetOf t x.c s).read + i)) 64 s = true
  let source := fun (t : Nat) (x : Fields) (s : State) => (gReg (tileOf t s) x.a).toNat
  let popped := fun (t : Nat) (x : Fields) (s : State) =>
    modTile t (setG x.d (BitVec.ofNat 64 ((sheetOf t x.c s).slot (sheetOf t x.c s).read))) (modSheet t x.c (fun h => { h with read := h.read + x.imm }) s)
  let pops := fun (t : Nat) (x : Fields) (s : State) => opened [0, 2] t x s ∧ x.imm ≤ (sheetOf t x.c s).present ∧ clean t x s
  let pushes := fun (t : Nat) (x : Fields) (s : State) => opened [1, 2] t x s ∧ inTmem (source t x s) (64 * x.imm) = true ∧ source t x s % 64 = 0 ∧
    sailWillWrite t (source t x s) (64 * x.imm) s = false ∧
    (∀ r ∈ (sheetOf t x.c s).ranges (sheetOf t x.c s).write x.imm, sailWillRead t r.1 r.2 s = false ∧ sailWillWrite t r.1 r.2 s = false) ∧ x.imm ≤ (sheetOf t x.c s).credits ∧
    rangeClean (tileBase t + source t x s) (64 * x.imm) s = true
  let pushed := fun (t : Nat) (x : Fields) (s : State) => sheetPush t x.c (words64 x.imm (tileBytes t (source t x s) (64 * x.imm) s)) s
  rowGoes .tShpop 0xA4 pops popped ∧ rowGoes .tShpopnw 0xA5 pops popped ∧
  rowGoes .tShpush 0xA6 pushes pushed ∧ rowGoes .tShpushnw 0xA7 pushes pushed ∧
  rowGoes .tShmark 0xA8 (opened [0, 2]) (fun t x s => modSheet t x.c (fun h => { h with mark := h.read }) s) ∧
  rowGoes .tShrwd 0xA9 (fun t x s => opened [0, 2] t x s ∧ (sheetOf t x.c s).release ≤ (sheetOf t x.c s).mark)
    (fun t x s => modSheet t x.c (fun h => { h with read := h.mark }) s) ∧
  rowGoes .tShrel 0xAA (fun t x s => opened [0, 2] t x s ∧ (sheetOf t x.c s).release + x.imm ≤ (sheetOf t x.c s).read)
    (fun t x s => modSheet t x.c (fun h => { h with release := h.release + x.imm }) s) ∧
  rowGoes .tShrelr 0xAB (opened [0, 2]) (fun t x s => modSheet t x.c (fun h => { h with release := h.read }) s) ∧
  rowGoes .tShlvl 0xAC (opened [0, 1, 2])
    (fun t x s => modTile t (setG x.d (BitVec.ofNat 64 ((sheetOf t x.c s).write - (sheetOf t x.c s).read))) s) ∧
  rowGoes .tShcrd 0xAD (opened [0, 1, 2]) (fun t x s => modTile t (setG x.d
    (BitVec.ofNat 64 ((sheetOf t x.c s).depth - ((sheetOf t x.c s).write - (sheetOf t x.c s).release)))) s) ∧
  rowGoes .tShfill 0xAE (opened [0, 1, 2])
    (fun t x s => modSheet t x.c (fun h => { h with fill := (gReg (tileOf t s) x.a).toNat % 2048 }) s) ∧
  rowGoes .tShce 0xAF (opened [0, 1, 2])
    (fun t x s =>
      let s1 := modTile t (setG x.d (BitVec.ofNat 64 (sheetOf t x.c s).ce)) s
      if x.imm = 1 then modSheet t x.c (fun h => { h with ce := 0 }) s1 else s1) ∧
  (∀ t s, tileMeets 0xA5 t s = true → opened [0, 2] t (here t s) s → (sheetOf t (here t s).c s).present < (here t s).imm →
    answers (.tShpopnw t) s (tileFault t 0x03 (tileOf t s).pc s)) ∧
  (∀ t s, tileMeets 0xA4 t s = true → opened [0, 2] t (here t s) s → (sheetOf t (here t s).c s).present < (here t s).imm →
    answers (.tShpop t) s (modTile t (fun u => { u with stalled := true }) s)) ∧
  (∀ t s, tileMeets 0xAA t s = true → opened [0, 2] t (here t s) s →
    (sheetOf t (here t s).c s).read < (sheetOf t (here t s).c s).release + (here t s).imm →
    answers (.tShrel t) s (tileFault t 0x04 (tileOf t s).pc s)) ∧
  (∀ t s, tileMeets 0xA9 t s = true → opened [0, 2] t (here t s) s → (sheetOf t (here t s).c s).mark < (sheetOf t (here t s).c s).release →
    answers (.tShrwd t) s (tileFault t 0x05 (tileOf t s).pc s)) ∧
  (∀ t s, tileMeets 0xA4 t s = true → (sheetOf t (here t s).c s).st = .unconfigured →
    answers (.tShpop t) s (tileFault t 0x02 (tileOf t s).pc s))

/-- The Cleat and CSR rows and events (Tables 9.10, 9.13, 10.7, R230, R257 - R265): a signal adds at once to a tile-local Cleat and is
sent on its way to a global one; a wait goes on at its threshold and registers below it; a counter that would pass its end faults the
signalling tile, or overflows; CLSETs arrive before the signals of their cycle; a released wait issues. -/
def Obligations.CleatAndCsrRowsComplete : Prop :=
  let global := fun (x : Fields) => x.imm.testBit 12
  let idx := fun (t : Nat) (x : Fields) => if global x then x.imm % 4096 else 32 * t + x.imm % 4096
  let may := fun (full : Bool) (t : Nat) (x : Fields) (s : State) =>
    if global x then (if full then Tab.get (tileOf t s).gcl (idx t x) = some true else (Tab.get (tileOf t s).gcl (idx t x)).isSome = true)
    else (cleatOf false (idx t x) s).active = true ∧ (full = true → (cleatOf false (idx t x) s).full = true)
  let low := fun (t : Nat) (x : Fields) (s : State) => (gReg (tileOf t s) x.b).toNat % 2 ^ 32
  let added := fun (v : Nat) (c : Cleat) => releaseWaits { c with count := c.count + v }
  let sails := fun (u : Tile) (n : Nat) => (n = 3 ∨ n = 4) → u.queue = [] ∧ u.drain = none
  let reads := fun (t : Nat) (x : Fields) (s : State) =>
    if x.imm = 0 then BitVec.ofNat 64 (t + t / 64 * 2 ^ 7 + t % 64 / 8 * 2 ^ 8 + t % 8 * 2 ^ 11) else if x.imm = 1 then BitVec.ofNat 64 (devNum s)
    else if x.imm = 3 then (if (tileOf t s).satf then 1 else 0) else if x.imm = 4 then BitVec.ofNat 64 (tileOf t s).tmemCe
    else if x.imm = 5 then BitVec.ofNat 64 (tileOf t s).wdog else Tab.get (tileOf t s).args (x.imm - 16)
  rowGoes .tClsig 0xB4
    (fun t x s => may true t x s ∧ (global x = false → (cleatOf false (idx t x) s).ovf = false ∧
      (cleatOf false (idx t x) s).count + low t x s < 2 ^ 32))
    (fun t x s =>
      if global x then sendSig { glob := true, idx := idx t x, v := low t x s, src := some (t, (tileOf t s).pc, (tileOf t s).disp) } s
      else modCleat false (idx t x) (added (low t x s)) s) ∧
  (∀ t s, tileMeets 0xB4 t s = true → may true t (here t s) s → global (here t s) = false →
    (cleatOf false (idx t (here t s)) s).ovf = false → 2 ^ 32 ≤ (cleatOf false (idx t (here t s)) s).count + low t (here t s) s →
    answers (.tClsig t) s (tileFault t 0x07 (tileOf t s).pc s)) ∧
  rowGoes .tClwait 0xB5
    (fun t x s => may false t x s ∧ (cleatOf (global x) (idx t x) s).active = true ∧ low t x s ≤ (cleatOf (global x) (idx t x) s).count)
    (fun t _ s => dropWaits (.tile t) s) ∧
  (∀ t s, tileMeets 0xB5 t s = true → may false t (here t s) s →
    (cleatOf (global (here t s)) (idx t (here t s)) s).count < low t (here t s) s →
    waitReleased (.tile t) (cleatOf (global (here t s)) (idx t (here t s)) s) = false →
    answers (.tClwait t) s (modTile t (fun u => { u with stalled := true })
      (registerWait (global (here t s)) (idx t (here t s)) (.tile t) (low t (here t s) s) s))) ∧
  rowGoes .tClrd 0xB6 (may false)
    (fun t x s => modTile t (setG x.d (BitVec.ofNat 64 (cleatOf (global x) (idx t x) s).count)) s) ∧
  rowGoes .tClset 0xB7 (fun t x s => may true t x s ∧ (global x = false → (cleatOf false (idx t x) s).ovf = false))
    (fun t x s =>
      if global x then sendSig { glob := true, idx := idx t x, set := true, v := low t x s } s
      else modCleat false (idx t x) (fun c => releaseWaits { c with count := low t x s }) s) ∧
  rowGoes .tCsrr 0xC0 (fun t x s => x.imm ≠ 2 ∧ sails (tileOf t s) x.imm) (fun t x s => modTile t (setG x.d (reads t x s)) s) ∧
  rowGoes .tCsrr 0xC0 (fun _ x _ => x.imm = 2)
    (fun t x s => modTile t (setG x.d (Config.freeValue s.free)) { s with free := s.free + 1 }) ∧
  rowGoes .tCsrw 0xC1 (fun t x s => sails (tileOf t s) x.imm)
    (fun t x s => modTile t (fun u =>
      if x.imm = 3 then { u with satf := u.satf && (gReg u x.a).getLsbD 0 } else { u with tmemCe := 0 }) s) ∧
  (∀ m ms s, s.comp.sigs = m :: ms →
    let s1 : State := { s with comp := { s.comp with sigs := ms } }
    let c := cleatOf m.glob m.idx s
    (m.set = true → c.active = true → c.ovf = false →
      answers (.cleatSignal 1) s (modCleat m.glob m.idx (fun c => releaseWaits { c with count := m.v }) s1)) ∧
    (m.set = false → c.active = true → c.ovf = false → c.count + m.v < 2 ^ 32 →
      answers (.cleatSignal 1) s (modCleat m.glob m.idx (added m.v) s1)) ∧
    (m.set = false → m.src = none → c.active = true → c.ovf = false → 2 ^ 32 ≤ c.count + m.v →
      answers (.cleatSignal 1) s (raise (overflowSrc m.glob m.idx) (modCleat m.glob m.idx (fun c => { c with ovf := true }) s1))) ∧
    (∀ t pc d, m.set = false → m.src = some (t, pc, d) → (tileOf t s).disp = d → c.active = true → c.ovf = false → 2 ^ 32 ≤ c.count + m.v →
      answers (.cleatSignal 1) s (tileFault t 0x07 pc s1)) ∧
    (c.active = false ∨ c.ovf = true → answers (.cleatSignal 1) s s1)) ∧
  (∀ a b ms s, s.comp.sigs = a :: b :: ms → a.set = false → b.set = true →
    answers (.cleatSignal 2) s (sigArrive a (sigArrive b { s with comp := { s.comp with sigs := ms } }))) ∧
  (∀ t s, tileMeets 0xB5 t s = true → may false t (here t s) s → (cleatOf (global (here t s)) (idx t (here t s)) s).active = true →
    waitReleased (.tile t) (cleatOf (global (here t s)) (idx t (here t s)) s) = true →
    answers (.cleatWaitRelease false t) s (setPc t (onward (tileOf t s)) (dropWaits (.tile t) s))) ∧
  (∀ h s, (halOf h s).st = .waiting → (descHere h s).op = 7 →
    waitReleased (.halyard h) (cleatOf (descHere h s).glob (descHere h s).cleatIdx s) = true →
    answers (.cleatWaitRelease true h) s (halGo h ((halOf h s).idx + 1)
      { at_ := descAt h s, desc := rawRead (descAt h s) 32 s, done := true }
      (modHal h (fun u => { u with st := .running }) (dropWaits (.halyard h) s))))

/-- The descriptors of a Halyard (Tables 8.5 - 8.7, R214 - R219, R222): each that is met issues: END drains, a data descriptor goes in
flight, issues the reads it may, and a stream binds its Sheet, SIGNAL sends once nothing is in flight, WAIT goes on at its threshold and registers below it, LOOP
goes back to its body until COUNT. A descriptor that one of the checks answers faults the Halyard (from R704). -/
def Obligations.HalyardRowsComplete : Prop :=
  let flight := fun (h : Nat) (s : State) =>
    let d := descHere h s
    let data := decide (1 ≤ d.op) && decide (d.op ≤ 5)
    ({ at_ := descAt h s, desc := rawRead (descAt h s) 32 s, off := loopOff (halOf h s) s (halOf h s).loops,
       total := if data then d.n16 * d.n20 / 64 else 0, done := !data } : Flight)
  let issues := fun (c : Nat → Instr) (op : Nat) (pre : Nat → State → Prop) (post : Nat → State → State) =>
    ∀ h s, halMeets op h s = true → pre h s → answers (c h) s (post h s)
  let inFlight := fun (h : Nat) (f : Flight) (s : State) => askReads h (halOf h s).flights.length 512 (modHal h (fun u =>
    { u with idx := u.idx + 1, nextSeq := u.nextSeq + 1, flights := u.flights ++ [{ f with seq := u.nextSeq }] }) s)
  let flies := fun (h : Nat) (s : State) => inFlight h (flight h s) s
  let binds := fun (h : Nat) (s : State) => modSheet (descHere h s).tile (descHere h s).sheet
    (fun x => if x.bound = none then { x with bound := some h, resv := x.write } else x) s
  let streams := fun (h : Nat) (s : State) => inFlight h (flight h s) (binds h s)
  let goes := fun (h : Nat) (s0 s : State) => halGo h ((halOf h s0).idx + 1) (flight h s0) s
  let reached := fun (h : Nat) (s : State) => (cleatOf (descHere h s).glob (descHere h s).cleatIdx s).active = true ∧
    (descHere h s).n16 ≤ (cleatOf (descHere h s).glob (descHere h s).cleatIdx s).count
  let always := fun (_ : Nat) (_ : State) => True
  issues .hHalyardEnd 0 always (fun h s => retireAll h (modHal h (fun u =>
    { u with st := .draining, flights := if (descHere h s).flags.testBit 0 then u.flights ++ [flight h s] else u.flights }) s)) ∧
  issues .hStreamIn 1 always streams ∧ issues .hStreamOut 2 always streams ∧
  issues .hTileIn 3 always flies ∧ issues .hTileOut 4 always flies ∧ issues .hCopy 5 always flies ∧
  issues .hSignal 6 (fun h s => (halOf h s).flights = [])
    (fun h s => goes h s (sendSig { glob := (descHere h s).glob, idx := (descHere h s).cleatIdx, v := (descHere h s).n16 } s)) ∧
  issues .hSignal 6 (fun h s => (halOf h s).flights ≠ []) (fun _ s => s) ∧
  issues .hWait 7 reached (fun h s => goes h s s) ∧
  issues .hWait 7 (fun h s => ¬ reached h s) (fun h s =>
    registerWait (descHere h s).glob (descHere h s).cleatIdx (.halyard h) (descHere h s).n16 (modHal h (fun u => { u with st := .waiting }) s)) ∧
  issues .hLoop 8 (fun h s => (∀ p ∈ (halOf h s).loops.head?, p.1 ≠ (halOf h s).idx) ∧ 1 < (descHere h s).n16) (fun h s =>
    modHal h (fun v => { v with loops := ((halOf h s).idx, 1) :: (halOf h s).loops, idx := (halOf h s).idx - (descHere h s).n20 }) s) ∧
  (∀ h s m r, halMeets 8 h s = true → (halOf h s).loops = ((halOf h s).idx, m) :: r →
    (m + 1 < (descHere h s).n16 → answers (.hLoop h) s
      (modHal h (fun v => { v with loops := ((halOf h s).idx, m + 1) :: r, idx := (halOf h s).idx - (descHere h s).n20 }) s)) ∧
    ((descHere h s).n16 ≤ m + 1 → answers (.hLoop h) s (goes h s (modHal h (fun v => { v with loops := r }) s)))) ∧
  (∀ h s code, (halOf h s).st = .running → halRuns h s = true → (halOf h s).idx < (halOf h s).len → rangeClean (descAt h s) 32 s = true →
    (descHere h s).op = 4 → ((halOf h s).flights.filter (fun f => !f.done)).length < 8 → (halOf h s).flights = [] →
    descFault h (halOf h s).idx (descHere h s) s = some code → answers (.hTileOut h) s (halFault h code (descAt h s) s)) ∧
  (∀ h s, (halOf h s).st = .running → halRuns h s = true → (halOf h s).len ≤ (halOf h s).idx →
    answers (.hHalyardEnd h) s (halFault h 0x02 (descAt h s) s))

/-- Words move and descriptors complete (from R215, R217, R218, R220, R222, Table 8.8), after the upsets that have come to memory meanwhile
(R201, R307) and after the reads that the flight may issue: a stream in pushes a word it has reserved a slot for, a stream out takes the
oldest word, the tile and COPY forms move between tile memory, the local map and the other device, to which a word goes as one WRITE of 64
bytes on the connection bound for it; a source that fails faults the Halyard with its code and its descriptor's address; a descriptor whose
writes are all visible is complete. -/
def Obligations.HalyardWordsMove : Prop :=
  (∀ h k ups f s0, halRuns h (strike ups s0) = true → (halOf h (strike ups s0)).st ≠ .idle → (halOf h (strike ups s0)).st ≠ .fault →
    let s := askReads h k 512 (strike ups s0)
    (halOf h s).flights[k]? = some f → f.done = false → f.moved < f.total →
    let d := descOf f.desc
    let a := d.wordAddr f.off f.moved
    let b := d.wordDest f.off f.moved
    let x := sheetOf d.tile d.sheet s
    let here_ := fun (a : Int) => devOf a = devNum s
    let local_ := fun (a : Int) => bitsN a.toNat 0 45
    let goes := fun (t : State) => answers (.halyardReadData h k ups) s0 (endDispatches t)
    let counted := fun (seen : Nat) (t : State) => modHal h (fun u => { u with flights := u.flights.modify k (fun f =>
      { f with moved := f.moved + 1, acked := f.acked + seen, got := f.got.filter (fun g => g.1 ≠ f.moved) }) }) t
    let comes := fun (w : List Byte) (t : State) =>
      (here_ a ∧ rangeRuns (local_ a) 64 s = true ∧ rangeClean (local_ a) 64 s = true ∧ w = rawRead (local_ a) 64 s ∧ t = readUse (local_ a) 64 s) ∨
      (¬ here_ a ∧ ∃ n v, f.got.find? (fun g => g.1 = f.moved) = some (n, v, 0) ∧ w = padTo 64 (v.take 64) ∧ t = s)
    let leaves := fun (a : Int) (w : List Byte) (t : State) =>
      if here_ a then counted 1 (outReleased f (memWrite (local_ a) w t))
      else
        let u := counted 0 t
        clientPost (.halyard h f.seq f.moved true) ((((halOf h u).conns.find? (fun c => c.1 = devOf a)).map (·.2)).getD 0)
          { id := 0, kind := 2, addr := local_ a, len := 64, data := w } u
    let turn := x.st = .opened ∧ sheetEarlier (halOf h s) k d (fun g => g.moved) = false
    (d.op = 1 → turn → f.moved < f.asked → ∀ w t, comes w t → goes (counted 1 (sheetPush d.tile d.sheet [w] t))) ∧
    (d.op = 2 → turn → 0 < x.present → wordOutRuns f a s = true → rangeClean (tileBase d.tile + x.slot x.read) 64 s = true →
      goes (leaves a (tileBytes d.tile (x.slot x.read) 64 s) (modSheet d.tile d.sheet (fun x => { x with read := x.read + 1 }) s))) ∧
    (d.op = 3 → f.moved < f.asked → ∀ w t, comes w t → goes (counted 1 (memWrite (tileBase d.tile + 64 * (d.toff + f.moved)) w t))) ∧
    (d.op = 4 → wordOutRuns f a s = true → rangeClean (tileBase d.tile + 64 * (d.toff + f.moved)) 64 s = true →
      goes (leaves a (tileBytes d.tile (64 * (d.toff + f.moved)) 64 s) s)) ∧
    (d.op = 5 → f.moved < f.asked → wordOutRuns f b s = true → ∀ w t, comes w t → goes (leaves b w t)) ∧
    (d.op = 3 ∨ (d.op = 5 ∧ wordOutRuns f b s = true) ∨ (d.op = 1 ∧ turn) → f.moved < f.asked → ¬ here_ a →
      (∀ n v c, f.got.find? (fun g => g.1 = f.moved) = some (n, v, c) → c ≠ 0 → goes (halFault h c f.at_ s)) ∧
      (f.got.find? (fun g => g.1 = f.moved) = none → goes s)) ∧
    (d.op = 1 ∨ d.op = 3 ∨ d.op = 5 → f.asked ≤ f.moved → goes s)) ∧
  (∀ h k f s, (halOf h s).flights[k]? = some f → halRuns h s = true → f.total ≤ f.acked →
    answers (.descriptorComplete h k) s
      (endDispatches (retireAll h (modHal h (fun u => { u with flights := u.flights.set k { f with done := true } }) s)))) ∧
  (∀ h f r s, (halOf h s).flights = f :: r → f.done = true → ∀ n,
    retire h (n + 1) s = retire h n (
      let s1 := modHal h (fun u => { u with flights := r }) s
      if f.void then modHal h (fun u => { u with mute := true }) s1
      else if (descOf f.desc).flags.testBit 0 && !(halOf h s).mute then
        sendSig { glob := (descOf f.desc).glob, idx := (descOf f.desc).cleatIdx, v := 1 } s1
      else s1)) ∧
  (∀ h f r s, (halOf h s).flights = f :: r → f.done = false → retireAll h s = s) ∧
  (∀ h s, (halOf h s).flights = [] → (halOf h s).st = .draining →
    retireAll h s = modHal h (fun u => { u with st := .idle, loops := [] }) s) ∧
  (∀ s, (∀ d ∈ s.srv.dispatches, d.2.ending = false) → endDispatches s = s)

/-! ### Serving and memory -/

/-- The events of the serving path (from R26, R174, R175, R178, R221, R263, R266, R272, R280 - R286, R523): a deadline marks its request, a
request that may decode starts, a bind starts the next kernel of a step, a dispatch whose tiles and Halyards are done ends its entry, a
fault fails its batch, and the last entry's end is a step boundary for every slot. -/
def Obligations.ServingEventsComplete : Prop :=
  (∀ c r s, mhRuns s = true → (ctxOf c s).req = some r → r.deadline ≠ 0 →
    acts (.submitDeadline c) s (boundary c (modReq c (fun r => { r with due := true }) s))) ∧
  (∀ c o s, mhRuns s = true → (ctxOf c s).req = none →
    s.host.cmds.find? (fun o => o.prog = .queued && o.cmd.op = 0x0401 && fieldN (payloadOf o.cmd) 0 2 = c && fieldN (payloadOf o.cmd) 32 4 ≠ 0) = some o →
    acts (.submitDeadline c) s (finish (o.cmd.mb, o.id) .timedout 0 [] s)) ∧
  (∀ c r s, (ctxOf c s).req = some r → r.inStep = false → (ctxOf c s).evacuated = false →
    (r.cancelled = true → boundaryEnd c s = endReq c .ok 0 3 s) ∧
    (r.cancelled = false → frameBad r s = true → boundaryEnd c s = endReq c .fault 0x0601 0 s) ∧
    (r.cancelled = false → frameBad r s = false → r.due = true →
      boundaryEnd c s = if 0 < r.out then endReq c .ok 0 2 s else endReq c .timedout 0 0 s) ∧
    (r.cancelled = false → frameBad r s = false → r.due = false → boundaryEnd c s = s)) ∧
  (∀ c r s, mhRuns s = true → (ctxOf c s).req = some r → r.inStep = false → r.decoding = false →
    kvReady (ctxOf c s).toks.length 0 (ctxOf c s).blocks = true →
    acts (.decodeStart c) s (modReq c (fun r => { r with decoding := true }) s)) ∧
  (∀ b k s, mhRuns s = true → b.batch = some k →
    let x := batchOf k s
    let m := modelOf x.model s
    let p := (planOf m x.decode).getD x.pos (0, 0)
    let d := newDispatch s
    x.live = true → x.cur = none → x.pos < (planOf m x.decode).length → choiceOk m (kernAt m p.2) x.slots b s = true →
    let e := bindEnv m p x.slots b s
    let s1 := (e.readCode s).2
    ((e.readCode s).1 = true → acts (.dispatchBind b) s (failBatch k 0x0207 s1)) ∧
    ((e.readCode s).1 = false →
      (∀ y, prepare e s1 = .ok y →
        acts (.dispatchBind b) s (startDispatch d k (tileDie (b.tiles.getD 0 0)) b.area y (modBatch k (fun x => { x with cur := some d }) s1))) ∧
      (∀ n, prepare e s1 = .error n → acts (.dispatchBind b) s (failBatch k n s1)))) ∧
  (∀ b s, mhRuns s = true → b.batch = none → batchOk b s = true →
    let m := modelOf b.model s
    let slots := b.slots.map (fun t => t.map (fun t => slotFor b.decode t.1 t.2 s))
    let k := (freeIdx s.srv.batches (fun x => x.live) 4096).getD 4096
    choiceOk m (kernAt m ((planOf m b.decode).getD 0 (0, 0)).2) slots b s = true →
    acts (.dispatchBind b) s (bindNext k b ((slots.filterMap id).foldl (fun s t => modReq t.ctx (fun r => { r with inStep := true }) s)
      { s with srv := { s.srv with
        batches := Tab.put s.srv.batches k { live := true, model := b.model, decode := b.decode, slots := slots }
        steps := s.srv.steps + 1 } }))) ∧
  (∀ d s, mhRuns s = true → (dispOf d s).live = true → (dispOf d s).ending = false →
    ((∀ t ∈ (dispOf d s).tiles, (tileOf t s).st = .loaded) → (∀ h ∈ (dispOf d s).hals, (halOf h s).st = .idle) →
      let outs := (List.range (batchOf (dispOf d s).batch s).slots.length).map (fun i => leNat (rawRead ((dispOf d s).info + 32 * i + 16) 4 s))
      acts (.dispatchEnd d) s
        (modBatch (dispOf d s).batch (fun b => { b with pos := b.pos + 1, cur := none, outs := outs }) (freeDispatch d s))) ∧
    (∀ t, (dispOf d s).tiles.find? (fun t => decide ((tileOf t s).st = .faulted)) = some t →
      acts (.dispatchHalt d) s (failBatch (dispOf d s).batch (0x0100 + (tileOf t s).fault) s)) ∧
    ((∀ t ∈ (dispOf d s).tiles, (tileOf t s).st ≠ .faulted) →
      ∀ h, (dispOf d s).hals.find? (fun h => decide ((halOf h s).st = .fault)) = some h →
      acts (.dispatchHalt d) s (failBatch (dispOf d s).batch (0x0200 + (halOf h s).code) s)) ∧
    ((∀ t ∈ (dispOf d s).tiles, (tileOf t s).st = .loaded) →
      ∀ h, (dispOf d s).hals.find? (fun h => decide ((halOf h s).st ≠ .idle)) = some h →
      acts (.halyardDrainLimit d) s (failBatch (dispOf d s).batch (0x0500 + h) s))) ∧
  (∀ k s, mhRuns s = true → (batchOf k s).live = true → (batchOf k s).cur = none →
    (planOf (modelOf (batchOf k s).model s) (batchOf k s).decode).length ≤ (batchOf k s).pos →
    acts (.stepBoundary k) s (furlSettle ((List.range (batchOf k s).slots.length).foldl (fun u i =>
      match (batchOf k s).slots.getD i none with
      | none => u
      | some t => boundary t.ctx (if (batchOf k s).decode then decodeDone t ((batchOf k s).outs.getD i 0) u else prefillDone t u)) (dropBatch k s))))

/-- The events of the memories and of BAR2 (from R307 - R313, R317, R319, R453, Table 13.2): a queued write-back leaves a corrected word clean and
stays out of a poisoned one, refresh changes nothing, the scrubber corrects, poisons and reports in every memory it walks, and BAR2 reads,
after the upsets that have come meanwhile, and writes the bytes that the function owns. -/
def Obligations.MemoryEventsComplete : Prop :=
  (∀ w s, halted s = false → wordOf w ∈ s.mem.writeBack → memRuns (wordOf w) s = true →
    let kept := s.mem.writeBack.filter (fun x => decide (x ≠ wordOf w))
    (Tab.get s.mem.ecc (wordOf w) = .correctable →
      acts (.hbmWriteBack w) s { s with mem := { s.mem with writeBack := kept, ecc := Tab.put s.mem.ecc (wordOf w) .clean } }) ∧
    (Tab.get s.mem.ecc (wordOf w) ≠ .correctable → acts (.hbmWriteBack w) s { s with mem := { s.mem with writeBack := kept } })) ∧
  (∀ w s, halted s = false → memRuns (wordOf w) s = false → acts (.hbmWriteBack w) s s) ∧
  (∀ k s, answers (.hbmRefresh k) s s) ∧
  (∀ w s, halted s = false → (inHbm w = true ∨ inMast 0 w = true ∨ inMast 1 w = true ∨ inStaging w = true) → w % eccUnit w = 0 →
    memRuns w s = true → w ∉ s.mem.writeBack →
    let fixed := if inHbm w then 0x0C0 + hbmStack w else if inStaging w then 0x0E0 else if inMast 1 w then 0x0D9 else 0x0D8
    let lost := if inHbm w then 0x0C8 + hbmStack w else if inStaging w then 0x0E1 else if inMast 1 w then 0x0DB else 0x0DA
    let put := fun (e : Ecc) => ({ s with mem := { s.mem with ecc := Tab.put s.mem.ecc w e } } : State)
    let queued := fun (e : Ecc) => ({ s with mem := { s.mem with ecc := Tab.put s.mem.ecc w e, writeBack := s.mem.writeBack ++ [w] } } : State)
    (Tab.get s.mem.ecc w = .clean → acts (.hbmScrub w .none) s s ∧
      (Tab.get (put .correctable).mem.ecc w = .correctable →
        acts (.hbmScrub w .oneSymbol) s (raise fixed (queued .correctable)))) ∧
    (Tab.get s.mem.ecc w = .correctable → ∀ u, acts (.hbmScrub w u) s
      (raise fixed { s with mem := { s.mem with writeBack := s.mem.writeBack ++ [w] } })) ∧
    (Tab.get s.mem.ecc w = .uncorrectable → ∀ u, acts (.hbmScrub w u) s (raise lost (queued .poisoned))) ∧
    (Tab.get s.mem.ecc w = .poisoned → ∀ u, acts (.hbmScrub w u) s (raise lost s))) ∧
  (∀ fn off n ups s0, let s := strike ups s0
    barDecoded fn s = true →
    let a := (Tab.get s.pcie.fns fn).localBase + off
    rangeRuns a n s = true →
    (bar2Served s = false → acts (.bar2Read fn off ⟨n, ups⟩) s0 (emit (.bar2 (List.replicate n 0) false) s)) ∧
    (bar2Served s = true → ownsBytes fn a n s = false →
      acts (.bar2Read fn off ⟨n, ups⟩) s0 (emit (.bar2 (List.replicate n 0) false) (modView fn (fun v => { v with accUnmapped := true }) s))) ∧
    (bar2Served s = true → ownsBytes fn a n s = true →
      (∀ bs, (memRead a n s).1 = some bs → acts (.bar2Read fn off ⟨n, ups⟩) s0 (emit (.bar2 bs false) (memRead a n s).2)) ∧
      ((memRead a n s).1 = none → acts (.bar2Read fn off ⟨n, ups⟩) s0 (emit (.bar2 (List.replicate n 0xFF) true) (memRead a n s).2)) ∧
      (rangeClean a n s = true → memRead a n s = (some (rawRead a n s), s)))) ∧
  (∀ fn off bs s, barDecoded fn s = true →
    let a := (Tab.get s.pcie.fns fn).localBase + off
    (bar2Served s = false → acts (.bar2Write fn off bs) s s) ∧
    (bar2Served s = true → rangeRuns a bs.length s = true →
      (ownsBytes fn a bs.length s = false → acts (.bar2Write fn off bs) s (modView fn (fun v => { v with accUnmapped := true }) s)) ∧
      (ownsBytes fn a bs.length s = true →
        let kept := (badWords a bs.length s.mem).filter (fun w => Tab.get s.mem.ecc w = .poisoned && !covers a bs.length w)
        acts (.bar2Write fn off bs) s (memWrite a bs (occur (kept.map (fun w => 0x0D0 + hbmStack w)) s))))) ∧
  (∀ fn bar s, barDecoded fn s = true → bar = 0 ∨ bar = 2 ∨ bar = 4 →
    acts (.poisonedWriteRx fn bar) s (raise 0x13D (modPcieFn fn (fun p => { p with poisonLogged := true }) s)))

/-! ### Furl -/

/-- Lookups at the home (Table 14.3, R326 - R331, R333, R340): a member's lookup of a block that is READY is answered HIT and holds it, a
mismatch COLLISION, one that is being built WAIT with a waiter's record, one that is not listed CLAIM in a free way of its set or in the
place of a READY block that nobody holds, and UNAVAIL without an offer. -/
def Obligations.FurlLookupsComplete : Prop :=
  ∀ src key parent tag pdom toks ctx offer s, mhRuns s = true → activeMember src s = true → s.dev.mode ≠ .quarantine →
    let lookup := fun mode t => acts (.furlLookup src key parent tag pdom toks ctx offer mode) s (furlSettle t)
    let say := fun (code : Nat) (d : DirEntry) (n : Nat) (s : State) => furlSend src (.answer key code d.locDev d.nvme d.locAddr d.child n) s
    (∀ e, findEntry key s = some e →
      let d := dirOf e s
      let held := modDir e (fun d => { d with holders := setBit d.holders src true }) s
      let same := d.tag = tag ∧ d.pdom = pdom ∧ d.parent = parent ∧ d.toks = toks
      (¬ same → lookup 0 (say 3 d 0 s)) ∧
      (same → d.st = .ready ∨ d.st = .moving → lookup 0 (say 0 d 0 (useSlot key held))) ∧
      (same → d.st ≠ .ready → d.st ≠ .moving → offer = 0 → lookup 0 (say 4 d 0 s)) ∧
      (same → d.st = .evicting → offer ≠ 0 → lookup 0 (say 5 d 0 s)) ∧
      (same → d.st = .building → offer ≠ 0 → 65536 ≤ s.furl.waiters.length → lookup 0 (say 4 d 0 s)) ∧
      (same → d.st = .building → offer ≠ 0 → s.furl.waiters.length < 65536 →
        lookup 0 (say 1 d 0 (modFurl (fun u => { u with waiters := u.waiters ++ [{ dev := src, ctx := ctx, entry := e }] }) held))) ∧
      (d.st = .ready ∨ d.st = .moving → d.tag = tag → d.pdom = pdom → d.parent = parent → 8 ≤ leading d.toks toks →
        lookup 1 (say 0 d (leading d.toks toks) (useSlot key held)))) ∧
    (findEntry key s = none →
      let fresh : DirEntry :=
        { st := .building, key := key, parent := parent, tag := tag, pdom := pdom, locDev := src, locAddr := offer, builderDev := src,
          builderCtx := ctx, lease := s.time.mono / 1000000, holders := setBit 0 src true, toks := toks }
      let freeWay := firstIdx (fun e => decide ((dirOf e s).st = .free)) (8 * setOf key) 8
      let idleWay := firstIdx (fun e => decide ((dirOf e s).st = .ready) && decide ((dirOf e s).holders = 0)) (8 * setOf key) 8
      (offer = 0 → lookup 0 (say 4 {} 0 s)) ∧
      (∀ e, offer ≠ 0 → freeWay = some e → lookup 0 (say 2 fresh 0 (modDir e (fun _ => fresh) s))) ∧
      (∀ e, offer ≠ 0 → freeWay = none → idleWay = some e →
        lookup 0 (say 2 fresh 0 (modDir e (fun _ => fresh) (freeEntry e s)))) ∧
      (offer ≠ 0 → freeWay = none → idleWay = none → lookup 0 (say 4 {} 0 s)))

/-- The other messages at the home, and its leases (from R334 - R338, R343 - R345, R349, R471, Table 14.5): holder bits go, claims pass on or
are renewed, a published block is READY and told to its waiters and to its parent's home, eviction, restore and their ends move the
entry on, and who waits for a block that is gone learns it. -/
def Obligations.FurlHomeEventsComplete : Prop :=
  (∀ src key e s, mhRuns s = true → activeMember src s = true → s.dev.mode ≠ .quarantine → findEntry key s = some e →
    let d := dirOf e s
    let left := fun t => if (dirOf e t).st = .building && !buildsOrWaits e src t then clearHolder e src t else t
    acts (.furlUnhold src key) s (furlSettle (clearHolder e src s)) ∧
    (∀ ctx, d.st = .building → d.builderDev = src → d.builderCtx = ctx → acts (.furlAbandon src key ctx) s (furlSettle (left (passClaim e s)))) ∧
    (∀ ctx, d.st = .building → d.builderDev ≠ src →
      acts (.furlAbandon src key ctx) s (furlSettle (left (modFurl (fun u =>
        { u with waiters := u.waiters.filter (fun w => !decide (w = { dev := src, ctx := ctx, entry := e })) }) s)))) ∧
    (d.st = .building → d.builderDev = src →
      acts (.furlRenew src [key]) s (furlSettle (modDir e (fun d => { d with lease := s.time.mono / 1000000 }) s))) ∧
    (d.st = .building → d.builderDev = src →
      let told := sendEach (.notify key 0 d.locDev d.locAddr 0) ((waitersOf e s).map (·.dev))
        (dropWaitersOf e (modDir e (fun d => { d with st := .ready, builderDev := 0xFFFF, builderCtx := 0 }) s))
      acts (.furlPublish src key) s (furlSettle (if d.parent = 0 then told else furlSend (homeOf d.parent) (.child d.parent key) told))) ∧
    (∀ child, acts (.furlChild key child) s (furlSettle (modDir e (fun d => { d with child := child }) s))) ∧
    (∀ op, op = 0 ∨ op = 1 → d.st = .ready → d.holders = 0 → d.locDev = src → (op = 1 → d.nvme = false) →
      acts (.furlEvict src key op) s (furlSettle (furlSend src (.evictAck key op true)
        (modDir e (fun d => if op = 1 then { d with st := .moving, restoring := false } else { d with st := .evicting }) s)))) ∧
    (d.holders ≠ 0 → acts (.furlEvict src key 0) s (furlSettle (furlSend src (.evictAck key 0 false) s))) ∧
    (d.locDev = src →
      let told := sendEach (.notify key 3 src 0 0) (d.askers ++ (waitersOf e s).map (·.dev))
        (dropWaitersOf e (modDir e (fun d => { d with st := .evicting, restoring := false, askers := [], lost := true }) s))
      acts (.furlEvict src key 2) s (furlSettle (if d.holders = 0 then furlSend src (.evictAck key 0 true) told else told))) ∧
    (d.st = .ready → d.nvme = true → acts (.furlRestore src key false) s (furlSettle (furlSend d.locDev (.restoreOwn key)
      (modDir e (fun d => { d with st := .moving, restoring := true, askers := [src] }) s)))) ∧
    (d.st = .ready → d.nvme = false →
      acts (.furlRestore src key false) s (furlSettle (furlSend src (.notify key 0 d.locDev d.locAddr 0) s))) ∧
    (d.st = .moving → d.restoring = true →
      acts (.furlRestore src key false) s (furlSettle (modDir e (fun d => { d with askers := d.askers ++ [src] }) s))) ∧
    (d.st = .evicting ∨ d.st = .building → acts (.furlRestore src key false) s (furlSettle (furlSend src (.notify key 3 d.locDev 0 0) s))) ∧
    (∀ nv loc, d.st = .moving → d.locDev = src → d.restoring = true → acts (.furlMoved src key nv loc) s
      (furlSettle (sendEach (.notify key (if nv then 3 else 0) src loc 0) d.askers
        (modDir e (fun d => { d with st := .ready, restoring := false, nvme := nv, locAddr := loc, askers := [] }) s)))) ∧
    (∀ loc, d.st = .moving → d.locDev = src → d.restoring = false → d.holders = 0 → acts (.furlMoved src key true loc) s
      (furlSettle (furlSend src (.evictAck key 3 true) (modDir e (fun d => { d with st := .ready, nvme := true, locAddr := loc }) s)))) ∧
    (∀ loc, d.st = .moving → d.locDev = src → d.restoring = false → d.holders ≠ 0 → acts (.furlMoved src key true loc) s
      (furlSettle (furlSend src (.evictAck key 3 false) (modDir e (fun d => { d with st := .ready }) s)))) ∧
    (∀ nv loc, d.st = .evicting → d.locDev = src → d.lost = false ∨ d.holders = 0 → acts (.furlMoved src key nv loc) s (furlSettle (modDir e (fun _ => {}) s))) ∧
    (∀ nv loc, d.st = .evicting → d.lost = true → d.holders ≠ 0 → acts (.furlMoved src key nv loc) s (furlSettle s)) ∧
    (∀ nv loc, d.st = .building → d.builderDev = src → locUp d.locDev s = true → acts (.furlMoved src key nv loc) s (furlSettle s)) ∧
    (∀ nv loc, d.st = .building → d.builderDev = src → locUp d.locDev s = false → acts (.furlMoved src key nv loc) s
      (furlSettle (sendEach (.notify key 2 src loc 0) ((waitersOf e s).map (·.dev)) (modDir e (fun d => { d with locDev := src, locAddr := loc }) s))))) ∧
  (∀ e s, mhRuns s = true → (dirOf e s).st = .building → (dirOf e s).lease + 500 ≤ s.time.mono / 1000000 →
    acts (.furlLeaseExpiry e) s (furlSettle (passClaim e (raise 0x139 (countFurl 11 s))))) ∧
  (∀ e w ws s, waitersOf e s = w :: ws →
    passClaim e s = furlSend w.dev (.notify (dirOf e s).key 1 (if locUp (dirOf e s).locDev s then (dirOf e s).locDev else 0xFFFF) (dirOf e s).locAddr w.ctx)
      (modDir e (fun d => { d with builderDev := w.dev, builderCtx := w.ctx, lease := s.time.mono / 1000000 })
        (countFurl 10 (modFurl (fun u => { u with waiters := u.waiters.filter (fun x => !decide (x = w)) }) s)))) ∧
  (∀ e s, waitersOf e s = [] → passClaim e s =
    furlSend (dirOf e s).locDev (.evictAck (dirOf e s).key 4 true) (dropWaitersOf e (modDir e (fun _ => {}) s)))

/-- Furl at the requester and at the owner of a pool (from R19 - R25, R328, R330, R334 - R337, R343 - R347, R352): the answer to the oldest
lookup of its key, of whichever kind (after the upsets that have come to the memory a copy reads), after which an UNHOLD that waited for it
goes out, notifications, renewals, grants of eviction, restores, orphan holds and the start of eviction. -/
def Obligations.FurlRequesterAndOwnerEventsComplete : Prop :=
  (∀ src key code dev nv loc child n ups a s1, mhRuns s1 = true →
    let s := strike ups s1
    activeMember src s = true → s.dev.mode ≠ .quarantine → rmuGone s = false →
    s.furl.asked.find? (fun a => decide (a.key = key)) = some a →
    let r : Ans := { code := code, dev := dev, nvme := nv, addr := loc, child := child, n := n }
    let s0 := modFurl (fun u => { u with asked := u.asked.erase a }) s
    let s1 := if a.mode = 1 ∨ a.mode = 3 then s0 else countAnswer code s0
    let s2 := if a.offer = 0 then s1 else if code = 2 then modSlot a.offer (fun x => { x with key := key }) s1 else freeSlot a.offer s1
    let ends := fun (t : State) => acts (.furlAnswer src key code dev nv loc child n ups) s1 (furlSettle
      (if t.furl.owed.contains key && !t.furl.asked.any (fun x => decide (x.key = key) && decide (x.mode ≠ 3)) then
        unholdIfNone key (modFurl (fun u => { u with owed := u.owed.filter (fun k => decide (k ≠ key)) }) t) else t))
    (a.dead = false → a.mode = 0 → ends (answerLookup a r s2)) ∧
    (a.dead = false → a.mode = 1 → ends (answerCompare a r s2)) ∧
    (a.dead = false → a.mode = 2 → ends (answerDecode a r s2)) ∧
    (a.mode = 3 → ends (answerProbe a r s2)) ∧
    (a.dead = true → a.mode ≠ 3 → ends (if code ≤ 2 then unholdIfNone key s2 else s2)) ∧
    (code = 2 → answerLookup a r s2 =
      modBlk a.ctx a.blk (fun b => { b with kind := .building, dev := devNum s2, addr := slotAddr a.offer, done := 0 }) (holdRef a.key s2)) ∧
    (3 ≤ code → answerLookup a r s2 = modBlk a.ctx a.blk (fun b => { b with kind := .priv, done := 0 }) s2)) ∧
  (∀ src key dev loc ctx s, mhRuns s = true → activeMember src s = true → s.dev.mode ≠ .quarantine →
    acts (.furlNotify src key 0 dev loc ctx) s (furlSettle (notifyReady key dev loc s)) ∧
    acts (.furlNotify src key 1 dev loc ctx) s (furlSettle (notifyClaim key dev loc ctx s)) ∧
    acts (.furlNotify src key 2 dev loc ctx) s (furlSettle (notifyRelocate key dev loc s)) ∧
    acts (.furlNotify src key 3 dev loc ctx) s (furlSettle (notifyFailed key s))) ∧
  (∀ s, mhRuns s = true →
    let keys := (s.srv.ctxs.flatMap (fun c => (c.2.blocks.filter (fun b => decide (b.kind = .building))).map (·.key))).eraseDups
    acts .furlRenewTimer s (furlSettle ((keys.map homeOf).eraseDups.foldl (fun s h =>
      furlSend h (.renew (keys.filter (fun k => decide (homeOf k = h)))) s) s))) ∧
  (∀ src key s, mhRuns s = true → activeMember src s = true → s.dev.mode ≠ .quarantine →
    acts (.furlEvictAck src key 0 true) s (furlSettle (evictNext (furlSend src (.moved key false 0) (countFurl 12 (dropCopies key s))))) ∧
    acts (.furlEvictAck src key 0 false) s (furlSettle (evictNext s)) ∧
    acts (.furlEvictAck src key 1 true) s (furlSettle (startSpill key s)) ∧
    (∀ p, slotOfKey key s = some p → acts (.furlEvictAck src key 3 true) s (furlSettle (evictNext (freeSlot p s)))) ∧
    acts (.furlEvictAck src key 4 true) s (furlSettle (dropCopies key s)) ∧
    (∀ p s1, let x := Tab.get s.furl.spilled key
      x.live = true → x.restoreTo = none → driveUp x.drive s = true → reserveSlot x.pdom x.tag x.bytes s = (some p, s1) →
      acts (.furlRestore src key true) s (furlSettle (nvSubmit x.drive .read (.restore key) x.lba (lbasOf x.bytes) (slotAddr p)
        (modSpilled key (fun x => { x with restoreTo := some p }) s1)))) ∧
    ((Tab.get s.furl.spilled key).live = false → orphanOfKey key s = none → locUp (homeOf key) s = true →
      acts (.furlRestore src key true) s (furlSettle (reportLost key s))) ∧
    (∀ p, orphanOfKey key s = some p → acts (.furlOrphanHold src key true) s
      (furlSettle (modSlot p (fun x => { x with orphaned := true, orphans := setBit x.orphans src true }) s))) ∧
    (∀ p, orphanOfKey key s = none → slotOfKey key s = some p → acts (.furlOrphanHold src key true) s
      (furlSettle (modSlot p (fun x => { x with orphaned := true, orphans := setBit x.orphans src true }) s)))) ∧
  (∀ s, mhRuns s = true → useAtLeast s.furl.highPct s = true → s.furl.evicting = false → s.furl.purging = [] →
    (evictNext (modFurl (fun u => { u with evicting := true }) s)).furl.purging = [] →
    acts .furlEvictionStart s (furlSettle (evictNext (modFurl (fun u => { u with evicting := true }) s))))

/-! ### Frame and Reef -/

/-- The Frame engine's events (from R506, R507, R511 - R515, R520, R527, R529): a free unit takes the oldest queued frame of the next context in
rotation; a begun raw or coded frame ends with its patches written and its FSTAT, a frame whose source cannot be read, or decoded, ends with ERROR,
and a picture encoded, its blocks at the QPs that its regions of interest give, goes to the ring or, without room, is dropped; the time
before a context's first picture is a free value (log entry 57). -/
def Obligations.FrameEventsComplete : Prop :=
  (∀ s i n, frameRuns s = true →
    let able := fun (i : Nat) =>
      let f := (s.frame.rot + 1 + i) % 256
      (oldestQueued f s).isSome && !anySlot f (fun t => decide (t = .begun)) s &&
        (if (fctxOf f s).source = 0 then decide (begunCount true s < 2) else decide (begunCount false s < 4))
    let f := (s.frame.rot + 1 + i) % 256
    firstIdx able 0 256 = some i → oldestQueued f s = some n →
    answers .frameUnitTake s (putRecord f n { (modFslot f n (fun t => { t with st := .begun }) s) with
      frame := { (modFslot f n (fun t => { t with st := .begun }) s).frame with rot := f } })) ∧
  (∀ f n chunk s, halted s = false → frameRuns s = true → (slotOf f n s).st = .begun →
    let x := fctxOf f s
    let t := slotOf f n s
    (∀ b, (t.srcLocal = true ∧ rangeClean t.srcAddr t.len s = true ∧ b = rawRead t.srcAddr t.len s) ∨
        (t.srcLocal = false ∧ canIssue x.fn s = true ∧ ∃ c, chunk = some c ∧ b = slice c 0 t.len) →
      (x.source = 0 → rawFrame x b = none → acts (.frameEnd f n chunk) s (endFrame f n 4 none s)) ∧
      (∀ r, x.source = 0 → rawFrame x b = some r →
        let missing := fun (py : Nat) => r.lines ≤ py ∨ (x.pixfmt = 2 ∧ r.lines ≤ x.height + py / 2)
        let pix := fun (px py : Nat) => if missing py then fillPix x else pixelAt x.pixfmt x.width x.height r.pix px py
        acts (.frameEnd f n chunk) s (endFrame f n r.fstat none (modFslot f n (fun t => { t with captureNs := r.capture })
          (modFctx f (fun x => { x with prev := some r.pix, prevLines := r.lines, stray := min (2 ^ 64 - 1) (x.stray + r.stray) })
            (memWrite (x.base s + x.slotOff n) (patchBytes x pix x.width x.height) s))))) ∧
      (x.source ≠ 0 →
        let idr := Config.streamIdr x.source b
        let hist := if idr then [b] else x.history ++ [b]
        let picture := if x.decodeFailed && !idr then none else Config.decodePicture x.source hist
        (picture = none → acts (.frameEnd f n chunk) s (endFrame f n 4 none (modFctx f (fun x => { x with decodeFailed := true }) s))) ∧
        (∀ yuv, picture = some yuv → acts (.frameEnd f n chunk) s
          (endFrame f n 0 none (modFctx f (fun x => { x with history := hist, decodeFailed := false })
            (memWrite (x.base s + x.slotOff n) (patchBytes x (pixelAt 2 t.width t.height yuv) t.width t.height) s)))))) ∧
    (t.srcLocal = true → (memRead t.srcAddr t.len s).1 = none →
      acts (.frameEnd f n chunk) s (endFrame f n 4 (some 3) (memRead t.srcAddr t.len s).2)) ∧
    (t.srcLocal = false → canIssue x.fn s = false ∨ chunk = none →
      acts (.frameEnd f n chunk) s (endFrame f n 4 (some 1) s))) ∧
  (∀ f pic n s0, halted s0 = false → frameRuns s0 = true → encodeNext f s0 = some n →
    let x := fctxOf f s0
    let t := slotOf f n s0
    let idr := x.forceIdr || decide (255 ≤ x.sinceIdr)
    let qp := if idr then x.qp - 3 else x.qp
    let wide := (t.width + 15) / 16
    let qps := (List.range (wide * ((t.height + 15) / 16))).map (fun k =>
      (max 0 (min 51 ((qp : Int) - roiQuality x (16 * (k % wide) + 8) (16 * (k / wide) + 8)))).toNat)
    let told := emit (.encodeQps f t.seq qps) s0
    let dt := match x.lastCapture with | some a => t.captureNs - a | none => 1000000 + (Config.freeValue s0.free).toNat % 999000001
    let s : State := if x.lastCapture.isSome then told else { told with free := told.free + 1 }
    let len := roundUp 64 (16 + pic.length)
    let ring := x.ringLen s
    let pad := if ring < x.ringWrite % ring + len then ring - x.ringWrite % ring else 0
    let consumed := leNat (slice (rawRead (x.base s + 0x118) 8 s) 0 8)
    let x1 := rateStep x t.encKbps (8 * pic.length) dt
    (x.ringWrite + pad + len ≤ consumed + ring →
      let s1 := if 0 < pad then ringPut x x.ringWrite (padTo (min 64 pad) (leBytes 4 0xFFFFFFFF)) s else s
      let rec_ := padTo len (leBytes 4 pic.length ++ leBytes 4 t.seq ++ leBytes 1 (if idr then 2 else 1) ++ leBytes 1 qp ++ leBytes 6 0 ++ pic)
      let s2 := memWrite (x.base s + 0x110) (leBytes 8 (x.ringWrite + pad + len)) (ringPut x (x.ringWrite + pad) rec_ s1)
      let x2 : FrameCtx := { x1 with ringWrite := x.ringWrite + pad + len, lastCapture := some t.captureNs, forceIdr := false }
      let x3 : FrameCtx := { x2 with sinceIdr := if idr then 0 else x.sinceIdr + 1, encFrames := satInc 32 x.encFrames }
      let x4 : FrameCtx := { x3 with encTotal := min (2 ^ 64 - 1) (x.encTotal + pic.length) }
      acts (.frameEncodeRecord f pic) s0 (putRecord f n (modFslot f n (fun t =>
        { t with encPend := false, encBytes := pic.length, encQp := qp, encType := if idr then 2 else 1 }) (modFctx f (fun _ => x4) s2)))) ∧
    (consumed + ring < x.ringWrite + pad + len →
      let x2 : FrameCtx := { x1 with lastCapture := some t.captureNs, forceIdr := true, encDrop := satInc 32 x.encDrop }
      acts (.frameEncodeRecord f pic) s0 (raise 0x15B (putRecord f n (modFslot f n (fun t => { t with encPend := false }) (modFctx f (fun _ => x2) s))))))

/-- Reef's events (from R566 - R571, R575, R578, R580 - R587, R593): each second the triggers are judged; a write to a protected chunk is read
first; a copy that is complete goes to the peer, or to the drives and makes the snapshot READY, as the peer's acceptance does; a park is taken or
refused; a context confirmed is EVACUATED and one refused
resumes; an output token reaches the host; a lost peer ends what depended on it, and after 30 s its hosted contexts are freed. -/
def Obligations.ReefEventsComplete : Prop :=
  (∀ held s, mhRuns s = true →
    let s0 := modReef (fun r => { r with temps := (s.rl.temp :: r.temps).take 70 }) s
    acts (.reefTriggerEval held) s (furlSettle (modReef (fun r => { r with ce := (0 :: r.ce).take 60 })
      (if fnRunning 0x09 s0 then (firing s0).foldl (fun s k => fire held k s) s0 else s0)))) ∧
  (∀ held k s, let s1 := raise 0x162 s
    ((s1.reef.st = .snapping ∨ s1.reef.st = .evacuating) → fire held k s = modReef (fun r => { r with merged := r.merged + 1 }) s1) ∧
    (s1.reef.st ≠ .snapping → s1.reef.st ≠ .evacuating → snapRoom s1 = true → fire held k s = startSnap (snapScope s1) k none held s1)) ∧
  (∀ a bs s, mhRuns s = true → inHbm a = true → a / 65536 ∈ s.reef.queue →
    acts (.reefProtectedWrite a bs) s
      (memWrite a bs (modReef (fun r => { r with queue := a / 65536 :: r.queue.filter (fun k => decide (k ≠ a / 65536)) }) s))) ∧
  (∀ i d s, mhRuns s = true → takingSnap s = some i → (∀ g ∈ (snapOf i s).ctxs, g.cut = true ∨ g.lost = true) → (snapOf i s).target = .peer d →
    acts .reefCopyDone s (furlSettle (if (snapOf i s).sent then s else snapSend i d s))) ∧
  (∀ i n s, mhRuns s = true → takingSnap s = some i → (∀ g ∈ (snapOf i s).ctxs, g.cut = true ∨ g.lost = true) → (snapOf i s).target = .nvme n →
    ((snapOf i s).header = false → acts .reefCopyDone s (furlSettle (reefHeader i s))) ∧
    ((snapOf i s).header = true → clientIdle (.reef i) s = true →
      acts .reefCopyDone s (furlSettle (if (reefDrives s).isEmpty then furlSettle (snapFailed i s) else snapReady i s)))) ∧
  (∀ i src snap s, mhRuns s = true → activeMember src s = true → takingSnap s = some i → (snapOf i s).target = .peer src →
    handleOf i (snapOf i s).gen = snap →
    ((snapOf i s).sent = true → acts (.reefPark src (.parked snap true)) s (furlSettle (snapReady i s))) ∧
    acts (.reefPark src (.parked snap false)) s (furlSettle (targetFail s))) ∧
  (∀ src m s, mhRuns s = true → activeMember src s = true → acts (.reefConfirm src m) s (furlSettle (confirmMsg src m s))) ∧
  (∀ i d s, mhRuns s = true → takingSnap s = some i → (snapOf i s).target = .peer d →
    acts .reefTargetFail s (furlSettle (furlSettle
      (if s.reef.target = 2 then toNvme i (modSnap i (fun x => { x with follow := false }) s) else snapFailed i s)))) ∧
  (∀ src snap images rs s, mhRuns s = true → activeMember src s = true →
    let n := (images.foldl (fun n g => n + imageBytes g) 64 + 0x1FFFFF) / 0x200000
    acts (.reefPark src (.ask snap)) s (furlSettle (reefSend src (.parked snap (canHost s && parkFits 0 s)) s)) ∧
    (∀ p, canHost s = true → parkFits n s = true → freeRun n s = some p →
      let placed := placeReplicas rs (takePages .reef (some 0xFFFF) true p n s)
      acts (.reefPark src (.park snap images rs)) s (furlSettle (reefSend src (.parked snap true) (modReef (fun r => { r with
        parked := r.parked ++ [{ src := src, snap := snap, page := p, pages := n, images := images, replicas := placed.1 }] }) placed.2)))) ∧
    (canHost s = false ∨ parkFits n s = false →
      acts (.reefPark src (.park snap images rs)) s (furlSettle (reefSend src (.parked snap false) s)))) ∧
  (∀ src h c e mapped prefill s, mhRuns s = true → activeMember src s = true → frozenOf h s = some c → s.reef.evac = some e → e.dest = src →
    acts (.reefConfirm src (.confirm h mapped prefill)) s (furlSettle (evacDone (furlSettle (settleEntry h
      (modEvac (fun e => { e with restored := e.restored + 1, mapped := e.mapped + mapped, prefill := e.prefill + prefill })
        (modCtx c (fun x => { x with frozen := false, evacuated := true, dest := src }) (dropPriv c (dropBlocks c s)))))))) ∧
    acts (.reefRefuse src h) s (furlSettle (evacDone (settleEntry h (modEvac (fun e => { e with skipped := e.skipped + 1 })
      (raise 0x164 (modCtx c (fun x => { x with frozen := false }) s))))))) ∧
  (∀ src h tok c r s, mhRuns s = true → activeMember src s = true → proxyOf src h s = some c → (ctxOf c s).req = some r →
    (canIssue (ctxOf c s).fn s = true → acts (.reefOutputToken src (.token h tok)) s (furlSettle (modReq c (fun r => { r with out := r.out + 1 })
      (modCtx c (fun x => { x with tokensOut := x.tokensOut + 1 }) (writeHost (ctxOf c s).fn (r.outAddr + 4 * r.out) (leBytes 4 tok) s))))) ∧
    (canIssue (ctxOf c s).fn s = false →
      acts (.reefOutputToken src (.token h tok)) s (furlSettle (reefSend src (.cancel h) (endReq c .fault 1 0 s))))) ∧
  (∀ dev s, mhRuns s = true → activeMember dev s = false →
    let s1 := proxiesLost dev s
    (∀ i, takingSnap s1 = some i → (snapOf i s1).target ≠ .peer dev → s1.reef.evac = none →
      acts (.reefPeerLoss dev) s (furlSettle (dropParked (fun p => decide (p.src = dev)) s1))) ∧
    (takingSnap s1 = none → s1.reef.evac = none →
      acts (.reefPeerLoss dev) s (furlSettle (dropParked (fun p => decide (p.src = dev)) s1))) ∧
    acts (.reefHostedExpiry dev) s (furlSettle (dropReplicas
      ((s.srv.ctxs.filter (fun c => c.2.live && (match c.2.hosted with | some h => decide (h.1 = dev) | none => false))).foldl
        (fun s c => match c.2.req with
          | some _ => endReq c.1 .fault 0 0 (modReq c.1 (fun q => { q with killed := true }) s)
          | none => freeCtx c.1 s) s))))

/-! ### Stay, Shroud and Trim -/

/-- A flit that arrives on a link (from R357 - R361, R364 - R367, Tables 15.2, 15.3, 15.5): FEC counts; a flit that an uncorrectable codeword overlaps and a CRC error
are answered with NACK; an unknown kind starts RESYNC; CTL flits are obeyed; an IDLE flit returns credits; an acknowledgement frees the
replay buffer; a DATA flit out of order is answered with NACK, and one in order joins its packet and is acknowledged at once (log entry
30). -/
def Obligations.FlitsArrive : Prop :=
  ∀ k bytes bad corr badCw uncorr s, k < 12 → s.dev.mode ≠ .cold → lclkRuns s = true → (linkOf k s).st = .up →
    let rx := fun t => acts (.stayFlitRx k ⟨bytes, bad⟩ corr badCw uncorr) s t
    let s1 := fecCount k corr badCw uncorr s
    let h := fieldN bytes 0 4
    let body := (bytes.drop 4).take 248
    let acked := fun (s : State) => if bitN h 24 then ackReplay k (bitsN h 16 8) s else s
    let s2 := modLink k (fun l => { l with credits := Tab.mod l.credits (bitsN h 26 2) (· + bitsN h 28 4) }) (acked s1)
    (linkOf k s1).st = .up →
    (bad = true → rx (sendNack k s1)) ∧
    (bad = false → (bytes.length ≠ 256 ∨ fieldN bytes 252 4 ≠ crc32 (bytes.take 252)) → (linkOf k (linkCount k .crcErr 1 s1)).st = .up →
      rx (sendNack k (linkCount k .crcErr 1 s1))) ∧
    (bad = false → bytes.length = 256 → fieldN bytes 252 4 = crc32 (bytes.take 252) →
      ((bitsN h 10 2 = 3 ∨ bitsN h 14 2 ≠ 0) → rx (startResync k (linkCount k .protoErr 1 s1))) ∧
      (bitsN h 14 2 = 0 → bitsN h 10 2 = 2 → bitN h 25 = false →
        (fieldN body 0 1 = 1 → rx (rxInit k (fieldN body 1 1) (fieldN body 2 1) (fieldN body 3 1) s2)) ∧
        (fieldN body 0 1 = 2 → rx (rxResync k s2)) ∧ (fieldN body 0 1 = 3 → rx (rxResyncAck k s2)) ∧
        (fieldN body 0 1 = 0 ∨ 4 ≤ fieldN body 0 1 → rx s2)) ∧
      (bitsN h 14 2 = 0 → bitsN h 10 2 = 0 → bitN h 25 = false → rx s2) ∧
      (bitsN h 14 2 = 0 → bitsN h 10 2 = 0 → bitN h 25 = true → rx (startReplay k s2)) ∧
      (bitsN h 14 2 = 0 → bitsN h 10 2 = 1 → bitN h 25 = false → (linkOf k s2).st = .up →
        (bitsN h 0 8 ≠ (linkOf k s2).rxSeq → rx (sendNack k s2)) ∧
        (bitsN h 0 8 = (linkOf k s2).rxSeq →
          let s3 := linkCount k .flitsRx 1 (modLink k (fun l => { l with rxSeq := (l.rxSeq + 1) % 256, ackValid := true, nackAt := none }) s2)
          let vc := bitsN h 8 2
          (bitN h 12 = true → bitN h 13 = false → Tab.get (linkOf k s3).part vc = none →
            rx (ackNow k (modLink k (fun l => { l with part := Tab.put l.part vc (some [body]) }) s3))) ∧
          (∀ bs, bitN h 12 = false → bitN h 13 = false → Tab.get (linkOf k s3).part vc = some bs → bs.length < 32 →
            rx (ackNow k (modLink k (fun l => { l with part := Tab.put l.part vc (some (bs ++ [body])) }) s3))) ∧
          (bitN h 12 = false → Tab.get (linkOf k s3).part vc = none → rx (ackNow k (linkCount k .pktDiscard 1
            (modLink k (fun l => { l with owed := Tab.mod l.owed vc (· + 1), part := Tab.put l.part vc none }) s3)))) ∧
          (∀ p, bitN h 12 = true → bitN h 13 = true → Tab.get (linkOf k s3).part vc = none → packetHead body 1 = some p →
            protoOk vc p.proto = true → p.dest = devNum s3 → vcState vc s3 = .ready →
            let s4 := modLink k (fun l => { l with owed := Tab.mod l.owed vc (· + 1), part := Tab.put l.part vc none }) s3
            let data := ((body.drop 8).take p.bytes)
            (p.proto = 1 → rx (shrRx (.stay p.src) data (ackNow k s4))) ∧ (p.proto = 2 → rx (rxLinkMap p.src data (ackNow k s4))) ∧
            (p.proto = 3 → rx (rackMsg p.src data (ackNow k s4)))))))

/-- The events of a link's retry, credits and state (from R362, R363, R367, R375 - R379, Tables 15.5, 15.7, 15.9): the replay and its budget,
RESYNC and its answer, training phases and their limits, INIT and its check, the retry interval, the initial credits and lost lock. -/
def Obligations.LinkEventsComplete : Prop :=
  ∀ k s, k < 12 → s.dev.mode ≠ .cold → lclkRuns s = true →
    let l := linkOf k s
    (l.st = .up → l.replay ≠ [] →
      ((∃ f ∈ l.replay, 16 ≤ f.replays) → acts (.stayReplayTimeout k) s (linkFail k s)) ∧
      ((∀ f ∈ l.replay, f.replays < 16) →
        let again := fun (f : TxFlit) => { f with replays := f.replays + 1, firstAt := some (f.firstAt.getD s.time.mono) }
        let ts := windowed l.replayAt 1 s.time.mono 1000000000
        let s1 := raise (0x10C + k) (linkCount k .replays 1 (modLink k (fun l => { l with replay := l.replay.map again, replayAt := ts }) s))
        acts (.stayReplayTimeout k) s (l.replay.foldl (fun s f => sendFlit k 1 f.seq f.vc f.sop f.eop f.body false s)
          (if 100 < ts.length then raise (0x100 + k) s1 else s1))) ∧
      (∀ f, l.replay.head? = some f → f.firstAt = none → acts (.stayRetryBudgetExpiry k) s s) ∧
      (∀ f, l.replay.head? = some f → f.firstAt ≠ none → acts (.stayRetryBudgetExpiry k) s
        (retrain k (linkCount k .flitsLost l.replay.length (raise (0x118 + k) s))))) ∧
    (l.st = .up → acts (.stayResync k) s (linkUp k (sendCtl k 3 (linkCount k .resyncs 1 (modLink k clearLink (cutPackets k s))))) ∧
      acts (.stayLockLost k) s (retrain k (linkCount k .flitsLost l.replay.length s)) ∧
      (∀ role node port, acts (.stayInit k role node port) s (sendCtl k 1 s)) ∧
      (l.granted = false → s.dev.mode ≠ .boot → acts (.stayCreditGrant k) s (ackNow k (modLink k (fun l => { l with
        granted := true, owed := [160, 192, 96, 64].zipIdx.foldl (fun t v => Tab.mod t v.2 (· + v.1)) l.owed }) s)))) ∧
    (l.st = .resync → acts (.stayResync k) s (sendCtl k 3 s) ∧ acts (.stayResyncAck k) s (linkUp k s) ∧
      acts (.stayResyncTimeout k) s (retrain k (linkCount k .flitsLost (linkOf k s).replay.length (raise (0x118 + k) s))) ∧
      acts (.stayCtlRepeat k) s (sendCtl k 2 s)) ∧
    (l.st = .training →
      (∀ inv,
        let put := fun (p : TrainPhase) => modLink k (fun l => { l with rxInv := l.rxInv ||| inv, phase := p }) s
        (l.phase = .detect → acts (.stayTrainingPhaseDone ⟨k, inv⟩) s (put .eq)) ∧ (l.phase = .eq → acts (.stayTrainingPhaseDone ⟨k, inv⟩) s (put .lock)) ∧
        (l.phase = .lock → acts (.stayTrainingPhaseDone ⟨k, inv⟩) s (sendCtl k 1 (put .init))) ∧
        (l.phase = .init → l.partnerOk = true → acts (.stayTrainingPhaseDone ⟨k, inv⟩) s (linkUp k (put .init))) ∧
        (l.phase = .init → l.partnerOk = false → acts (.stayTrainingPhaseDone ⟨k, inv⟩) s (put .init))) ∧
      (l.phase = .detect → acts (.stayTrainingTimeout k) s s) ∧
      (l.phase ≠ .detect →
        (l.lanes = .x4 → acts (.stayTrainingTimeout k) s (modLink k (trainFrom .low2) s)) ∧
        (l.lanes = .low2 → acts (.stayTrainingTimeout k) s (modLink k (trainFrom .high2) s)) ∧
        (l.lanes = .high2 → acts (.stayTrainingTimeout k) s (modLink k (fun l => { clearLink l with st := .down, lanes := .x4 }) s))) ∧
      (∀ role node port,
        let noted := fun ok => modLink k (fun l => { l with partner := some (node, port), partnerOk := ok }) s
        (l.phase = .init → role = 1 → node = k → port = devNum s →
          acts (.stayInit k role node port) s (linkUp k (sendCtl k 1 (noted true)))) ∧
        (l.phase = .init → ¬ (role = 1 ∧ node = k ∧ port = devNum s) → acts (.stayInit k role node port) s
          (raise (0x124 + k) (modLink k (fun l => { clearLink l with st := .miscabled }) (noted false)))) ∧
        (l.phase ≠ .init → acts (.stayInit k role node port) s (noted (initPasses k role node port s)))) ∧
      (l.phase = .init → acts (.stayCtlRepeat k) s (sendCtl k 1 s))) ∧
    (l.st = .miscabled → acts (.stayRetryInterval k) s (modLink k (trainFrom .x4) s) ∧ acts (.stayCtlRepeat k) s (sendCtl k 1 s)) ∧
    (l.st = .down → acts (.stayRetryInterval k) s (modLink k (trainFrom .x4) s))

/-- Packets and the link map (from R368, R369, R371 - R373): a packet goes on list[FLOW mod n] of its destination's usable links, and with none
it goes back as NOROUTE, counted on link 0 (the model's choice, log entry 79); a peer's LINK_MAP is kept, the device's own goes on every UP
link, by the timer and whenever what it says has changed, and 10 ms of silence clears a peer's. -/
def Obligations.StayPacketsComplete : Prop :=
  (∀ dest vc proto flow data sys s, halted s = false → vc < 4 → protoOk vc proto = true → data.length ≤ 7928 →
    dest < 72 ∨ (dest = 0x7F ∧ vc = 3) →
    (∀ k0, vcState vc s = .ready → (usableLinks dest vc s)[flow % (usableLinks dest vc s).length]? = some k0 →
      acts (.stayPacketSend dest vc proto flow data sys) s
        (offer (k0 + 2) (stayQueue vc sys) { vc := vc, bodies := packetBodies dest proto flow data s } s)) ∧
    (vcState vc s ≠ .ready ∨ usableLinks dest vc s = [] →
      acts (.stayPacketSend dest vc proto flow data sys) s
        (emit (.noroute vc (packetBodies dest proto flow data s).flatten) (linkCount 0 .noroute 1 s)))) ∧
  (∀ src data s, halted s = false → src < 72 → src ≠ devNum s → data.length = 8 →
    let said : PeerMap :=
      { mask := BitVec.ofNat 12 (fieldN data 0 2), dataReady := bitN (fieldN data 2 1) 0, vc3Ready := bitN (fieldN data 2 1) 1 }
    acts (.linkMap src data) s { s with stay := { s.stay with maps := Tab.put s.stay.maps src said } }) ∧
  (∀ src s, halted s = false → src < 72 →
    acts (.linkMapSilenceEv src) s { s with stay := { s.stay with maps := Tab.put s.stay.maps src {} } }) ∧
  (∀ s, halted s = false → s.dev.mode = .ready ∨ s.dev.mode = .degraded ∨ s.dev.mode = .quarantine →
    let mask := (upLinks s).foldl (fun m k => m + 2 ^ k) 0
    let map := leBytes 2 mask ++ leBytes 1 (b2n (vcState 0 s = .ready) + 2 * b2n (vcState 3 s = .ready)) ++ [0, 0, 0, 0, 0]
    acts .linkMapTimer s ((upLinks s).foldl (fun s k => offer (k + 2) 7 { vc := 3, bodies := packetBodies 0x7F 2 0 map s } s)
      { s with stay := { s.stay with mapSaid := some map } })) ∧
  (∀ s, halted s = false → s.dev.mode = .boot → acts .linkMapTimer s { s with stay := { s.stay with mapSaid := none } }) ∧
  (∀ s, linkMapSweep s = if linkMapData s = s.stay.mapSaid then s else sendLinkMap s)

/-- A Shroud packet arrives (from R386, R390, R391, R396 - R398, R417, R436, Table 16.2): one that names no connection is counted; one whose tag
fails raises its source; a malformed one is counted; an echoed time of any of them gives an RTT sample; a sequenced one passes its tenant's policer; then CONNECT, ACCEPT, REQ, RESP, ACK,
CLOSE and CLOSE_ACK each have their effect. Over UDP the frame then leaves its ingress buffer. -/
def Obligations.ShroudPacketsArrive : Prop :=
  ∀ src packet s, halted s = false → s.dev.mode ≠ .boot → 80 ≤ packet.length →
    let h := parsePkt packet
    let n := packet.length
    let left := fun prio (t : State) => match src with
      | .stay _ => t
      | .udp p a => ethTake p prio (n + (if isV4 a then 50 else 70)) t
    (connFor src packet s = none → h.typ = 1 →
      acts (.shrConnect src packet) s (left 6 (modShr (fun u => { u with malformed := satInc 32 u.malformed }) s))) ∧
    (∀ i, connFor src packet s = some i →
      let c := connOf i s
      let clear := Config.gcmOpen c.key (nonceOf (1 - shrDir c s) h.txc) (packet.take 64) ((packet.take (n - 16)).drop 64) (packet.drop (n - 16))
      let out := fun (f : List Byte → State) => match clear with
        | none => raise 0x137 (connCount i .authFail s)
        | some data => if pktOk h data then f data else connCount i .malformed s
      let timed := fun (s : State) => if h.tEcho = 0 then s else addSample i ((s.time.mono + 2 ^ 32 - h.tEcho) % 2 ^ 32) s
      let sampled := fun (s : State) => rxAck i h (timed s)
      let st := (connOf i (timed s)).st
      let seq := fun data => if c.sys then rxSeq i h data (sampled s)
        else if (police c.tenant n s).1 then rxSeq i h data (sampled (police c.tenant n s).2) else (police c.tenant n s).2
      (h.typ = 1 → acts (.shrConnect src packet) s (left 6 (out (fun data =>
        if fieldN data 0 2 ≠ (connOf i (timed s)).tenant then s
        else if st = .opening then sendOpening i 2 (opened i h.src (timed s))
        else if st = .opened then sendOpening i 2 (timed s) else timed s)))) ∧
      (h.typ = 2 → acts (.shrAccept src packet) s (left 6 (out (fun _ => if st = .opening then opened i h.src (timed s) else timed s)))) ∧
      (h.typ = 3 → acts (.shrReq src packet) s (left 3 (out seq))) ∧
      (h.typ = 4 → acts (.shrResp src packet) s (left 3 (out seq))) ∧
      (h.typ = 5 → acts (.shrAck src packet) s (left 6 (out (fun _ => sampled s)))) ∧
      (h.typ = 6 → acts (.shrClose src packet) s (left 6 (out (fun _ =>
        if st = .opened then opsEnd i .unavail (sendPlain i 7 (modConn i (fun c => { c with st := .peerClosed }) (sampled s)))
        else sampled s)))) ∧
      (h.typ = 7 → acts (.shrCloseAck src packet) s (left 6 (out (fun _ =>
        if st = .closing then connFree i (sampled s) else sampled s)))))

/-- Operations at their target (from R400 - R409, Table 16.3): the oldest operation of a connection, whole, whose target passes its checks
and whose pages are present, has its effect and its response, a WRITE_SIG its signal before that response; a check that fails answers its OSTAT; an absent page answers FAULT through
a window that resends, and holds the operation otherwise. -/
def Obligations.ShroudTargetsComplete : Prop :=
  (∀ i o os s, halted s = false → (connOf i s).inq = o :: os → o.whole = true →
    let pop := modConn i (fun c => { c with inq := os }) s
    let runs := fun (op : Nat) (c : Instr) =>
      o.opc = op → (∀ e, target i o s = .error e → acts c s (unmapDone i o (respond i o [[]] e 0 pop))) ∧
      (∀ a g, target i o s = .ok (a, g) → o.opc ≠ 5 → rangeRuns a o.len s = false → acts c s s) ∧
      (∀ a, o.opc ≠ 5 → rangeRuns a o.len s = true → anyAbsent a o.len s = true →
        (target i o s = .ok (a, false) → acts c s s) ∧
        (target i o s = .ok (a, true) → acts c s (unmapDone i o (respond i o [[]] 4 ((Config.freeValue s.free).toNat % 256)
          (modConn i (fun c => { c with inq := [], faultAt := some o.opsn }) { s with free := s.free + 1 })))))
    runs 1 (.shrRead i) ∧ runs 2 (.shrWrite i) ∧ runs 3 (.shrWriteSig i) ∧ runs 4 (.shrFadd i) ∧
    (∀ a again, target i o s = .ok (a, again) → rangeRuns a o.len s = true → anyAbsent a o.len s = false →
      (o.opc = 1 → rangeClean a o.len s = true →
        acts (.shrRead i) s (unmapDone i o (respond i o (pieces (o.len / 4096 + 1) (rawRead a o.len s)) 0 0 (readUse a o.len pop)))) ∧
      (o.opc = 1 → rangeClean a o.len s = false → acts (.shrRead i) s (unmapDone i o (readOp i o a pop))) ∧
      (o.opc = 4 → (memRead a 8 pop).1 = none → acts (.shrFadd i) s (unmapDone i o (respond i o [[]] 3 0 (memRead a 8 pop).2))) ∧
      (o.opc = 2 → acts (.shrWrite i) s (unmapDone i o (respond i o [[]] 0 0 (memWrite a (o.data.take o.len) pop)))) ∧
      (o.opc = 3 → acts (.shrWriteSig i) s
        (unmapDone i o (respond i o [[]] 0 0 (cleatAdd true o.aux 1 (memWrite a (o.data.take o.len) pop))))) ∧
      (o.opc = 4 → rangeClean a 8 s = true → acts (.shrFadd i) s (unmapDone i o (respond i o [rawRead a 8 s] 0 0
        (memWrite a (leBytes 8 (leNat (rawRead a 8 s) + fieldN o.data 0 8)) pop))))) ∧
    (o.opc = 5 → acts (.shrMsg i) s (unmapDone i o (respond i o [[]] 0 0 (emit (.shrMsg i (o.data.take o.len)) pop))))) ∧
  (∀ p s, halted s = false →
    acts (.shrPagePresent p) s { s with shr := { s.shr with absent := Tab.put s.shr.absent p false } })

/-- Operations at their initiator (from R393, R395, R411 - R416, R419 - R421): what a post answers at once, its release in order, the packet
that leaves, and the ends by time. -/
def Obligations.ShroudInitiatorsComplete : Prop :=
  (∀ i p s, halted s = false → (connOf i s).st ≠ .free → (connOf i s).st ≠ .opening → (∀ o ∈ (connOf i s).ops, o.post.id ≠ p.id) →
    let c := connOf i s
    let o : ShrOp := { post := p, client := .outside, tmo := c.timeout }
    let triggered := (c.ops.filter (fun o => o.post.cond.isSome && o.opsn.isNone)).length
    let s1 := connCount i .posted s
    let refused := fun e => acts (.shrOperationPost i p) s (opEnd i o e 0 s1)
    let fit := postOk p = true ∧ (p.cond = none ∨ c.chain = 1 ∨ (c.chain = 2 ∧ triggered < 256))
    (postOk p = false → refused .inval) ∧
    (p.cond.isSome = true → c.chain = 0 ∨ (c.chain = 2 ∧ 256 ≤ triggered) → refused .inval) ∧
    (fit → c.st = .broken → refused .broken) ∧
    (fit → c.st = .closing ∨ c.st = .peerClosed → refused .unavail) ∧
    (fit → c.st = .opened → shrRuns s = false → refused .unavail) ∧
    (fit → c.st = .opened → shrRuns s = true → s.dev.mode = .quarantine → c.onStay = true → refused .noRoute) ∧
    (fit → c.st = .opened → shrRuns s = true → s.dev.mode ≠ .quarantine →
      acts (.shrOperationPost i p) s (release i (modConn i (fun c => { c with ops := c.ops ++ [o] }) s1)))) ∧
  (∀ i s, halted s = false → (connOf i s).st = .opened →
    let c := connOf i s
    let waiting := c.ops.filter (fun o => o.opsn.isNone)
    let leaves := if c.chain = 2 then waiting.filter (fun o => condMet o.post s) else waiting.takeWhile (fun o => condMet o.post s)
    acts (.shrGateRelease i) s (closeStep i (leaves.foldl (fun s o => opLeave i o s) s))) ∧
  (∀ i g gs s, halted s = false → (connOf i s).st = .opened ∨ (connOf i s).st = .closing → (connOf i s).outq = g :: gs →
    let g1 := { g with psn := (connOf i s).psn }
    ((connOf i s).unacked.length < 1024 → acts (.shrPacedSend i) s (sendPkt i (if g.resp then 4 else 3) g1
      (modConn i (fun c => { c with outq := gs, psn := (c.psn + 1) % 2 ^ 32, unacked := c.unacked ++ [g1] }) s))) ∧
    (1024 ≤ (connOf i s).unacked.length → acts (.shrPacedSend i) s s)) ∧
  (∀ i id o s, halted s = false → (connOf i s).ops.find? (fun o => o.post.id = id && (o.opsn.isSome || o.post.cond.isNone)) = some o →
    acts (.shrOpTimeout i id) s (closeStep i (opEnd i o .timedOut 0 s))) ∧
  (∀ i s, halted s = false → (connOf i s).ops.all (fun o => !o.resend) = true → acts (.shrResendDelay i) s s) ∧
  (∀ i f s, halted s = false → ((connOf i s).ops.filter (fun o => o.opsn.isSome)).find? (fun o => o.resend) = some f →
    let c := connOf i s
    let n := f.opsn.getD 0
    let later := (c.ops.filter (fun o => o.opsn.isSome)).filter (fun o => decide ((o.opsn.getD n + 2 ^ 32 - n) % 2 ^ 32 < 2 ^ 31))
    let again := later.foldl (fun l o => insertOp n o l) []
    let ns := again.filterMap (fun o => o.opsn)
    let s1 := modConn i (fun c => { c with outq := c.outq.filter (fun g => g.resp || !ns.contains g.opsn)
                                           ops := c.ops.map (fun o => { o with resend := false }) }) s
    acts (.shrResendDelay i) s (again.foldl (fun (r : Bool × State) o =>
      match opData o.post r.2 with
      | (some d, s2) => (false, modConn i (fun c => { c with outq := c.outq ++ reqSegs o.post (o.opsn.getD 0) r.1 d }) s2)
      | (none, s2) => (r.1, opEnd i o (.ostat 3) 0 s2)) (true, s1)).2) ∧
  (∀ n o p ps, insertOp n o [] = [o] ∧
    insertOp n o (p :: ps) = if o.after n < p.after n then o :: p :: ps else p :: insertOp n o ps)

/-- The timers of a connection and its rate (from R391, R397 - R399, R417, R418, Table 16.6). -/
def Obligations.ShroudTimersComplete : Prop :=
  (∀ i psn g s, halted s = false → (connOf i s).st = .opened ∨ (connOf i s).st = .closing →
    (connOf i s).unacked.find? (fun g => g.psn = psn && !g.sacked) = some g →
    acts (.shrRetransmitTimer i psn) s (raise 0x134 (connCount i .retx (sendPkt i (if g.resp then 4 else 3) g
      (modConn i (fun c => { c with unacked := c.unacked.map (fun x => if x.psn = psn then { x with tries := x.tries + 1 } else x) }) s))))) ∧
  (∀ i s, halted s = false → (connOf i s).st = .opened ∨ (connOf i s).st = .closing → 0 < (connOf i s).ackDue →
    acts (.shrAckTimer i) s (sendPkt i 5 {} s)) ∧
  (∀ i s, halted s = false → (connOf i s).st = .opened →
    ((∃ g ∈ (connOf i s).unacked, g.sacked = false) → acts (.shrBrokenTimeout i) s
      (raise 0x136 (opsEnd i .broken (modConn i (fun c => { c with st := .broken }) s)))) ∧
    ((∀ g ∈ (connOf i s).unacked, g.sacked = true) → acts (.shrBrokenTimeout i) s s)) ∧
  (∀ i s, halted s = false → (connOf i s).st = .opening →
    acts (.shrConnectRetry i) s (sendPkt i 1 { data := padTo 16 (leBytes 2 (connOf i s).tenant ++ leBytes 1 (connOf i s).chain) } s)) ∧
  (∀ i s, halted s = false → (connOf i s).st = .closing → (connOf i s).ops = [] →
    (100 ≤ (connOf i s).closes → acts (.shrCloseRetry i) s (connFree i s)) ∧
    ((connOf i s).closes < 100 → acts (.shrCloseRetry i) s (sendPkt i 6 {} (modConn i (fun c => { c with closes := c.closes + 1 }) s)))) ∧
  (∀ i v s, halted s = false → (connOf i s).sample = some v →
    let c := connOf i s
    let delay := v - baseRtt c
    let r := c.rcc
    let set := fun r => modConn i (fun c => { c with rcc := r, sample := none }) s
    let cut := (r.1 * (65536 * delay - s.shr.md * (delay - s.shr.target)), r.2 * (65536 * delay))
    let up := (r.1 + s.shr.ai * r.2, r.2)
    let pace := fun t => acts (.shrCcPeriod i) s t
    (s.shr.target < delay → s.shr.minRate * cut.2 ≤ cut.1 → pace (set cut)) ∧
    (s.shr.target < delay → cut.1 < s.shr.minRate * cut.2 → pace (connCount i .pinned (set (s.shr.minRate, 1)))) ∧
    (delay ≤ s.shr.target → shaperRate c s * r.2 < r.1 → pace (connCount i .pinned (set r))) ∧
    (delay ≤ s.shr.target → r.1 ≤ shaperRate c s * r.2 → up.1 ≤ lineRate c * up.2 → pace (set up)) ∧
    (delay ≤ s.shr.target → r.1 ≤ shaperRate c s * r.2 → lineRate c * up.2 < up.1 → pace (connCount i .pinned (set (lineRate c, 1)))))

/-- The events of Trim and of the Ethernet ports (from R423, R426 - R432, R439, R443, R444): the unit that a port sends, one gain of every
bucket, PFC received and sent, the ingress buffers of priorities 3 and 6, and the links. -/
def Obligations.TrimAndEthernetEventsComplete : Prop :=
  (∀ p s, halted s = false → p < 14 →
    (trimSelect p s).1 = none → acts (.trimSelectEv p) s (trimSelect p s).2) ∧
  (∀ p q k ks s s1, halted s = false → p < 2 → trimSelect p s = (some q, s1) → (queueOf p q s1).pkts = k :: ks →
    let s2 := emit (.eth p k.frame) (modQ p q (fun t => { t with pkts := t.pkts.tail }) (chargeUnit p q (k.frame.length + 20) s1))
    acts (.trimSelectEv p) s (admitWaiting p q (if k.delayReq = some s2.time.delaySeq then
      { s2 with time := { s2.time with delayTx := some (s2.time.sec * 1000000000 + s2.time.ns : Nat) } } else s2))) ∧
  (∀ p q k ks b bs s s1, halted s = false → 2 ≤ p → p < 14 → trimSelect p s = (some q, s1) → (queueOf p q s1).pkts = k :: ks →
    k.bodies = b :: bs →
    let seq := (linkOf (p - 2) s1).txSeq
    let fl : TxFlit := { seq := seq, vc := k.vc, sop := !k.started, eop := bs.isEmpty, body := b }
    let rest := if bs.isEmpty then ks else { k with started := true, bodies := bs } :: ks
    let s2 := modQ p q (fun t => { t with pkts := rest }) (chargeUnit p q 256 s1)
    let s3 := linkCount (p - 2) .flitsTx 1 (modLink (p - 2) (fun l => { l with
      txSeq := (l.txSeq + 1) % 256, replay := l.replay ++ [fl], credits := Tab.mod l.credits k.vc (fun c => c - 1) }) s2)
    acts (.trimSelectEv p) s (admitWaiting p q (sendFlit (p - 2) 1 seq k.vc (!k.started) bs.isEmpty b false s3))) ∧
  (∀ p s, portTakes p s = false → trimSelect p s = (none, s)) ∧
  (∀ p q s, portTakes p s = true → trimRuns s = false → (∀ j, q < j → j < 8 → maySend p j s = false) → q < 8 → maySend p q s = true →
    trimSelect p s = (some q, s)) ∧
  (∀ p q s, portTakes p s = true → trimRuns s = true →
    let s1 := turnCheck p s
    (∀ j, q < j → j < 8 → maySend p j s1 = false) → q < 8 → maySend p q s1 = true →
    8 ≤ q + strictOf (Tab.get s.trim.ports p) → trimSelect p s = (some q, s1)) ∧
  (∀ s, halted s = false → acts .trimBucketGain s { s with trim := { s.trim with
    ports := Tab.mapAll s.trim.ports (fun _ p => { p with bucket := p.bucket.gain })
    qs := Tab.mapAll s.trim.qs (fun _ q => { q with bucket := q.bucket.gain })
    policers := Tab.mapAll s.trim.policers (fun _ p => { p with bucket := p.bucket.gain }) } }) ∧
  (∀ p prio t s, halted s = false → p < 2 → prio < 8 →
    acts (.pfcFrameRx p [(prio, t)]) s (turnCheck p (modQ p prio (fun q => { q with paused := 0 < t }) s)) ∧
    acts (.pfcPauseExpiry p prio) s (modQ p prio (fun q => { q with paused := false }) s)) ∧
  (∀ p prio n s, halted s = false → p < 2 → (Tab.get s.eth p).up = true → prio = 3 ∨ prio = 6 →
    let e := Tab.get s.eth p
    let h := e.held prio + n
    (∀ f, acts (.ethFrameRxEv p prio n f true) s (raise (0x132 + p) s)) ∧
    (∀ f, 0x100000 < h → acts (.ethFrameRxEv p prio n f false) s (modEth p (fun e => { e with discarded := satInc 32 e.discarded }) s)) ∧
    (∀ f, 0xC0000 < h → h ≤ 0x100000 → e.pausedRx prio = false →
      acts (.ethFrameRxEv p prio n f false) s (emit (.pfc p prio 0xFFFF) (modEth p (fun e => e.put prio h true) s))) ∧
    (∀ f, h ≤ 0xC0000 → acts (.ethFrameRxEv p prio n f false) s (modEth p (fun e => e.put prio h (e.pausedRx prio)) s)) ∧
    (0xC0000 < e.held prio →
      acts (.pfcRepeatEv p prio) s (emit (.pfc p prio 0xFFFF) (modEth p (fun e => e.put prio (e.held prio) true) s))) ∧
    (e.held prio ≤ 0xC0000 → acts (.pfcRepeatEv p prio) s s)) ∧
  (∀ p s, halted s = false → p < 2 → s.dev.mode ≠ .boot →
    (fnState p s ≠ .stopped → domainLost 6 s = false → acts (.ethernetLinkChange p true) s (modEth p (fun e => { e with up := true }) s)) ∧
    ((Tab.get s.eth p).up = true →
      acts (.ethernetLinkChange p false) s (raise (0x130 + p) (modEth p (fun e => { e with up := false }) s))))

/-! ### NVMe and the PLB -/

/-- The drives' states (from R49, R460 - R463, R466, R468, R470, Tables 18.4 - 18.6): link up, at a rate and a width the port has, and down,
CSTS.RDY with the admin commands that bring a drive up and its limit, fatal status, the reset that a READY drive takes, and an
asynchronous event. -/
def Obligations.DriveStatesComplete : Prop :=
  (∀ d w r inv rev s, halted s = false → d = 0 ∨ (d = 1 ∧ s.nvme.wiredMode = 1) → s.pins.nvmePerstN.getLsbD d = true →
    domainLost 8 s = false → (driveOf d s).st = .absent →
    (r = 2 ∨ r = 5 ∨ r = 8 ∨ r = 16 ∨ r = 32 → 0 < w → w ≤ (if s.nvme.wiredMode = 1 then 4 else 8) →
      acts (.nvmeLinkUp d ⟨w, inv, rev⟩ r) s
        (modDrive d (fun u => { u with st := .init, width := w, rate := r, rxInv := inv.setWidth 8, reversed := rev }) s)) ∧
    ((if s.nvme.wiredMode = 1 then 4 else 8) < w → acts (.nvmeLinkUp d ⟨w, inv, rev⟩ r) s s)) ∧
  (∀ d s, d < 2 → halted s = false →
    let bad := fun st s => reefNvme (furlSettle (driveLost d (raise (0x146 + d) (failAll d (modDrive d (fun u => { u with st := st }) s)))))
    let reset := raise (0x144 + d) (failAll d (modDrive d (fun u => { u with st := .resetting }) s))
    let asked := emit (.nvAdmin d (.setQueues s.nvme.ioq)) (emit (.nvAdmin d (.identify 2)) (emit (.nvAdmin d (.identify 1))
      (emit (.nvAdmin d (.identify 0)) s)))
    ((driveOf d s).st = .init →
      (∀ i, driveMeets i = true →
        let up := modDrive d (fun u => { u with
          st := .ready, nsze := i.nsze, maxBytes := if i.mdts = 0 then 262144 else min 262144 i.mdts,
          pairs := min s.nvme.ioq i.granted, entries := min 1024 (i.mqes + 1) }) asked
        let pairs : List NvAdmin := (List.range (min s.nvme.ioq i.granted)).flatMap (fun q =>
          [.createCq (q + 1) (min 1024 (i.mqes + 1)), .createSq (q + 1) (min 1024 (i.mqes + 1))])
        let queued := (pairs ++ List.replicate 4 NvAdmin.asyncEvent).foldl (fun s a => emit (.nvAdmin d a) s) up
        acts (.nvmeCstsRdy d true i) s (furlSettle (layDrive d i.label queued))) ∧
      (∀ i, driveMeets i = false → acts (.nvmeCstsRdy d true i) s (furlSettle (bad .rejected asked))) ∧
      acts (.nvmeCapToExpiry d) s (furlSettle (bad .rejected s))) ∧
    ((driveOf d s).st = .resetting →
      let ts := (driveOf d s).resetAt.filter (fun t => decide (s.time.mono < t + 600000000000)) ++ [s.time.mono]
      let s1 := modDrive d (fun u => { u with resetAt := ts, resets := sat32 u.resets 1 }) s
      (∀ i, ts.length < 3 → acts (.nvmeCstsRdy d false i) s (furlSettle (modDrive d (fun u => { u with st := .init }) s1))) ∧
      (∀ i, 3 ≤ ts.length → acts (.nvmeCstsRdy d false i) s (furlSettle (bad .failed s1))) ∧
      acts (.nvmeCapToExpiry d) s (furlSettle (bad .failed s))) ∧
    ((driveOf d s).st = .ready → acts (.nvmeControllerFatal d) s (furlSettle reset)) ∧
    ((driveOf d s).st ≠ .ready → acts (.nvmeControllerFatal d) s (furlSettle s)) ∧
    ((driveOf d s).st ≠ .absent → acts (.nvmeLinkDown d) s (furlSettle (reefNvme (furlSettle (driveLost d (failAll d
      (modDrive d (fun u => { u with st := .absent, width := 0, rate := 0, rxInv := 0, reversed := false }) s))))))) ∧
    ((driveOf d s).st = .absent → acts (.nvmeLinkDown d) s (furlSettle s)) ∧
    (let read := emit (.nvAdmin d .asyncEvent) (emit (.nvAdmin d (.getLog 2)) s)
     ∀ smart, acts (.nvmeAsyncEvent d smart) s (furlSettle (if smart % 256 = 0 then modDrive d (fun u => { u with smart := 0 }) read
      else raise (0x148 + d) (modDrive d (fun u => { u with smart := smart % 256 }) read)))))

/-- A drive's commands (from R463 - R465, R468, R469, R563): completion counts and hands its data, through the media key, to its client; a
transfer without its media key fails; an error that may be retried waits 1 ms and goes again once; a timeout fails the command to its
client and aborts it, a second one resets the drive; a completion of an aborted command is late; DMA gets the data of a write command
in its buffer, is served in the buffer of a read command and in the port's queues, and is rejected elsewhere. -/
def Obligations.DriveCommandsComplete : Prop :=
  ∀ d cid c s, d < 2 → halted s = false →
    let counted := modDrive d (fun u => match c.kind with
      | .read => { u with readBytes := min (2 ^ 64 - 1) (u.readBytes + 4096 * c.nlb) }
      | .write => { u with writeBytes := min (2 ^ 64 - 1) (u.writeBytes + 4096 * c.nlb) }
      | _ => u) s
    let keyed := c.lba = 0 ∨ mediaHeld d s = true
    let block := fun data i => padTo 4096 (slice data (4096 * i) 4096)
    let plain := fun data => (List.range c.nlb).flatMap (fun i => padTo 4096 ((if c.lba + i = 0 then block data i
      else Config.xtsDec (mediaKeyOf d (cmdDone d cid counted)) (leBytes 16 (c.lba + i)) (block data i)).take 4096))
    ((driveOf d s).cmds.find? (fun c => c.cid = cid && !c.waiting) = some c →
      (c.aborted = true → ∀ r, acts (.nvmeCommandCompletion d cid r) s
        (furlSettle (cmdDone d cid (modDrive d (fun u => { u with lateCpl := sat32 u.lateCpl 1 }) s)))) ∧
      (c.aborted = false → c.kind = .read ∨ c.kind = .write → ¬ keyed → ∀ data,
        acts (.nvmeCommandCompletion d cid (.ok data)) s (furlSettle (clientFail d c.client (cmdDone d cid s)))) ∧
      (c.aborted = false → c.client = .none → (c.kind ≠ .read ∧ c.kind ≠ .write) ∨ keyed → ∀ data,
        acts (.nvmeCommandCompletion d cid (.ok data)) s (furlSettle (cmdDone d cid counted))) ∧
      (c.aborted = false → keyed → ∀ k data, c.client = .restore k → c.kind = .read →
        clientIdle (.restore k) (memWrite c.loc (plain data) (cmdDone d cid counted)) = true →
        acts (.nvmeCommandCompletion d cid (.ok data)) s (furlSettle (furlSettle (restoreEnded k true
          (memWrite c.loc (plain data) (cmdDone d cid counted)))))) ∧
      (c.aborted = false → keyed → ∀ k data, c.client = .spill k → c.kind = .write → clientIdle (.spill k) (cmdDone d cid counted) = true →
        acts (.nvmeCommandCompletion d cid (.ok data)) s (furlSettle (furlSettle (spillEnded k true (cmdDone d cid counted))))) ∧
      (c.aborted = false → c.retried = false → acts (.nvmeCommandCompletion d cid (.err false)) s (furlSettle (modDrive d (fun u =>
        { u with cmds := u.cmds.map (fun x => if x.cid = cid then { x with waiting := true } else x) })
        (modDrive d (fun u => { u with errors := sat32 u.errors 1 }) s)))) ∧
      (∀ dnr, c.aborted = false → dnr = true ∨ c.retried = true → acts (.nvmeCommandCompletion d cid (.err dnr)) s
        (furlSettle (clientFail d c.client (cmdDone d cid (modDrive d (fun u => { u with errors := sat32 u.errors 1 }) s)))))) ∧
    ((driveOf d s).cmds = [c] → c.cid = cid → c.waiting = true → c.kind = .write → acts (.nvmeRetryDelay d cid) s (furlSettle
      (modDrive d (fun u => { u with
        readCmds := sat32 u.readCmds 0, writeCmds := sat32 u.writeCmds 1, deallocCmds := sat32 u.deallocCmds 0,
        cmds := [{ c with waiting := false, retried := true }] }) s))) ∧
    ((driveOf d s).cmds.find? (fun c => c.cid = cid) = some c →
      (c.aborted = false → acts (.nvmeCommandTimeout d cid) s (furlSettle (clientFail d c.client (raise (0x142 + d)
        (emit (.nvAdmin d (.abort cid)) (modDrive d (fun u => { u with
          timeouts := sat32 u.timeouts 1
          cmds := u.cmds.map (fun x => if x.cid = cid then { x with aborted := true, client := .none } else x) }) s)))))) ∧
      (c.aborted = true → acts (.nvmeCommandTimeout d cid) s
        (furlSettle (raise (0x144 + d) (failAll d (modDrive d (fun u => { u with st := .resetting }) s)))))) ∧
    (∀ a n,
      let holds := fun (c : NvCmd) => (c.kind = .read || c.kind = .write) && decide (c.loc ≤ a) && decide (a + n ≤ c.loc + 4096 * c.nlb)
      ((driveOf d s).cmds.find? holds = some c → c.kind = .read → acts (.nvmeDmaRequest d a n) s (furlSettle s)) ∧
      ((driveOf d s).cmds.find? holds = some c → c.kind = .write →
        let s1 := match c.client with | .reef _ => readQueue s | _ => s
        acts (.nvmeDmaRequest d a n) s (furlSettle (emit (.nvData d a (slice (mediaWrite d c s1) (a - c.loc) n)) s1))) ∧
      ((∀ c ∈ (driveOf d s).cmds, holds c = false) →
        (Config.nvmeQueue d a n = true → acts (.nvmeDmaRequest d a n) s (furlSettle s)) ∧
        (Config.nvmeQueue d a n = false → acts (.nvmeDmaRequest d a n) s
          (furlSettle (emit (.nvReject d a) (modDrive d (fun u => { u with dmaReject := sat32 u.dmaReject 1 }) s))))))

/-- The Bowsprit as arbiter and target, and its interrupt lines (from R477, R478, R483, R490 - R492, R494, R497, R499, R502, Tables 19.4, 19.7,
19.8): grants and bus faults; an inbound cycle before READY is answered RETRY, the Masthead window at once, a read of another window as
a delayed read; the fetch, the retrieval and the discard of its entry; a write is posted; a line's fall, repeat and rise. -/
def Obligations.BowspritTargetEventsComplete : Prop :=
  (∀ req idle two cyc s, plbRole s = 0 → pclkRuns s = true →
    let ran := fun s => modBow (fun b => { b with tenure := b.tenure + cyc }) s
    let s1 := ran (if two then raise 0x14D s else s)
    let arb := fun by_ t => acts (.plbArbitrate req idle by_ two cyc) s t
    (s1.bow.arb = .idle → (∀ n, idle = true → nextGrant req s1 = some n →
        arb none (modBow (fun b => { b with arb := .granted n, tenure := 0, lastGrant := n }) s1)) ∧
      (idle = false → arb none s1 ∧ ∀ m, arb (some m) (raise 0x14D s1)) ∧
      (idle = true → nextGrant req s1 = none → arb none s1)) ∧
    (∀ n by_, s1.bow.arb = .granted n →
      let s2 := if by_.any (fun m => m ≠ n) then raise 0x14D s1 else s1
      let other := ∃ m, m < 5 ∧ m ≠ n ∧ requests req s2 m = true
      (requests req s2 n = false → idle = true → arb by_ (modBow (fun b => { b with arb := .idle }) s2)) ∧
      (requests req s2 n = true ∨ idle = false → other → s2.bow.maxTenure ≤ s2.bow.tenure →
        arb by_ (modBow (fun b => { b with arb := .ending n }) s2)) ∧
      (requests req s2 n = true ∨ idle = false → ¬ other ∨ s2.bow.tenure < s2.bow.maxTenure → arb by_ s2)) ∧
    (∀ n by_, s1.bow.arb = .ending n →
      let s2 := if by_.any (fun m => m ≠ n) then raise 0x14D s1 else s1
      arb by_ (if idle then modBow (fun b => { b with arb := .idle }) s2 else s2))) ∧
  (∀ addr be burst beats owner i s, pclkRuns s = true → inboundWin addr s = some i →
    let own := if plbRole s = 0 then owner else none
    let n := if burst then beats else 1
    let same := fun k => let d := Tab.get s.bow.dreads k; !(d.st = .free) && d.addr = addr && d.be = be && d.burst = burst && d.owner = own
    let freeAt := firstIdx (fun k => (Tab.get s.bow.dreads k).st = .free) 0 4
    let read := fun t => acts (.plbInboundRead addr be burst beats owner) s t
    let open_ := plbServed s = true ∧ i ≠ 0 ∧ bowRuns s = true
    (plbServed s = false → read (plbReply .retry s)) ∧
    (plbServed s = true → i = 0 → read (plbReply (.ready (pmbRead (Tab.get s.bow.inw i) addr be n s)) s)) ∧
    (plbServed s = true → i ≠ 0 → bowRuns s = false → read (plbReply .retry s)) ∧
    (∀ k, open_ → firstIdx same 0 4 = some k →
      let d := Tab.get s.bow.dreads k
      (d.st = .complete → n ≤ d.words.length → read (plbReply (.ready (d.words.take n)) (modDread k (fun _ => {}) s))) ∧
      (d.st = .complete → d.words.length < n → read (plbReply (.err d.words) (modDread k (fun _ => {}) s))) ∧
      (d.st = .failed → read (plbReply (.err []) (modDread k (fun _ => {}) s))) ∧
      (d.st = .pending → read (plbReply .retry s))) ∧
    (∀ k, open_ → firstIdx same 0 4 = none → freeAt = some k → read (plbReply .retry (modDread k (fun _ =>
      { st := .pending, addr := addr, be := be, burst := burst, owner := own, win := i, after := s.bow.nextPost }) s))) ∧
    (open_ → firstIdx same 0 4 = none → freeAt = none → read (plbReply .retry s))) ∧
  (∀ addr be burst words rd s, pclkRuns s = true →
    let w := fun i => Tab.get s.bow.inw i
    let ws := if burst then words else words.take 1
    let bytes := fun i => (List.range ws.length).flatMap (fun k =>
      (inboundBytes (w i).width addr be k).map (fun c => (c.2, laneByte (ws.getD k 0) c.1)))
    (inboundWin addr s = none → acts (.plbInboundWrite addr be burst words rd) s s) ∧
    (∀ i, inboundWin addr s = some i → plbServed s = false → acts (.plbInboundWrite addr be burst words rd) s (plbReply .retry s)) ∧
    (inboundWin addr s = some 0 → plbServed s = true → (∀ c ∈ bytes 0, c.1 - (w 0).base ≠ 0x400) →
      acts (.plbInboundWrite addr be burst words rd) s
        (plbReply (.ready []) ((bytes 0).foldl (fun s c => pmbWriteByte rd.done (c.1 - (w 0).base) c.2 s) s))) ∧
    (∀ i, inboundWin addr s = some i → i ≠ 0 → plbServed s = true → bowRuns s = true → s.bow.wbuf.length < 8 → s.bow.dreads = [] →
      acts (.plbInboundWrite addr be burst words rd) s (plbReply (.ready []) (modBow (fun b => { b with
        wbuf := b.wbuf ++ [{ serial := b.nextPost, bytes := (bytes i).map (fun c => ((w i).toLocal c.1, c.2)) }]
        nextPost := b.nextPost + 1, dreads := [] }) s))) ∧
    (∀ i, inboundWin addr s = some i → i ≠ 0 → plbServed s = true → bowRuns s = false ∨ 8 ≤ s.bow.wbuf.length →
      acts (.plbInboundWrite addr be burst words rd) s (plbReply .retry s))) ∧
  (∀ i s, halted s = false → i < 4 →
    let d := Tab.get s.bow.dreads i
    (d.st = .pending → acts (.plbDelayedFetchDone i false) s (modDread i (fun d => { d with st := .failed }) (landBefore d.after s))) ∧
    (d.st = .pending →
      let s1 := landBefore d.after s
      let w := Tab.get s1.bow.inw d.win
      let a0 := w.toLocal (d.addr / lanesOf w.width * lanesOf w.width)
      let len := if d.burst then 4 * fetchBeats d else lanesOf w.width
      let bs := rawRead a0 len s1
      let word := fun k => laneWord ((inboundBytes w.width d.addr d.be k).map (fun c => (c.1, bs.getD (w.toLocal c.2 - a0) 0)))
      plbRegion a0 len s1 = true → rangeClean a0 len s1 = true → acts (.plbDelayedFetchDone i true) s (modDread i (fun d =>
        { d with st := .complete, words := (List.range (if d.burst then fetchBeats d else 1)).map word }) s1)) ∧
    (d.st = .complete ∨ d.st = .failed → acts (.plbDelayedReadDiscard i) s (raise 0x14E (modDread i (fun _ => {}) s)))) ∧
  (∀ n s, n < 8 →
    let r := Tab.get s.bow.routes n
    let acted := fun s => if r.target = 0 then raise (0x150 + n) s else if r.target = 1 then sendMsix 0 r.vec s else s
    (plbServed s = true → plbRole s < 2 → s.bow.low.getLsbD n = false →
      acts (.plbIrqAssert n) s (acted (modBow (fun b => { b with low := setBit b.low n true }) s))) ∧
    (plbServed s = true → plbRole s < 2 → s.bow.low.getLsbD n = true → r.level = true → acts (.plbIrqLevelRepeat n) s (acted s)) ∧
    (r.level = false → acts (.plbIrqLevelRepeat n) s s) ∧
    (2 ≤ plbRole s → acts (.plbIrqAssert n) s s ∧ acts (.plbIrqLevelRepeat n) s s) ∧
    acts (.plbIrqDeassert n) s (modBow (fun b => { b with low := setBit b.low n false }) s))

/-- The Bowsprit as master (from R480, R484, R488, R493, R495, R496): an access is queued and requests the bus, its cycle starts when the bus is
granted and idle, and its target's answers, waits and limits end the cycle or the access. -/
def Obligations.BowspritMasterEventsComplete : Prop :=
  (∀ f idle s, halted s = false → plbRole s ≠ 0 ∨ s.bow.arb ≠ .granted 4 →
    let w := Tab.get s.bow.outw f.win
    let n := match f.data with | some d => d.length | none => f.n
    (f.win < 8 → w.enable = true → f.off + n ≤ w.size → 0 < n → bowRuns s = true ∨ (bootPlb s = true ∧ f.win = 0 ∧ f.data = none) →
      acts (.plbOutboundAccess (some f) idle) s (modBow (fun b => { b with
        accs := b.accs ++ [{ read := f.data.isNone, n := n, cycles := accCycles w.width w.burstOk (w.base + f.off) n f.data }]
        mst := if b.mst = .idle then .requesting else b.mst, reqLow := plbRole s = 1 }) s)) ∧
    (8 ≤ f.win ∨ w.enable = false ∨ w.size < f.off + n →
      (f.data = none → acts (.plbOutboundAccess (some f) idle) s (emit (.plbRead (List.replicate f.n 0xFF)) s)) ∧
      (f.data ≠ none → acts (.plbOutboundAccess (some f) idle) s s))) ∧
  (∀ x xs c cs s, halted s = false → s.bow.mst = .requesting → pclkRuns s = true → plbServed s = true ∨ bootPlb s = true →
    s.bow.accs = x :: xs → x.cycles = c :: cs →
    let started := emit (.plbCycle c.addr c.be x.read c.burst c.words)
      (modBow (fun b => { b with mst := .active, reqLow := b.reqLow && !(xs.isEmpty && cs.isEmpty) }) s)
    (plbRole s = 1 → acts (.plbGrantReceived true) s started ∧ acts (.plbGrantReceived false) s s) ∧
    (plbRole s = 0 → s.bow.arb = .granted 4 → acts (.plbOutboundAccess none true) s started) ∧
    (plbRole s = 0 → s.bow.arb ≠ .granted 4 → acts (.plbOutboundAccess none true) s s)) ∧
  (∀ x xs s, s.bow.accs = x :: xs →
    let left := modBow (fun b => { b with accs := xs, mst := if xs.isEmpty then .idle else .requesting
                                          retries := 0, reqLow := !xs.isEmpty && decide (plbRole s = 1) }) s
    let failed := fun detail => match x.ref with
      | some r => finish r .fault detail [] (raise 0x14A left)
      | none => if x.read then emit (.plbRead (List.replicate x.n 0xFF)) (raise 0x14A left) else raise 0x14A left
    (s.bow.mst = .active →
      (∀ ws, acts (.plbTargetResponse (.err ws)) s (failed 1)) ∧ acts .plbNoResponse s (failed 1) ∧
      (255 ≤ s.bow.retries → acts (.plbTargetResponse .retry) s (failed 2)) ∧
      (s.bow.retries < 255 →
        acts (.plbTargetResponse .retry) s (modBow (fun b => { b with mst := .waiting, retries := b.retries + 1, reqLow := false }) s)) ∧
      (∀ ws c c2 cs, x.cycles = c :: c2 :: cs → acts (.plbTargetResponse (.ready ws)) s (modBow (fun b => { b with mst := .requesting })
        (modBow (fun b => { b with accs := { takeBeats x c ws with cycles := c2 :: cs } :: xs, retries := 0 }) s))) ∧
      (∀ ws c r, x.cycles = [c] → x.ref = some r → x.read = true → acts (.plbTargetResponse (.ready ws)) s
        (finish r .ok 0 (leBytes 4 (beNat (Tab.getList (takeBeats x c ws).got 0 x.n))) left))) ∧
    (s.bow.mst = .requesting → halted s = false → acts .plbGrantTimeout s (failed 3)) ∧
    (s.bow.mst = .waiting → halted s = false →
      acts .plbRetryWait s (modBow (fun b => { b with mst := .requesting, reqLow := plbRole s = 1 }) s)))

/-! ### Management and the rack -/

/-- SMB1, the test port, the debug challenge and the time unit (from R560, R625, R627, R628, R636, R638 - R647, Table 24.3): the outcome of a
poll and of its retry, the register that each TAP instruction selects, PTP messages that are accepted and the offset they give, PPS
edges, and the fall of SYNCED. -/
def Obligations.ManagementEventsComplete : Prop :=
  (∀ s, acts .debugNonceExpiry s { s with sec := { s.sec with chal := none } }) ∧
  (∀ a s, smb1Runs s = true → (Tab.get s.smb1.devs a).listed = true → s.smb1.retry = none →
    let e := emit (.smb1Read a) s
    (∀ w, acts (.smb1Poll a (.word w)) s (modSmb1 a (fun d => { d with word := w, status := 0, readAt := s.time.mono, naks := 0, absent := false }) e)) ∧
    acts (.smb1Poll a .nak) s (modSmb1 a (fun d => { d with status := 1, naks := min 3 (d.naks + 1), absent := d.absent || decide (2 ≤ d.naks) }) e) ∧
    acts (.smb1Poll a .lost) s { e with smb1 := { e.smb1 with arbLost := e.smb1.arbLost + 1, retry := some (a, 1) } }) ∧
  (∀ a t s, smb1Runs s = true → s.smb1.retry = some (a, t) →
    let e := emit (.smb1Read a) s
    (∀ w, let e1 := modSmb1 a (fun d => { d with word := w, status := 0, readAt := s.time.mono, naks := 0, absent := false }) e
      acts (.smb1ArbRetry a (.word w)) s { e1 with smb1 := { e1.smb1 with retry := none } }) ∧
    (t < 8 → acts (.smb1ArbRetry a .lost) s { e with smb1 := { e.smb1 with arbLost := e.smb1.arbLost + 1, retry := some (a, t + 1) } }) ∧
    (8 ≤ t → acts (.smb1ArbRetry a .lost) s (raise 0x183 (modSmb1 a (fun d => { d with status := 2 })
      { e with smb1 := { e.smb1 with arbLost := e.smb1.arbLost + 1, retry := none } })))) ∧
  (∀ s, s.dev.mode ≠ .cold →
    let loads := fun (c : Instr) (ir : Nat) (r : JtagReg) => answers c s { s with jtag := { ir := ir, reg := r } }
    loads .jtagTapReset 1 .idcode ∧ loads .jtagIdcode 1 .idcode ∧ loads .jtagSamplePreload 2 .boundary ∧ loads .jtagExtest 3 .boundary ∧
    loads .jtagExtestPulse 4 .boundary ∧ loads .jtagExtestTrain 5 .boundary ∧ loads .jtagClamp 6 .bypass ∧ loads .jtagHighz 7 .bypass ∧
    loads .jtagDbgStatus 0x10 .dbgStatus ∧
    (∀ ir, 0x20 ≤ ir → ir ≤ 0x27 → (s.sec.lock = .opened → loads (.jtagPrivateDebugAccess ir) ir .privateDebug) ∧
      (s.sec.lock ≠ .opened → loads (.jtagPrivateDebugAccess ir) ir .bypass)) ∧
    (∀ ir, ir < 256 → ir = 0 ∨ (6 ≤ ir ∧ ir ≠ 0x10) → loads (.jtagBypass ir) ir .bypass)) ∧
  (∀ s, s.dev.mode = .cold → answers .jtagIdcode s s ∧ answers .jtagDbgStatus s s ∧ ∀ ir, answers (.jtagBypass ir) s s) ∧
  (∀ s, tapReg s = if s.jtag.reg = .privateDebug ∧ s.sec.lock ≠ .opened then .bypass else s.jtag.reg) ∧
  (∀ m s, disciplined s = true → tclkRuns s = true → s.dev.mode ≠ .safe → s.time.source = 1 ∨ s.time.source = 2 →
    m.port + 1 = s.time.source → m.gmId = s.rack.view.gmId → m.domain = s.time.ptpDomain →
    acts (.ptpSync m) s { s with time := { s.time with
      syncSeq := m.seqId, syncRx := some (todNs s.time), syncTx := if m.twoStep then none else some m.stamp } } ∧
    (s.time.syncRx.isSome = true → s.time.syncSeq = m.seqId → acts (.ptpFollowUp m) s { s with time := { s.time with syncTx := some m.stamp } }) ∧
    (∀ t2 t1 t3, s.time.delaySeq = m.seqId → s.time.syncRx = some t2 → s.time.syncTx = some t1 → s.time.delayTx = some t3 →
      acts (.ptpDelayResp m) s (servo (((t2 - t1) - (m.stamp - t3)) / 2)
        { s with time := { s.time with syncRx := none, syncTx := none, delayTx := none } })) ∧
    (let p := s.time.source - 1
     let q := wrapInc 16 s.time.delaySeq
     let s1 : State := { s with time := { s.time with delaySeq := q, delayTx := none } }
     (fnRunning p s = true → acts .delayReqTimer s (offer p 7 { frame := Config.delayReqFrame p q, delayReq := some q } s1)) ∧
     (fnRunning p s = false → acts .delayReqTimer s s1))) ∧
  (∀ m s, m.gmId ≠ s.rack.view.gmId ∨ m.domain ≠ s.time.ptpDomain ∨ disciplined s = false →
    acts (.ptpSync m) s s ∧ acts (.ptpFollowUp m) s s ∧ acts (.ptpDelayResp m) s s) ∧
  (∀ low s, tclkRuns s = true → 100 ≤ low →
    let late := match s.time.ppsInLast with | some a => a + 500000000 ≤ s.time.mono | none => True
    let taken : State := { s with time := { s.time with ppsInLast := some s.time.mono } }
    let x := (todNs s.time - s.time.ppsDelay) % 1000000000
    (¬ late → acts (.ppsInEdge low) s { s with time := { s.time with ppsIgnored := s.time.ppsIgnored + 1 } }) ∧
    (late → disciplined s = true → s.time.source = 3 →
      acts (.ppsInEdge low) s (servo (if 500000000 ≤ x then x - 1000000000 else x) taken)) ∧
    (late → disciplined s = false ∨ s.time.source ≠ 3 → acts (.ppsInEdge low) s taken)) ∧
  (∀ low s, low < 100 → acts (.ppsInEdge low) s s) ∧
  (∀ s, tclkRuns s = true → s.time.ppsOutEn = true → disciplined s = true →
    answers .ppsOutPulse s { s with time := { s.time with ppsOut := true } }) ∧
  (∀ s, disciplined s = false ∨ s.time.ppsOutEn = false → answers .ppsOutPulse s s) ∧
  (∀ s, answers .ppsOutEnd s { s with time := { s.time with ppsOut := false } }) ∧
  (∀ s, (s.time.synced = true → acts .syncedStale s (raise 0x182 { s with time := { s.time with synced := false } })) ∧
    (s.time.synced = false → acts .syncedStale s s))

/-- The Ratline, the persistent store and the rack's messages and timers (from R649 - R651, R653, R655, R658, R667, R668, R671, R673, R674,
R676, R677, Tables 24.5, 25.5, 25.7). -/
def Obligations.RatlinePstoreAndRackEventsComplete : Prop :=
  (∀ temp s, rlRuns s = true → acts (.ratlinePeriodicEntry temp) s
    (emit (.ratline (rlFrame (leBytes 1 0xA5 ++ leBytes 1 1 ++ leBytes 1 0 ++ rlEntry 0 temp s))) { s with rl := { s.rl with temp := temp } })) ∧
  (∀ f s, rlRuns s = true → rlValid f = true → fieldN f 0 1 = 0xA5 →
    (fieldN f 3 1 = devNum s → acts (.ratlineEntry f) s
      { s with rl := { s.rl with ringSize := some (fieldN f 1 1), orphaned := if fieldN f 2 1 = 0 then false else s.rl.orphaned } }) ∧
    (fieldN f 3 1 ≠ devNum s → s.rl.sweep = none →
      let s1 : State := { s with rl := { s.rl with view := Tab.put s.rl.view (fieldN f 1 1) (some { bytes := slice f 3 8, at_ := s.time.mono }) } }
      (fieldN f 1 1 < 64 → acts (.ratlineEntry f) s
        (emit (.ratline (rlFrame (leBytes 1 (fieldN f 0 1) ++ leBytes 1 (fieldN f 1 1 + 1) ++ slice f 2 9))) s1)) ∧
      (fieldN f 1 1 = 64 → acts (.ratlineEntry f) s s1))) ∧
  (∀ f temp s, rlRuns s = true → rlValid f = true → fieldN f 0 1 = 0x5A →
    (fieldN f 3 1 ≠ devNum s → acts (.ratlineSweepFrame f temp) s (rlSendEntry (fieldN f 2 1) temp (rlForward f s))) ∧
    (∀ w, fieldN f 3 1 = devNum s → s.rl.sweep = some w → w.seq = fieldN f 2 1 →
      let n := fieldN f 1 1
      let held : State := { s with rl := { s.rl with ringSize := some n, sweep := some { w with ring := some n } } }
      ((List.range (n - 1)).all (fun i => w.fresh.contains (i + 1)) = true → acts (.ratlineSweepFrame f temp) s
        (finish w.cmd .ok 0 (rlResult false { w with ring := some n } held) { held with rl := { held.rl with sweep := none } })) ∧
      ((List.range (n - 1)).all (fun i => w.fresh.contains (i + 1)) = false → acts (.ratlineSweepFrame f temp) s held))) ∧
  (∀ f temp s, rlValid f = false → acts (.ratlineEntry f) s s ∧ acts (.ratlineSweepFrame f temp) s s) ∧
  (∀ w s, halted s = false → s.rl.sweep = some w → acts .ratlineSweepTimeout s
    (raise 0x184 (finish w.cmd .fault 1 (rlResult true w s) { s with rl := { s.rl with sweep := none } }))) ∧
  (∀ s, rlRuns s = true → s.rl.orphaned = false → acts .ratlineOrphanTimeout s (raise 0x184 { s with rl := { s.rl with orphaned := true } })) ∧
  (∀ w s, s.dev.mode ≠ .safe → s.ps.writing = some w →
    let s1 : State := { s with ps := { s.ps with slots := Tab.mod s.ps.slots (2 * w.record + b2n w.slotB) (psApply w) } }
    acts (.pstoreFlashOpDone false) s (raise 0x185 (psEnd .fault 4 s)) ∧
    (w.step = .commit → acts (.pstoreFlashOpDone true) s (psEnd .ok 0 s1)) ∧
    (w.step ≠ .commit → s.pins.pwrFallen = true → acts (.pstoreFlashOpDone true) s (psEnd .again 0 s1)) ∧
    (∀ n, psStepNext w = some n → s.pins.pwrFallen = false →
      acts (.pstoreFlashOpDone true) s { s1 with ps := { s1.ps with writing := some { w with step := n } } })) ∧
  (∀ src b s, mhRuns s = true → speaks s = true → src < 72 →
    (b.length < 4 ∨ fieldN b 1 1 ≠ 1 ∨ fieldN b 2 2 ≠ b.length →
      let counted : State := { s with rack := { s.rack with discarded := s.rack.discarded + 1 } }
      (fieldN b 0 1 = 1 → acts (.announce src b) s counted) ∧ (fieldN b 0 1 = 2 → acts (.leave src b) s counted)) ∧
    (fieldN b 0 1 = 1 → fieldN b 1 1 = 1 → fieldN b 2 2 = 340 → b.length = 340 → fieldN b 4 1 < 72 →
      acts (.announce src b) s
        (if Config.ecdsaVerify (slice b 148 96) (sha384 (b.take 244)) (slice b 244 96) then rxAnnounce b s else rackDiscard s)) ∧
    (fieldN b 0 1 = 2 → fieldN b 1 1 = 1 → fieldN b 2 2 = 8 → b.length = 8 →
      acts (.leave src b) s (modPeer src (fun p => { p with left := true }) s))) ∧
  (∀ b s, fieldN b 4 1 ≠ devNum s →
    let a : PeerAnn := { state := fieldN b 5 1, mstate := fieldN b 6 1, epoch := fieldN b 8 8, serial := fieldN b 28 8,
                         ecdh := slice b 52 96, fresh := true }
    rxAnnounce b s = modPeer (fieldN b 4 1) (fun p => { p with left := false, ann := some a }) s) ∧
  (∀ s, mhRuns s = true → speaks s = true → acts .announceTimerEv s
    (modRack (fun r => { r with said := sayNow s }) (staySend 0x7F 3 3 0 (announceMsg s) true s))) ∧
  (∀ s, mhRuns s = true → (s.rack.mstate = .grace → acts .graceExpiryEv s (enterQuarantine 0b0010 s)) ∧
    (s.rack.mstate ≠ .grace → acts .graceExpiryEv s s) ∧
    acts .rmuLostTimeout s { s with rack := { s.rack with rmuLost := true } } ∧
    acts .oldEpochWindowExpiry s { s with rack := { s.rack with oldWindow := false } }) ∧
  (∀ e s, mhRuns s = true → e < 72 →
    acts (.activeMemberExpiry e) s (modPeer e (fun p => { p with ann := p.ann.map (fun a => { a with fresh := false }) }) s) ∧
    (activeMember e s = true → acts (.systemConnExpiry e) s s) ∧
    (∀ i, activeMember e s = false → (peerOf e s).sysConn = some i → acts (.systemConnExpiry e) s
      (connClose i true none (modPeer e (fun p => { p with sysConn := none }) s))))
end

