-- ==== Sys2Proof/Laws/Acts.lean ====
section
/-! SUPPORT. How an event's answer follows from its effect, for each guard under which events act. -/

namespace Sys2Proof.Safety

open Sys2Proof.Machine

theorem answers_of {i : Instr} {s t u : State} (hx : exec i s = .next u) (h : u = t) : answers i s t := by
  unfold answers; rw [hx, h]

theorem acts_of {i : Instr} {f : State → State} {s t : State} (hx : exec i s = .next (settle (f s))) (h : f s = t) : acts i s t := by
  unfold acts answers; rw [hx, h]

theorem rail_of {i : Instr} {f : State → State} {die : Nat} {s t : State} (hx : exec i s = actRail die f s) (h1 : die < 2)
    (h2 : railsActive s = true) (h : f s = t) : acts i s t := by
  unfold acts answers; rw [hx, ← h]; simp [actRail, h1, h2]

/-- The AVS rows: they act wherever the AVS side reads the rails. -/
theorem avs_of {i : Instr} {f : State → State} {die : Nat} {s t : State} (hx : exec i s = actAvs die f s) (h1 : die < 2)
    (h2 : avsReads s = true) (h : f s = t) : acts i s t := by
  unfold acts answers; rw [hx, ← h]; simp [actAvs, h1, h2]

theorem avsReads_of_railsActive {s : State} (h : railsActive s = true) : avsReads s = true := by
  simp only [railsActive, avsReads, Bool.and_eq_true, decide_eq_true_eq] at *
  simp_all; omega

theorem live_of {i : Instr} {f : State → State} {s t : State} (hx : exec i s = actLive f s) (h1 : halted s = false) (h : f s = t) :
    acts i s t := by
  unfold acts answers; rw [hx, ← h]; simp [actLive, h1]

theorem serve_of {i : Instr} {f : State → State} {s t : State} (hx : exec i s = actServe f s) (h1 : mhRuns s = true) (h : f s = t) :
    acts i s t := by
  unfold acts answers; rw [hx, ← h]; simp [actServe, h1]

theorem link_of {i : Instr} {f : State → State} {k : Nat} {s t : State} (hx : exec i s = actLink k f s) (h1 : k < 12)
    (h2 : s.dev.mode ≠ .cold) (h3 : lclkRuns s = true) (h : f s = t) : acts i s t := by
  unfold acts answers; rw [hx, ← h]; simp [actLink, h1, h2, h3]

theorem drive_of {i : Instr} {f : State → State} {d : Nat} {s t : State} (hx : exec i s = actDrive d f s) (h1 : d < 2)
    (h2 : halted s = false) (h : furlSettle (f s) = t) : acts i s t := by
  unfold acts answers; rw [hx, ← h]; simp [actDrive, h1, h2]

end Sys2Proof.Safety
end

