-- ==== Sys2Proof/Laws/Tab.lean ====
section
/-! SUPPORT. Sparse tables: what `put` leaves at each index, and that every operation keeps the canonical form. -/

namespace Sys2Proof.Machine

variable {α : Type} [Inhabited α]

@[simp] theorem Tab.get_nil (i : Nat) : Tab.get ([] : Tab α) i = default := rfl

@[simp] theorem Tab.get_cons (k : Nat) (v : α) (t : Tab α) (i : Nat) :
    Tab.get ((k, v) :: t) i = if k = i then v else Tab.get t i := rfl

variable [DecidableEq α]

/-- Another index reads as before, whatever is put. -/
theorem Tab.get_put_ne (t : Tab α) {i j : Nat} (v : α) (h : j ≠ i) : Tab.get (Tab.put t i v) j = Tab.get t j := by
  induction t with
  | nil => unfold Tab.put; split <;> simp [Ne.symm h]
  | cons c t ih =>
    obtain ⟨k, w⟩ := c
    unfold Tab.put
    repeat' split
    all_goals simp_all [Ne.symm h]
    all_goals
      have hk : ¬ k = j := fun e => h e.symm
      simp [hk]

/-- A value that is not the default is read back, in every table. -/
theorem Tab.get_put_self_of_ne (t : Tab α) (i : Nat) {v : α} (h : v ≠ default) : Tab.get (Tab.put t i v) i = v := by
  induction t with
  | nil => simp [Tab.put, h]
  | cons c t ih =>
    obtain ⟨k, w⟩ := c
    unfold Tab.put
    repeat' split
    all_goals simp_all
    all_goals omega

/-- Nothing is listed below the bound of a canonical tail. -/
theorem Tab.get_of_wfFrom : ∀ {t : Tab α} {lo i : Nat}, Tab.wfFrom lo t = true → i < lo → Tab.get t i = default
  | [], _, _, _, _ => rfl
  | (k, v) :: t, lo, i, h, hi => by
    simp only [Tab.wfFrom, Bool.and_eq_true, decide_eq_true_eq] at h
    obtain ⟨⟨h1, _⟩, h3⟩ := h
    have : k ≠ i := by omega
    simp only [Tab.get_cons, this, if_false]
    exact Tab.get_of_wfFrom h3 (by omega)

theorem Tab.wfFrom_mono : ∀ {t : Tab α} {lo lo' : Nat}, lo' ≤ lo → Tab.wfFrom lo t = true → Tab.wfFrom lo' t = true
  | [], _, _, _, _ => rfl
  | (k, v) :: t, lo, lo', h, hw => by
    simp only [Tab.wfFrom, Bool.and_eq_true, decide_eq_true_eq] at hw ⊢
    exact ⟨⟨by omega, hw.1.2⟩, hw.2⟩

/-- Whatever is put is read back, in a canonical table. -/
theorem Tab.get_put_self_from : ∀ {t : Tab α} {lo : Nat} (i : Nat) (v : α), Tab.wfFrom lo t = true → Tab.get (Tab.put t i v) i = v
  | [], _, i, v, _ => by unfold Tab.put; split <;> simp_all
  | (k, w) :: t, lo, i, v, h => by
    simp only [Tab.wfFrom, Bool.and_eq_true, decide_eq_true_eq] at h
    obtain ⟨⟨_, h2⟩, h3⟩ := h
    unfold Tab.put
    by_cases h4 : i < k
    · simp only [h4, if_true]
      split
      · next e =>
        have : k ≠ i := by omega
        simp only [Tab.get_cons, this, if_false, e]
        exact Tab.get_of_wfFrom h3 (by omega)
      · simp
    · by_cases h5 : i = k
      · subst h5
        simp only [h4, if_false, if_true]
        split
        · next e => rw [e]; exact Tab.get_of_wfFrom h3 (by omega)
        · simp
      · have : k ≠ i := fun e => h5 e.symm
        simp only [h4, if_false, h5, Tab.get_cons, this]
        exact Tab.get_put_self_from i v h3

theorem Tab.get_put_self {t : Tab α} (h : t.wf = true) (i : Nat) (v : α) : Tab.get (Tab.put t i v) i = v :=
  Tab.get_put_self_from i v h

/-- What a canonical table reads after a put. -/
theorem Tab.get_put {t : Tab α} (h : t.wf = true) (i j : Nat) (v : α) : Tab.get (Tab.put t i v) j = if j = i then v else Tab.get t j := by
  split
  · next e => subst e; exact Tab.get_put_self h j v
  · next e => exact Tab.get_put_ne t v e

/-! ### The canonical form is kept -/

theorem Tab.wfFrom_put : ∀ {t : Tab α} {lo : Nat} (i : Nat) (v : α), Tab.wfFrom lo t = true → lo ≤ i → Tab.wfFrom lo (Tab.put t i v) = true
  | [], lo, i, v, _, hi => by
    unfold Tab.put; split
    · rfl
    · next e => simp [Tab.wfFrom, hi, e]
  | (k, w) :: t, lo, i, v, h, hi => by
    have h0 := h
    simp only [Tab.wfFrom, Bool.and_eq_true, decide_eq_true_eq] at h
    obtain ⟨⟨h1, h2⟩, h3⟩ := h
    unfold Tab.put
    by_cases h4 : i < k
    · simp only [h4, if_true]
      split
      · exact h0
      · next e => simp only [Tab.wfFrom, Bool.and_eq_true, decide_eq_true_eq]; exact ⟨⟨hi, e⟩, ⟨by omega, h2⟩, h3⟩
    · by_cases h5 : i = k
      · subst h5
        simp only [h4, if_false, if_true]
        split
        · exact Tab.wfFrom_mono (by omega) h3
        · next e => simp only [Tab.wfFrom, Bool.and_eq_true, decide_eq_true_eq]; exact ⟨⟨hi, e⟩, h3⟩
      · simp only [h4, if_false, h5, Tab.wfFrom, Bool.and_eq_true, decide_eq_true_eq]
        exact ⟨⟨h1, h2⟩, Tab.wfFrom_put i v h3 (by omega)⟩

/-- Putting a value keeps the canonical form. -/
theorem Tab.wf_put {t : Tab α} (h : t.wf = true) (i : Nat) (v : α) : (Tab.put t i v).wf = true := Tab.wfFrom_put i v h (Nat.zero_le i)

theorem Tab.wf_mod {t : Tab α} (h : t.wf = true) (i : Nat) (f : α → α) : (Tab.mod t i f).wf = true := Tab.wf_put h i _

theorem Tab.wf_putList : ∀ (vs : List α) {t : Tab α} (i : Nat), t.wf = true → (Tab.putList t i vs).wf = true
  | [], _, _, h => h
  | v :: vs, _, i, h => Tab.wf_putList vs (i + 1) (Tab.wf_put h i v)

omit [DecidableEq α] [Inhabited α] in
theorem Tab.dropIf_cons (c : Nat × α) (t : Tab α) (p : Nat → α → Bool) :
    Tab.dropIf (c :: t) p = if p c.1 c.2 then Tab.dropIf t p else c :: Tab.dropIf t p := by
  unfold Tab.dropIf
  rw [List.filter_cons]
  cases p c.1 c.2 <;> simp

theorem Tab.wfFrom_dropIf (p : Nat → α → Bool) : ∀ {t : Tab α} {lo : Nat}, Tab.wfFrom lo t = true → Tab.wfFrom lo (Tab.dropIf t p) = true
  | [], _, _ => rfl
  | (k, v) :: t, lo, h => by
    simp only [Tab.wfFrom, Bool.and_eq_true, decide_eq_true_eq] at h
    obtain ⟨⟨h1, h2⟩, h3⟩ := h
    rw [Tab.dropIf_cons]
    split
    · exact Tab.wfFrom_mono (by omega) (Tab.wfFrom_dropIf p h3)
    · simp only [Tab.wfFrom, Bool.and_eq_true, decide_eq_true_eq]; exact ⟨⟨h1, h2⟩, Tab.wfFrom_dropIf p h3⟩

theorem Tab.wf_dropIf {t : Tab α} (h : t.wf = true) (p : Nat → α → Bool) : (Tab.dropIf t p).wf = true := Tab.wfFrom_dropIf p h

theorem Tab.wfFrom_mapAll (f : Nat → α → α) : ∀ {t : Tab α} {lo : Nat}, Tab.wfFrom lo t = true → Tab.wfFrom lo (Tab.mapAll t f) = true
  | [], _, _ => rfl
  | (k, v) :: t, lo, h => by
    simp only [Tab.wfFrom, Bool.and_eq_true, decide_eq_true_eq] at h
    obtain ⟨⟨h1, _⟩, h3⟩ := h
    have ih := Tab.wfFrom_mapAll f h3
    unfold Tab.mapAll at ih ⊢
    rw [List.map_cons, List.filter_cons]
    split
    · next e =>
      simp only [Tab.wfFrom, Bool.and_eq_true, decide_eq_true_eq]
      exact ⟨⟨h1, by simpa using e⟩, ih⟩
    · exact Tab.wfFrom_mono (by omega) ih

theorem Tab.wf_mapAll {t : Tab α} (h : t.wf = true) (f : Nat → α → α) : (Tab.mapAll t f).wf = true := Tab.wfFrom_mapAll f h

theorem Tab.wfFrom_gen (f : Nat → α) : ∀ (n : Nat) {lo i : Nat}, lo ≤ i → Tab.wfFrom lo (Tab.gen f i n) = true
  | 0, _, _, _ => rfl
  | n + 1, lo, i, h => by
    unfold Tab.gen
    split
    · exact Tab.wfFrom_gen f n (by omega)
    · next e => simp only [Tab.wfFrom, Bool.and_eq_true, decide_eq_true_eq]; exact ⟨⟨h, e⟩, Tab.wfFrom_gen f n (Nat.le_refl _)⟩

theorem Tab.wf_gen (f : Nat → α) (i n : Nat) : (Tab.gen f i n).wf = true := Tab.wfFrom_gen f n (Nat.zero_le i)

/-- A canonical list whose indices stay below a bound, followed by one that begins there. -/
theorem Tab.wfFrom_append {b : Tab α} {m : Nat} : ∀ {a : Tab α} {lo : Nat}, Tab.wfFrom lo a = true → (∀ c ∈ a, c.1 < m) →
    Tab.wfFrom m b = true → lo ≤ m → Tab.wfFrom lo (a ++ b) = true
  | [], _, _, _, hb, hl => Tab.wfFrom_mono hl hb
  | (k, v) :: a, lo, ha, hm, hb, _ => by
    simp only [Tab.wfFrom, Bool.and_eq_true, decide_eq_true_eq] at ha
    obtain ⟨⟨h1, h2⟩, h3⟩ := ha
    simp only [List.cons_append, Tab.wfFrom, Bool.and_eq_true, decide_eq_true_eq]
    have hk : k < m := hm (k, v) (by simp)
    exact ⟨⟨h1, h2⟩, Tab.wfFrom_append h3 (fun c hc => hm c (by simp [hc])) hb (by omega)⟩

theorem Tab.gen_bounds (f : Nat → α) : ∀ (n i : Nat), ∀ c ∈ Tab.gen f i n, c.1 < i + n
  | 0, _, _, h => by simp [Tab.gen] at h
  | n + 1, i, c, h => by
    unfold Tab.gen at h
    split at h
    · have := Tab.gen_bounds f n (i + 1) c h; omega
    · simp only [List.mem_cons] at h
      rcases h with h | h
      · subst h; simp
      · have := Tab.gen_bounds f n (i + 1) c h; omega

theorem Tab.wfFrom_filter_ge {t : Tab α} : ∀ {lo m : Nat}, Tab.wfFrom lo t = true →
    Tab.wfFrom m (t.filter (fun c => decide (m ≤ c.1))) = true := by
  induction t with
  | nil => intros; rfl
  | cons c t ih =>
    obtain ⟨k, v⟩ := c
    intro lo m h
    simp only [Tab.wfFrom, Bool.and_eq_true, decide_eq_true_eq] at h
    obtain ⟨⟨_, h2⟩, h3⟩ := h
    rw [List.filter_cons]
    split
    · next e =>
      have e' : m ≤ k := by simpa using e
      simp only [Tab.wfFrom, Bool.and_eq_true, decide_eq_true_eq]
      refine ⟨⟨e', h2⟩, ?_⟩
      have := Tab.wfFrom_dropIf (fun i _ => !decide (m ≤ i)) h3
      unfold Tab.dropIf at this
      simpa using this
    · exact ih h3

/-- Replacing a run of values keeps the canonical form. -/
theorem Tab.wf_putRange {t : Tab α} (h : t.wf = true) (i n : Nat) (f : Nat → α) : (Tab.putRange t i n f).wf = true := by
  unfold Tab.putRange Tab.wf
  have h1 : Tab.wfFrom 0 (t.filter (fun c => decide (c.1 < i))) = true := by
    have := Tab.wfFrom_dropIf (fun j _ => !decide (j < i)) h
    unfold Tab.dropIf at this
    simpa using this
  refine Tab.wfFrom_append (m := i + n) (Tab.wfFrom_append (m := i) h1 ?_ (Tab.wfFrom_gen f n (Nat.le_refl i)) (Nat.zero_le _)) ?_
    (Tab.wfFrom_filter_ge h) (Nat.zero_le _)
  · intro c hc; simpa using (List.mem_filter.1 hc).2
  · intro c hc
    rcases List.mem_append.1 hc with hc | hc
    · have : c.1 < i := by simpa using (List.mem_filter.1 hc).2
      omega
    · exact Tab.gen_bounds f n i c hc

end Sys2Proof.Machine
end

