-- ==== Sys2Proof/Laws/Arrive.lean ====
section
/-! SUPPORT. How a command that arrives alone runs: the row it names, with what follows, and nothing before it. -/

namespace Sys2Proof.Safety

open Sys2Proof.Machine

theorem checks_pass (cs : List (Bool × Status × Nat)) (k) (s : State) (h : cs.all (fun x => !x.1) = true) : checks cs k s = k () := by
  induction cs with
  | nil => rfl
  | cons c cs ih =>
    obtain ⟨b, st, d⟩ := c
    simp only [List.all_cons, Bool.and_eq_true, Bool.not_eq_true'] at h
    simp only [checks, h.1]; exact ih h.2

theorem postDirects_ring (s : State) (h : ∀ o ∈ s.host.cmds, o.cmd.mb < 16) : postDirects s = s := by
  unfold postDirects
  have : s.host.cmds.filter (fun o => decide (16 ≤ o.cmd.mb)) = [] := by
    rw [List.filter_eq_nil_iff]; intro o ho; have := h o ho; simp; omega
  rw [this]; rfl

theorem postDirects_queued (c : Cmd) (s t : State) (h : s.host.cmds = [outstOf c .queued t]) : postDirects s = s := by
  unfold postDirects
  rw [h]
  by_cases e : 16 ≤ (outstOf c .queued t).cmd.mb
  · rw [List.filter_cons_of_pos (by simpa using e)]; rfl
  · rw [List.filter_cons_of_neg (by simpa using e)]; rfl

theorem accept_cmds (c : Cmd) (s : State) (h : s.host.cmds = []) : (accept c .queued s).host.cmds = [outstOf c .queued s] := by
  simp [accept, h, modMbx, outstOf]

theorem settle_accept (c : Cmd) (s : State) (h3 : s.host.cmds = []) (hm : mhRuns s = true) (hmb : c.mb < 17)
    (hf : frozenWait (outstOf c .queued s) s = false) (hy : copyWait (outstOf c .queued s) s = false)
    (hp : headPass c (begun c s) = true) : settle (accept c .queued s) = followUp (runs c s) := by
  have hm' : mhRuns (accept c .queued s) = true := hm
  have hc := accept_cmds c s h3
  unfold settle mastheadSettles
  rw [if_pos hm']
  have hpd := postDirects_queued c (accept c .queued s) s hc
  simp only [hpd, hc, List.length_singleton]
  have hn : nextStart [] (accept c .queued s).host.cmds (accept c .queued s) = some (outstOf c .queued s) := by
    rw [hc]; simp only [nextStart]
    rw [if_pos]
    unfold startable
    have hff : frozenWait (outstOf c .queued s) (accept c .queued s) = false := hf
    have hyy : copyWait (outstOf c .queued s) (accept c .queued s) = false := hy
    rw [hff, hyy]
    simp [outstOf]
  have hs : startCmd (outstOf c .queued s) (accept c .queued s) = runs c s := by
    have e1 : modCmd (c.mb, s.host.nextId) (fun p => { p with prog := .running }) (accept c .queued s)
        = { s with host := { s.host with
              mbx := Tab.mod s.host.mbx c.mb (fun m => { m with nextSeq := wrapInc 32 m.nextSeq, fetched := m.fetched + 1 })
              cmds := [outstOf c .running s], nextId := s.host.nextId + 1 } } := by
      unfold modCmd; rw [hc]; simp [isRef, outstOf, accept, modMbx]
    have hcmd : (outstOf c .queued s).cmd = c := rfl
    have hid : (outstOf c .queued s).id = s.host.nextId := rfl
    have hdup : (outstOf c .queued s).dup = false := rfl
    have key : ∀ X, X = begun c s → (checks (headChecks c false X) (fun _ => doRow c (c.mb, s.host.nextId) X) X) = doRow c (refOf c s) (begun c s) := by
      intro X hX; subst hX; rw [checks_pass _ _ _ hp]; rfl
    unfold startCmd
    simp only [hcmd, hid, hdup, e1]
    cases hsa : sourceAddr c with
    | none =>
      rw [key _ (by unfold begun; rw [hsa])]
      unfold runs completed pending
      generalize doRow c (refOf c s) (begun c s) = res
      obtain ⟨s2, a⟩ := res
      cases a <;> rfl
    | some a =>
      have h19 : c.mb ≠ 19 := by omega
      simp only [h19, decide_false, Bool.or_false, decide_eq_true_eq]
      rw [key _ (by unfold begun; rw [hsa]; rfl)]
      unfold runs completed pending
      generalize doRow c (refOf c s) (begun c s) = res
      obtain ⟨s2, a⟩ := res
      cases a <;> rfl
  have hst : ∀ n, startAll (n + 1) (accept c .queued s) = startAll n (postDirects (runs c s)) := by
    intro n; rw [startAll, hn]; simp only [hs]
  rw [hst]
  rfl

theorem arrive_alone (c : Cmd) (s : State) (h : alone c s = true) (hf : frozenWait (outstOf c .queued s) s = false)
    (hy : copyWait (outstOf c .queued s) s = false) (hp : headPass c (begun c s) = true) : arrive c s = followUp (runs c s) := by
  simp only [alone, Bool.and_eq_true, Bool.or_eq_true, decide_eq_true_eq, List.isEmpty_iff, Bool.not_eq_true', decide_eq_false_iff_not] at h
  obtain ⟨⟨h1, h3⟩, h4⟩ := h
  unfold arrive
  rcases h1 with ⟨h1, h2⟩ | ⟨⟨⟨h1, h2⟩, h5⟩, h6⟩
  · rw [if_pos h1]
    unfold ringCmd
    rw [if_pos h2]
    refine settle_accept c s h3 ?_ (by omega) hf hy hp
    unfold canFetch at h2
    simp only [Bool.and_eq_true] at h2
    exact h2.1.1.1.1.2
  · rw [if_neg (by omega), h1]
    simp only []
    unfold smbCmd
    have hc : ¬ s.dev.mode = .cold := by
      intro e; simp [mhRuns, serving, e] at h2
    simp only [hc, if_false, h5, h6, h2, decide_false, Bool.or_self, Bool.false_eq_true, Bool.not_true, outCount, h3, List.filter_nil, List.length_nil]
    simp only [Nat.zero_lt_succ, if_true]
    exact settle_accept c s h3 h2 (by omega) hf hy hp

/-- A command that arrives alone is on a ring or on SMB0. -/
theorem letIn_mb {c : Cmd} {s : State} (h : letIn c s) : c.mb < 16 ∨ c.mb = 16 := by
  have h := h.1
  simp only [alone, Bool.and_eq_true, Bool.or_eq_true, decide_eq_true_eq] at h
  rcases h.1.1 with h | h
  · exact .inl h.1
  · exact .inr h.1.1.1

/-- The only outstanding command is the one that has begun. -/
theorem begun_cmds (c : Cmd) (s : State) : (begun c s).host.cmds = [outstOf c .running s] := by
  unfold begun
  cases sourceAddr c with
  | none => rfl
  | some a =>
    simp only []
    split
    · unfold noteAts; simp only []; split <;> rfl
    · rfl

/-- A row that answers OK at once. -/
theorem rowOkWith_of {mk : Cmd → Instr} {op : Nat} {pre : Cmd → State → Prop} {post : Cmd → State → State × Nat × List Byte}
    (hx : ∀ c s, exec (mk c) s = .next (arrive { c with op := op } s))
    (h : ∀ c s, c.op = op → letIn c s → pre c (begun c s) →
      doRow c (refOf c s) (begun c s) = ((post c (begun c s)).1, .now .ok (post c (begun c s)).2.1 (post c (begun c s)).2.2)) :
    rowOkWith mk op pre post := by
  intro c0 s c hl hp
  unfold answers
  rw [hx, arrive_alone c s hl.1 hl.2.1 hl.2.2.1 hl.2.2.2]
  unfold runs
  rw [h c s rfl hl hp]
  simp only [settled, decide_true, Bool.true_and]

theorem rowOk_of {mk : Cmd → Instr} {op : Nat} {pre : Cmd → State → Prop} {post : Cmd → State → State × List Byte}
    (hx : ∀ c s, exec (mk c) s = .next (arrive { c with op := op } s))
    (h : ∀ c s, c.op = op → letIn c s → pre c (begun c s) →
      doRow c (refOf c s) (begun c s) = ((post c (begun c s)).1, .now .ok 0 (post c (begun c s)).2)) : rowOk mk op pre post :=
  rowOkWith_of hx h

/-- A row that ends at once with any status; FURL_DOMAIN_CFG and SHR_CC_CFG are not such rows. -/
theorem rowEnds_of {mk : Cmd → Instr} {op : Nat} {pre : Cmd → State → Prop} {post : Cmd → State → State × Status × Nat × List Byte}
    (hx : ∀ c s, exec (mk c) s = .next (arrive { c with op := op } s)) (h5 : op ≠ 0x0501) (h6 : op ≠ 0x0606)
    (h : ∀ c s, c.op = op → letIn c s → pre c (begun c s) →
      doRow c (refOf c s) (begun c s) =
        ((post c (begun c s)).1, .now (post c (begun c s)).2.1 (post c (begun c s)).2.2.1 (post c (begun c s)).2.2.2)) :
    rowEnds mk op pre post := by
  intro c0 s c hl hp
  unfold answers
  rw [hx, arrive_alone c s hl.1 hl.2.1 hl.2.2.1 hl.2.2.2]
  unfold runs
  rw [h c s rfl hl hp]
  have e5 : c.op ≠ 0x0501 := h5
  have e6 : c.op ≠ 0x0606 := h6
  simp only [e5, e6, decide_false, Bool.or_self, Bool.and_false, Bool.false_eq_true, if_false]

/-- A row that answers later. -/
theorem rowBegins_of {mk : Cmd → Instr} {op : Nat} {pre : Cmd → State → Prop} {post : Cmd → Nat × Nat → State → State}
    (hx : ∀ c s, exec (mk c) s = .next (arrive { c with op := op } s))
    (h : ∀ c s, c.op = op → letIn c s → pre c (begun c s) →
      doRow c (refOf c s) (begun c s) = (post c (refOf c s) (begun c s), .later)) : rowBegins mk op pre post := by
  intro c0 s c hl hp
  unfold answers
  rw [hx, arrive_alone c s hl.1 hl.2.1 hl.2.2.1 hl.2.2.2]
  unfold runs
  rw [h c s rfl hl hp]

end Sys2Proof.Safety
end

