-- ==== Sys2Proof/Laws/Raise.lean ====
section
/-! SUPPORT. What the shared operations of Ops can change: a message, a device event, a safe-state entry, an occurrence. -/

namespace Sys2Proof.Machine

theorem noteAts_shape (fn a : Nat) (s : State) : ∃ p, noteAts fn a s = { s with pcie := p } := by
  unfold noteAts; dsimp only; split
  · exact ⟨s.pcie, rfl⟩
  · exact ⟨_, rfl⟩

theorem writeHost_shape (fn a : Nat) (bs : List Byte) (s : State) : ∃ p o, writeHost fn a bs s = { s with pcie := p, out := o } := by
  unfold writeHost; split
  · obtain ⟨p, h⟩ := noteAts_shape fn a s
    rw [h]; exact ⟨p, _, rfl⟩
  · exact ⟨s.pcie, s.out, rfl⟩

theorem msixRaw_shape (fn vec : Nat) (s : State) : ∃ p o, msixRaw fn vec s = { s with pcie := p, out := o } := by
  unfold msixRaw; dsimp only; split
  · split
    · exact ⟨s.pcie, _, rfl⟩
    · exact ⟨s.pcie, s.out, rfl⟩
  · exact ⟨_, s.out, rfl⟩

theorem sendMsix_shape (fn vec : Nat) (s : State) : ∃ p o, sendMsix fn vec s = { s with pcie := p, out := o } := by
  unfold sendMsix; split
  · exact ⟨s.pcie, s.out, rfl⟩
  · exact msixRaw_shape fn vec s

theorem devEvt_shape (b : Bool) (fn : Nat) (s : State) : ∃ h p o, devEvt b fn s = { s with host := h, pcie := p, out := o } := by
  have key : ∀ (c : Prop) [Decidable c] (f : FnView → FnView) (v : Nat),
      ∃ h p o, (if c then sendMsix fn v (modView fn f s) else modView fn f s) = { s with host := h, pcie := p, out := o } := by
    intro c _ f v
    split
    · obtain ⟨p, o, h⟩ := sendMsix_shape fn v (modView fn f s)
      rw [h]; exact ⟨_, p, o, rfl⟩
    · exact ⟨_, s.pcie, s.out, rfl⟩
  exact key _ _ _

theorem devEvt_fold_shape (b : Bool) (l : List Nat) (s : State) :
    ∃ h p o, l.foldl (fun s fn => devEvt b fn s) s = { s with host := h, pcie := p, out := o } := by
  induction l generalizing s with
  | nil => exact ⟨s.host, s.pcie, s.out, rfl⟩
  | cons fn l ih =>
    obtain ⟨h, p, o, e⟩ := devEvt_shape b fn s
    rw [List.foldl_cons, e]
    obtain ⟨h', p', o', e'⟩ := ih { s with host := h, pcie := p, out := o }
    rw [e']; exact ⟨h', p', o', rfl⟩

theorem devEvtAll_shape (b : Bool) (s : State) : ∃ h p o, devEvtAll b s = { s with host := h, pcie := p, out := o } :=
  devEvt_fold_shape b _ s

theorem setMode_shape (m : DevMode) (s : State) :
    ∃ h p o, setMode m s = { s with dev := { s.dev with mode := m }, host := h, pcie := p, out := o } := by
  unfold setMode; split
  · next e => subst e; exact ⟨s.host, s.pcie, s.out, rfl⟩
  · obtain ⟨h, p, o, e⟩ := devEvtAll_shape false { s with dev := { s.dev with mode := m } }
    rw [e]; exact ⟨h, p, o, rfl⟩

theorem setFn_shape (f : Nat) (st : FnState) (s : State) : ∃ h p o, setFn f st s = { s with host := h, pcie := p, out := o } := by
  unfold setFn; repeat' split
  · exact ⟨s.host, s.pcie, s.out, rfl⟩
  · obtain ⟨h, p, o, e⟩ := devEvtAll_shape true { s with host := { s.host with fns := Tab.put s.host.fns f st } }
    rw [e]; exact ⟨h, p, o, rfl⟩
  · obtain ⟨h, p, o, e⟩ := devEvtAll_shape true
      { s with host := { s.host with pages := Tab.mod s.host.pages (f - 16) (fun p => { p with st := st }) } }
    rw [e]; exact ⟨h, p, o, rfl⟩

theorem rbufWrite_shape (o : Outst) (c : Cpl) (s : State) : ∃ c' p q, rbufWrite o c s = (c', { s with pcie := p, out := q }) := by
  unfold rbufWrite; repeat' split
  · obtain ⟨p, q, h⟩ := writeHost_shape (mbReq o.cmd.mb s) (fieldN (payloadOf o.cmd) 0 8) c.result s
    rw [h]; exact ⟨_, p, q, rfl⟩
  · exact ⟨_, s.pcie, s.out, rfl⟩
  · exact ⟨_, s.pcie, s.out, rfl⟩

/-- The result of a command changes the host interface, what PCIe holds and what is sent. -/
theorem finish_shape (r : Nat × Nat) (st : Status) (d : Nat) (bs : List Byte) (s : State) :
    ∃ h p o, finish r st d bs s = { s with host := h, pcie := p, out := o } := by
  unfold finish; split
  · exact ⟨_, s.pcie, s.out, rfl⟩
  · split
    · split
      · exact ⟨s.host, s.pcie, s.out, rfl⟩
      · next o _ _ _ =>
        obtain ⟨c', p, q, e⟩ := rbufWrite_shape o (mkCpl o st d bs) s
        rw [e]; exact ⟨_, p, q, rfl⟩
    · exact ⟨s.host, s.pcie, s.out, rfl⟩

theorem setSticky_shape (src : Nat) (s : State) :
    ∃ p o, setSticky src s = { s with tt := { s.tt with sticky := setBit s.tt.sticky src true }, pcie := p, out := o } := by
  unfold setSticky; dsimp only; split
  · obtain ⟨p, o, e⟩ := msixRaw_shape 0 s.tt.irqVec { s with tt := { s.tt with sticky := setBit s.tt.sticky src true } }
    rw [e]; exact ⟨p, o, rfl⟩
  · exact ⟨s.pcie, s.out, rfl⟩

theorem setSticky_fold_shape (l : List Nat) (s : State) :
    ∃ b p o, l.foldl (fun s i => setSticky i s) s = { s with tt := { s.tt with sticky := b }, pcie := p, out := o } := by
  induction l generalizing s with
  | nil => exact ⟨s.tt.sticky, s.pcie, s.out, rfl⟩
  | cons i l ih =>
    obtain ⟨p, o, e⟩ := setSticky_shape i s
    rw [List.foldl_cons, e]
    obtain ⟨b', p', o', e'⟩ := ih { s with tt := { s.tt with sticky := setBit s.tt.sticky i true }, pcie := p, out := o }
    rw [e']; exact ⟨b', p', o', rfl⟩

/-- A safe-state entry from a mode in which the device runs (R612, Table 23.4). -/
theorem safeEntry_shape (s : State) (h : s.dev.mode ≠ .safe) (h' : s.dev.mode ≠ .cold) :
    ∃ hh p o, safeEntry s = emit (.uart (lineText (safeLine { s with dev := { s.dev with mode := .safe, gated := true }, host := hh, pcie := p, out := o })))
      (safeBlocks (abandonCommands { s with dev := { s.dev with mode := .safe, gated := true }, host := hh, pcie := p, out := o })) := by
  unfold safeEntry
  rw [if_neg (by simp [h, h'])]
  obtain ⟨hh, p, o, e⟩ := devEvtAll_shape false { s with dev := { s.dev with mode := .safe, gated := true } }
  rw [e]; exact ⟨hh, p, o, rfl⟩

/-- No reaction changes memory, the free values or the queue. -/
theorem safeEntry_keeps (s : State) : (safeEntry s).mem = s.mem ∧ (safeEntry s).free = s.free ∧ (safeEntry s).pending = s.pending := by
  by_cases h : s.dev.mode = .safe
  · unfold safeEntry; simp [h]
  · by_cases h' : s.dev.mode = .cold
    · unfold safeEntry; simp [h']
    · obtain ⟨hh, p, o, e⟩ := safeEntry_shape s h h'
      rw [e]; exact ⟨rfl, rfl, rfl⟩

theorem react_keeps (v : Sev) (s : State) : (react v s).mem = s.mem ∧ (react v s).free = s.free ∧ (react v s).pending = s.pending := by
  unfold react; split
  · split
    · dsimp only; split
      · obtain ⟨h, p, o, e⟩ := setMode_shape .degraded { s with tt := { s.tt with reaction := .degraded, request := true } }
        rw [e]; exact ⟨rfl, rfl, rfl⟩
      · exact ⟨rfl, rfl, rfl⟩
    · exact safeEntry_keeps _
    · exact safeEntry_keeps _
    · exact ⟨rfl, rfl, rfl⟩
  · exact ⟨rfl, rfl, rfl⟩

theorem occur_keeps (l : List Nat) (s : State) : (occur l s).mem = s.mem ∧ (occur l s).free = s.free ∧ (occur l s).pending = s.pending := by
  unfold occur; dsimp only; split
  · split
    · exact ⟨rfl, rfl, rfl⟩
    · obtain ⟨b, p, o, e⟩ := setSticky_fold_shape (newSources l s) s
      rw [e]
      exact react_keeps _ _
  · exact ⟨rfl, rfl, rfl⟩

theorem reefNote_shape (l : List Nat) (s : State) : ∃ r, reefNote l s = { s with reef := r } := by
  unfold reefNote; dsimp only; split
  · exact ⟨s.reef, rfl⟩
  · exact ⟨_, rfl⟩

/-- Raising a source changes neither memory nor the queue, and draws no free value. -/
theorem raise_keeps (src : Nat) (s : State) : (raise src s).mem = s.mem ∧ (raise src s).free = s.free ∧ (raise src s).pending = s.pending := by
  unfold raise
  obtain ⟨r, e⟩ := reefNote_shape [src] s
  rw [e]; exact occur_keeps _ _

@[simp] theorem raise_mem (src : Nat) (s : State) : (raise src s).mem = s.mem := (raise_keeps src s).1

/-! ### What a reaction leaves of the tiles -/

/-- A tile as a safe-state entry leaves it: its Sail instructions that have not begun are discarded (Table 23.4). -/
def Tile.cut (u : Tile) : Tile := { u with queue := u.queue.filter (·.begun) }

theorem Tab.get_mapAll {α : Type} [Inhabited α] [DecidableEq α] (f : Nat → α → α) (i : Nat) : ∀ (t : Tab α), Tab.get t i ≠ default →
    f i (Tab.get t i) ≠ default → Tab.get (Tab.mapAll t f) i = f i (Tab.get t i)
  | [], h, _ => absurd rfl h
  | (k, v) :: t, h, g => by
    unfold Tab.mapAll
    rw [List.map_cons, List.filter_cons]
    by_cases e : k = i
    · subst e
      simp only [Tab.get_cons, if_true] at g ⊢
      simp [g]
    · simp only [Tab.get_cons, e, if_false] at h g ⊢
      have := Tab.get_mapAll f i t h g
      unfold Tab.mapAll at this
      split
      · rw [Tab.get_cons, if_neg e]; exact this
      · exact this

theorem safeEntry_tile (s : State) (t : Nat) (h : (Tab.get s.comp.tiles t).st ≠ .idle) :
    Tab.get (safeEntry s).comp.tiles t = Tab.get s.comp.tiles t ∨ Tab.get (safeEntry s).comp.tiles t = (Tab.get s.comp.tiles t).cut := by
  have ne : ∀ u : Tile, u.st ≠ .idle → u ≠ default := fun u hu e => hu (by rw [e]; rfl)
  by_cases h1 : s.dev.mode = .safe
  · unfold safeEntry; simp [h1]
  · by_cases h2 : s.dev.mode = .cold
    · unfold safeEntry; simp [h2]
    · obtain ⟨hh, p, o, e⟩ := safeEntry_shape s h1 h2
      rw [e]
      exact .inr (Tab.get_mapAll (fun _ (u : Tile) => { u with queue := u.queue.filter (·.begun) }) t s.comp.tiles (ne _ h) (ne _ h))

theorem occur_tile (l : List Nat) (s : State) (t : Nat) (h : (Tab.get s.comp.tiles t).st ≠ .idle) :
    Tab.get (occur l s).comp.tiles t = Tab.get s.comp.tiles t ∨ Tab.get (occur l s).comp.tiles t = (Tab.get s.comp.tiles t).cut := by
  unfold occur; dsimp only; split
  · split
    · exact .inl rfl
    · obtain ⟨b, p, o, e⟩ := setSticky_fold_shape (newSources l s) s
      rw [e]; unfold react; split
      · split
        · dsimp only; split
          · obtain ⟨h, p, o, e⟩ := setMode_shape .degraded
              { s with tt := { s.tt with sticky := b, reaction := .degraded, request := true }, pcie := p, out := o }
            rw [e]; exact .inl rfl
          · exact .inl rfl
        · exact safeEntry_tile _ t h
        · exact safeEntry_tile _ t h
        · exact .inl rfl
      · exact .inl rfl
  · exact .inl rfl

theorem raise_tile (src : Nat) (s : State) (t : Nat) (h : (Tab.get s.comp.tiles t).st ≠ .idle) :
    Tab.get (raise src s).comp.tiles t = Tab.get s.comp.tiles t ∨ Tab.get (raise src s).comp.tiles t = (Tab.get s.comp.tiles t).cut := by
  unfold raise
  obtain ⟨r, e⟩ := reefNote_shape [src] s
  rw [e]; exact occur_tile _ _ t h

end Sys2Proof.Machine
end

