-- ==== Sys2Proof/Laws/Memory.lean ====
section
/-! SUPPORT. What each operation over the memories can do: the canonical form is kept by all of them, a read changes no byte, and
the memories after reset have the form. -/

namespace Sys2Proof.Machine

theorem memory_reset_wf : State.reset.mem.wf = true := by decide

theorem Memory.wf_iff (m : Memory) : m.wf = true ↔ Tab.wf m.bytes = true ∧ Tab.wf m.ecc = true ∧ Tab.wf m.pages = true := by
  simp [Memory.wf, and_assoc]

theorem writeByte_wf {m : Memory} (h : m.wf = true) (full : Nat → Bool) (a : Nat) (b : Byte) : (writeByte m full a b).wf = true := by
  unfold writeByte; split
  · exact h
  · rw [Memory.wf_iff] at *; exact ⟨Tab.wf_put h.1 _ _, h.2⟩

theorem writeBytes_wf (full : Nat → Bool) : ∀ (bs : List Byte) (a : Nat) {m : Memory}, m.wf = true → (writeBytes full bs a m).wf = true
  | [], _, _, h => h
  | b :: bs, a, _, h => writeBytes_wf full bs (a + 1) (writeByte_wf h full a b)

theorem rawWrite_wf {s : State} (h : s.mem.wf = true) (a : Nat) (bs : List Byte) : (rawWrite a bs s).mem.wf = true := by
  have w := writeBytes_wf (clearsPoison a bs.length) bs a h
  rw [Memory.wf_iff] at w
  unfold rawWrite modMem; rw [Memory.wf_iff]
  dsimp only
  exact ⟨w.1, Tab.wf_dropIf w.2.1 _, w.2.2⟩

/-- One word with an error is read: no byte and no page changes, and the word's state stays but for one that becomes poisoned. -/
theorem readWord_mem (w : Nat) (s : State) : (readWord w s).2.mem.bytes = s.mem.bytes ∧ (readWord w s).2.mem.pages = s.mem.pages ∧
    ((readWord w s).2.mem.ecc = s.mem.ecc ∨
      (Tab.get s.mem.ecc w = .uncorrectable ∧ (readWord w s).2.mem.ecc = Tab.put s.mem.ecc w .poisoned)) := by
  unfold readWord
  split
  · exact ⟨rfl, rfl, .inl rfl⟩
  · split
    · exact ⟨rfl, rfl, .inl rfl⟩
    · rw [raise_mem]; exact ⟨rfl, rfl, .inl rfl⟩
  · rename_i hu
    rw [raise_mem]; exact ⟨rfl, rfl, .inr ⟨hu, rfl⟩⟩
  · split
    · rw [raise_mem]; exact ⟨rfl, rfl, .inl rfl⟩
    · exact ⟨rfl, rfl, .inl rfl⟩

theorem readWord_wf {s : State} (h : s.mem.wf = true) (w : Nat) : (readWord w s).2.mem.wf = true := by
  obtain ⟨h1, h2, h3⟩ := readWord_mem w s
  rw [Memory.wf_iff] at *
  rw [h1, h2]
  refine ⟨h.1, ?_, h.2.2⟩
  obtain h3 | ⟨-, h3⟩ := h3
  · rw [h3]; exact h.2.1
  · rw [h3]; exact Tab.wf_put h.2.1 _ _

theorem readWords_mem : ∀ (ws : List Nat) (s : State), (readWords ws s).2.mem.bytes = s.mem.bytes ∧ (readWords ws s).2.mem.pages = s.mem.pages
  | [], _ => ⟨rfl, rfl⟩
  | w :: ws, s => by
    obtain ⟨h1, h2, -⟩ := readWord_mem w s
    obtain ⟨g1, g2⟩ := readWords_mem ws (readWord w s).2
    exact ⟨g1.trans h1, g2.trans h2⟩

theorem readWords_wf : ∀ (ws : List Nat) {s : State}, s.mem.wf = true → (readWords ws s).2.mem.wf = true
  | [], _, h => h
  | w :: ws, _, h => readWords_wf ws (readWord_wf h w)

/-- A demand read changes no byte. -/
theorem memRead_mem (a n : Nat) (s : State) : (memRead a n s).2.mem.bytes = s.mem.bytes ∧ (memRead a n s).2.mem.pages = s.mem.pages :=
  readWords_mem _ s

theorem memRead_wf {s : State} (h : s.mem.wf = true) (a n : Nat) : (memRead a n s).2.mem.wf = true := readWords_wf _ h

/-- A demand read of a range without an error gives its bytes and changes nothing. -/
theorem memRead_clean {a n : Nat} {s : State} (h : badWords a n s.mem = []) : memRead a n s = (some (rawRead a n s), s) := by
  simp [memRead, h, readWords]

/-- Reef's read of a protected chunk changes no byte and no page. -/
theorem reefRead_mem (k : Nat) (s : State) : (reefRead k s).mem.bytes = s.mem.bytes ∧ (reefRead k s).mem.pages = s.mem.pages := by
  unfold reefRead
  split
  · exact ⟨rfl, rfl⟩
  · dsimp only
    split
    · rw [raise_mem]; exact readWords_mem _ _
    · exact readWords_mem _ _

theorem reefRead_wf {s : State} (h : s.mem.wf = true) (k : Nat) : (reefRead k s).mem.wf = true := by
  unfold reefRead
  split
  · exact h
  · dsimp only
    split
    · rw [raise_mem]; exact readWords_wf _ (s := modReef _ s) h
    · exact readWords_wf _ (s := modReef _ s) h

theorem reefReads_mem : ∀ (l : List Nat) (s : State), (l.foldl (fun s k => reefRead k s) s).mem.bytes = s.mem.bytes ∧
    (l.foldl (fun s k => reefRead k s) s).mem.pages = s.mem.pages
  | [], _ => ⟨rfl, rfl⟩
  | k :: l, s => by
    obtain ⟨h1, h2⟩ := reefRead_mem k s
    obtain ⟨g1, g2⟩ := reefReads_mem l (reefRead k s)
    exact ⟨g1.trans h1, g2.trans h2⟩

theorem reefReads_wf : ∀ (l : List Nat) {s : State}, s.mem.wf = true → (l.foldl (fun s k => reefRead k s) s).mem.wf = true
  | [], _, h => h
  | k :: l, _, h => reefReads_wf l (reefRead_wf h k)

theorem reefBefore_mem (a n : Nat) (s : State) : (reefBefore a n s).mem.bytes = s.mem.bytes ∧ (reefBefore a n s).mem.pages = s.mem.pages :=
  reefReads_mem _ s

theorem reefBefore_wf {s : State} (h : s.mem.wf = true) (a n : Nat) : (reefBefore a n s).mem.wf = true := reefReads_wf _ h

@[simp] theorem reefDirty_mem (a n : Nat) (s : State) : (reefDirty a n s).mem = s.mem := by
  unfold reefDirty; split <;> rfl

theorem memWrite_wf {s : State} (h : s.mem.wf = true) (a : Nat) (bs : List Byte) : (memWrite a bs s).mem.wf = true :=
  rawWrite_wf (by rw [reefDirty_mem]; exact reefBefore_wf h _ _) a bs

theorem doWriteBack_wf {s : State} (h : s.mem.wf = true) (w : Nat) : (doWriteBack w s).mem.wf = true := by
  unfold doWriteBack
  split
  · rw [Memory.wf_iff] at *
    refine ⟨h.1, ?_, h.2.2⟩
    unfold modMem; dsimp only
    split
    · exact Tab.wf_put h.2.1 _ _
    · exact h.2.1
  · exact h

theorem strikeWord_wf {s : State} (h : s.mem.wf = true) (w : Nat) (e : Upset) : (strikeWord w e s).mem.wf = true := by
  unfold strikeWord
  split
  · rw [Memory.wf_iff] at *; exact ⟨h.1, Tab.wf_put h.2.1 _ _, h.2.2⟩
  · exact h

theorem strike_wf : ∀ (ups : List (Nat × Upset)) {s : State}, s.mem.wf = true → (strike ups s).mem.wf = true
  | [], _, h => h
  | u :: ups, _, h => strike_wf ups (strikeWord_wf h u.1 u.2)

/-- Upsets change error correction's words and nothing else. -/
theorem strike_shape : ∀ (ups : List (Nat × Upset)) (s : State), ∃ e, strike ups s = { s with mem := { s.mem with ecc := e } }
  | [], s => ⟨s.mem.ecc, rfl⟩
  | u :: ups, s => by
    have h : ∃ e, strikeWord u.1 u.2 s = { s with mem := { s.mem with ecc := e } } := by
      unfold strikeWord
      split
      · exact ⟨_, rfl⟩
      · exact ⟨s.mem.ecc, rfl⟩
    obtain ⟨e, he⟩ := h
    obtain ⟨e', he'⟩ := strike_shape ups (strikeWord u.1 u.2 s)
    exact ⟨e', show strike ups (strikeWord u.1 u.2 s) = _ by rw [he', he]⟩

theorem scrub_wf {s : State} (h : s.mem.wf = true) (w : Nat) (e : Upset) : (scrub w e s).mem.wf = true := by
  unfold scrub
  split
  · exact h
  · have key : ∀ s1 : State, s1.mem.wf = true →
        (if Tab.get s1.mem.ecc w = .poisoned then raise (uncorrectableSrc w) s1 else (readWord w s1).2).mem.wf = true := by
      intro s1 h1; split
      · rw [raise_mem]; exact h1
      · exact readWord_wf h1 w
    exact key _ (strikeWord_wf h w e)

theorem zeroRange_wf {s : State} (h : s.mem.wf = true) (a n : Nat) : (zeroRange a n s).mem.wf = true := by
  rw [Memory.wf_iff] at *; unfold zeroRange modMem; dsimp only
  exact ⟨Tab.wf_dropIf h.1 _, Tab.wf_dropIf h.2.1 _, h.2.2⟩

theorem modPageAttr_wf {s : State} (h : s.mem.wf = true) (p : Nat) (f : PageAttr → PageAttr) : (modPageAttr p f s).mem.wf = true := by
  rw [Memory.wf_iff] at *; exact ⟨h.1, h.2.1, Tab.wf_mod h.2.2 _ _⟩

theorem rekeyWords_wf (k : PageKey) (s : State) : ∀ (n w : Nat) {t : Tab Byte}, Tab.wf t = true → Tab.wf (rekeyWords k s n w t) = true
  | 0, _, _, h => h
  | n + 1, w, _, h => rekeyWords_wf k s n (w + 64) (Tab.wf_putList _ w h)

/-- What a step of the memory keeps when it changes bytes alone. -/
theorem setBytes_wf {m : Memory} (h : m.wf = true) {t : Tab Byte} (g : Tab.wf t = true) : Memory.wf { m with bytes := t } = true := by
  rw [Memory.wf_iff] at *; exact ⟨g, h.2⟩

theorem rekey_wf {s : State} (h : s.mem.wf = true) (p : Nat) (k : PageKey) : (rekey p k s).mem.wf = true :=
  setBytes_wf h (rekeyWords_wf k s _ _ ((Memory.wf_iff _).1 h).1)

theorem takePage_wf {s : State} (h : s.mem.wf = true) (use : PageUse) (t : Option Nat) (z : Bool) (p : Nat) :
    (takePage use t z p s).mem.wf = true := by
  unfold takePage
  apply modPageAttr_wf
  split
  · exact zeroRange_wf h _ _
  · split
    · exact h
    · exact rekey_wf h _ _

theorem dropPage_wf {s : State} (h : s.mem.wf = true) (p : Nat) : (dropPage p s).mem.wf = true := by
  have h1 := reefBefore_wf h (p * 0x200000) 0x200000
  unfold dropPage
  dsimp only
  split
  · split
    · exact modPageAttr_wf h1 _ _
    · rw [raise_mem]; exact modPageAttr_wf h1 _ _
  · exact modPageAttr_wf h1 _ _

end Sys2Proof.Machine
end

