-- ==== Sys2Proof/Laws/State.lean ====
section
/-! SUPPORT. What each update of the state leaves alone: every field but the one it names, for `simp`, so that no proof unfolds a
record update. -/

namespace Sys2Proof.Machine

@[simp] theorem modTime_keeps (f : TimeUnit → TimeUnit) (s : State) :
    (modTime f s).fuses = s.fuses ∧ (modTime f s).pins = s.pins ∧ (modTime f s).pow = s.pow ∧ (modTime f s).dev = s.dev ∧
    (modTime f s).tt = s.tt ∧ (modTime f s).host = s.host ∧ (modTime f s).pcie = s.pcie ∧ (modTime f s).nvme = s.nvme ∧
    (modTime f s).smb0 = s.smb0 ∧ (modTime f s).smb1 = s.smb1 ∧ (modTime f s).uart = s.uart ∧ (modTime f s).jtag = s.jtag ∧
    (modTime f s).rl = s.rl ∧ (modTime f s).ps = s.ps ∧ (modTime f s).rack = s.rack ∧ (modTime f s).mem = s.mem ∧
    (modTime f s).comp = s.comp ∧ (modTime f s).srv = s.srv ∧ (modTime f s).furl = s.furl ∧ (modTime f s).sec = s.sec ∧
    (modTime f s).stay = s.stay ∧ (modTime f s).trim = s.trim ∧ (modTime f s).eth = s.eth ∧ (modTime f s).shr = s.shr ∧
    (modTime f s).bow = s.bow ∧ (modTime f s).frame = s.frame ∧ (modTime f s).reef = s.reef ∧ (modTime f s).out = s.out ∧
    (modTime f s).free = s.free ∧ (modTime f s).pending = s.pending :=
  ⟨rfl, rfl, rfl, rfl, rfl, rfl, rfl, rfl, rfl, rfl, rfl, rfl, rfl, rfl, rfl, rfl, rfl, rfl, rfl, rfl, rfl, rfl, rfl, rfl, rfl, rfl, rfl, rfl, rfl, rfl⟩

@[simp] theorem modTime_time (f : TimeUnit → TimeUnit) (s : State) : (modTime f s).time = f s.time := rfl

@[simp] theorem modSrv_keeps (f : Serve → Serve) (s : State) :
    (modSrv f s).fuses = s.fuses ∧ (modSrv f s).pins = s.pins ∧ (modSrv f s).pow = s.pow ∧ (modSrv f s).dev = s.dev ∧
    (modSrv f s).tt = s.tt ∧ (modSrv f s).host = s.host ∧ (modSrv f s).pcie = s.pcie ∧ (modSrv f s).nvme = s.nvme ∧
    (modSrv f s).smb0 = s.smb0 ∧ (modSrv f s).smb1 = s.smb1 ∧ (modSrv f s).uart = s.uart ∧ (modSrv f s).jtag = s.jtag ∧
    (modSrv f s).time = s.time ∧ (modSrv f s).rl = s.rl ∧ (modSrv f s).ps = s.ps ∧ (modSrv f s).rack = s.rack ∧ (modSrv f s).mem = s.mem ∧
    (modSrv f s).comp = s.comp ∧ (modSrv f s).furl = s.furl ∧ (modSrv f s).sec = s.sec ∧ (modSrv f s).stay = s.stay ∧
    (modSrv f s).trim = s.trim ∧ (modSrv f s).eth = s.eth ∧ (modSrv f s).shr = s.shr ∧ (modSrv f s).bow = s.bow ∧
    (modSrv f s).frame = s.frame ∧ (modSrv f s).reef = s.reef ∧ (modSrv f s).out = s.out ∧ (modSrv f s).free = s.free ∧
    (modSrv f s).pending = s.pending :=
  ⟨rfl, rfl, rfl, rfl, rfl, rfl, rfl, rfl, rfl, rfl, rfl, rfl, rfl, rfl, rfl, rfl, rfl, rfl, rfl, rfl, rfl, rfl, rfl, rfl, rfl, rfl, rfl, rfl, rfl, rfl⟩

@[simp] theorem modSrv_srv (f : Serve → Serve) (s : State) : (modSrv f s).srv = f s.srv := rfl

@[simp] theorem modCtx_keeps (i : Nat) (f : Ctx → Ctx) (s : State) :
    (modCtx i f s).fuses = s.fuses ∧ (modCtx i f s).pins = s.pins ∧ (modCtx i f s).pow = s.pow ∧ (modCtx i f s).dev = s.dev ∧
    (modCtx i f s).tt = s.tt ∧ (modCtx i f s).host = s.host ∧ (modCtx i f s).pcie = s.pcie ∧ (modCtx i f s).nvme = s.nvme ∧
    (modCtx i f s).smb0 = s.smb0 ∧ (modCtx i f s).smb1 = s.smb1 ∧ (modCtx i f s).uart = s.uart ∧ (modCtx i f s).jtag = s.jtag ∧
    (modCtx i f s).time = s.time ∧ (modCtx i f s).rl = s.rl ∧ (modCtx i f s).ps = s.ps ∧ (modCtx i f s).rack = s.rack ∧
    (modCtx i f s).mem = s.mem ∧ (modCtx i f s).comp = s.comp ∧ (modCtx i f s).furl = s.furl ∧ (modCtx i f s).sec = s.sec ∧
    (modCtx i f s).stay = s.stay ∧ (modCtx i f s).trim = s.trim ∧ (modCtx i f s).eth = s.eth ∧ (modCtx i f s).shr = s.shr ∧
    (modCtx i f s).bow = s.bow ∧ (modCtx i f s).frame = s.frame ∧ (modCtx i f s).reef = s.reef ∧ (modCtx i f s).out = s.out ∧
    (modCtx i f s).free = s.free ∧ (modCtx i f s).pending = s.pending :=
  ⟨rfl, rfl, rfl, rfl, rfl, rfl, rfl, rfl, rfl, rfl, rfl, rfl, rfl, rfl, rfl, rfl, rfl, rfl, rfl, rfl, rfl, rfl, rfl, rfl, rfl, rfl, rfl, rfl, rfl, rfl⟩

@[simp] theorem modBatch_keeps (i : Nat) (f : Batch → Batch) (s : State) :
    (modBatch i f s).fuses = s.fuses ∧ (modBatch i f s).pins = s.pins ∧ (modBatch i f s).pow = s.pow ∧ (modBatch i f s).dev = s.dev ∧
    (modBatch i f s).tt = s.tt ∧ (modBatch i f s).host = s.host ∧ (modBatch i f s).pcie = s.pcie ∧ (modBatch i f s).nvme = s.nvme ∧
    (modBatch i f s).smb0 = s.smb0 ∧ (modBatch i f s).smb1 = s.smb1 ∧ (modBatch i f s).uart = s.uart ∧ (modBatch i f s).jtag = s.jtag ∧
    (modBatch i f s).time = s.time ∧ (modBatch i f s).rl = s.rl ∧ (modBatch i f s).ps = s.ps ∧ (modBatch i f s).rack = s.rack ∧
    (modBatch i f s).mem = s.mem ∧ (modBatch i f s).comp = s.comp ∧ (modBatch i f s).furl = s.furl ∧ (modBatch i f s).sec = s.sec ∧
    (modBatch i f s).stay = s.stay ∧ (modBatch i f s).trim = s.trim ∧ (modBatch i f s).eth = s.eth ∧ (modBatch i f s).shr = s.shr ∧
    (modBatch i f s).bow = s.bow ∧ (modBatch i f s).frame = s.frame ∧ (modBatch i f s).reef = s.reef ∧ (modBatch i f s).out = s.out ∧
    (modBatch i f s).free = s.free ∧ (modBatch i f s).pending = s.pending :=
  ⟨rfl, rfl, rfl, rfl, rfl, rfl, rfl, rfl, rfl, rfl, rfl, rfl, rfl, rfl, rfl, rfl, rfl, rfl, rfl, rfl, rfl, rfl, rfl, rfl, rfl, rfl, rfl, rfl, rfl, rfl⟩

@[simp] theorem modModel_keeps (i : Nat) (f : Model → Model) (s : State) :
    (modModel i f s).fuses = s.fuses ∧ (modModel i f s).pins = s.pins ∧ (modModel i f s).pow = s.pow ∧ (modModel i f s).dev = s.dev ∧
    (modModel i f s).tt = s.tt ∧ (modModel i f s).host = s.host ∧ (modModel i f s).pcie = s.pcie ∧ (modModel i f s).nvme = s.nvme ∧
    (modModel i f s).smb0 = s.smb0 ∧ (modModel i f s).smb1 = s.smb1 ∧ (modModel i f s).uart = s.uart ∧ (modModel i f s).jtag = s.jtag ∧
    (modModel i f s).time = s.time ∧ (modModel i f s).rl = s.rl ∧ (modModel i f s).ps = s.ps ∧ (modModel i f s).rack = s.rack ∧
    (modModel i f s).mem = s.mem ∧ (modModel i f s).comp = s.comp ∧ (modModel i f s).furl = s.furl ∧ (modModel i f s).sec = s.sec ∧
    (modModel i f s).stay = s.stay ∧ (modModel i f s).trim = s.trim ∧ (modModel i f s).eth = s.eth ∧ (modModel i f s).shr = s.shr ∧
    (modModel i f s).bow = s.bow ∧ (modModel i f s).frame = s.frame ∧ (modModel i f s).reef = s.reef ∧ (modModel i f s).out = s.out ∧
    (modModel i f s).free = s.free ∧ (modModel i f s).pending = s.pending :=
  ⟨rfl, rfl, rfl, rfl, rfl, rfl, rfl, rfl, rfl, rfl, rfl, rfl, rfl, rfl, rfl, rfl, rfl, rfl, rfl, rfl, rfl, rfl, rfl, rfl, rfl, rfl, rfl, rfl, rfl, rfl⟩

@[simp] theorem modTrim_keeps (f : Trim → Trim) (s : State) :
    (modTrim f s).fuses = s.fuses ∧ (modTrim f s).pins = s.pins ∧ (modTrim f s).pow = s.pow ∧ (modTrim f s).dev = s.dev ∧
    (modTrim f s).tt = s.tt ∧ (modTrim f s).host = s.host ∧ (modTrim f s).pcie = s.pcie ∧ (modTrim f s).nvme = s.nvme ∧
    (modTrim f s).smb0 = s.smb0 ∧ (modTrim f s).smb1 = s.smb1 ∧ (modTrim f s).uart = s.uart ∧ (modTrim f s).jtag = s.jtag ∧
    (modTrim f s).time = s.time ∧ (modTrim f s).rl = s.rl ∧ (modTrim f s).ps = s.ps ∧ (modTrim f s).rack = s.rack ∧
    (modTrim f s).mem = s.mem ∧ (modTrim f s).comp = s.comp ∧ (modTrim f s).srv = s.srv ∧ (modTrim f s).furl = s.furl ∧
    (modTrim f s).sec = s.sec ∧ (modTrim f s).stay = s.stay ∧ (modTrim f s).eth = s.eth ∧ (modTrim f s).shr = s.shr ∧
    (modTrim f s).bow = s.bow ∧ (modTrim f s).frame = s.frame ∧ (modTrim f s).reef = s.reef ∧ (modTrim f s).out = s.out ∧
    (modTrim f s).free = s.free ∧ (modTrim f s).pending = s.pending :=
  ⟨rfl, rfl, rfl, rfl, rfl, rfl, rfl, rfl, rfl, rfl, rfl, rfl, rfl, rfl, rfl, rfl, rfl, rfl, rfl, rfl, rfl, rfl, rfl, rfl, rfl, rfl, rfl, rfl, rfl, rfl⟩

@[simp] theorem modTrim_trim (f : Trim → Trim) (s : State) : (modTrim f s).trim = f s.trim := rfl

@[simp] theorem modQ_keeps (p q : Nat) (f : TrimQ → TrimQ) (s : State) :
    (modQ p q f s).fuses = s.fuses ∧ (modQ p q f s).pins = s.pins ∧ (modQ p q f s).pow = s.pow ∧ (modQ p q f s).dev = s.dev ∧
    (modQ p q f s).tt = s.tt ∧ (modQ p q f s).host = s.host ∧ (modQ p q f s).pcie = s.pcie ∧ (modQ p q f s).nvme = s.nvme ∧
    (modQ p q f s).smb0 = s.smb0 ∧ (modQ p q f s).smb1 = s.smb1 ∧ (modQ p q f s).uart = s.uart ∧ (modQ p q f s).jtag = s.jtag ∧
    (modQ p q f s).time = s.time ∧ (modQ p q f s).rl = s.rl ∧ (modQ p q f s).ps = s.ps ∧ (modQ p q f s).rack = s.rack ∧
    (modQ p q f s).mem = s.mem ∧ (modQ p q f s).comp = s.comp ∧ (modQ p q f s).srv = s.srv ∧ (modQ p q f s).furl = s.furl ∧
    (modQ p q f s).sec = s.sec ∧ (modQ p q f s).stay = s.stay ∧ (modQ p q f s).eth = s.eth ∧ (modQ p q f s).shr = s.shr ∧
    (modQ p q f s).bow = s.bow ∧ (modQ p q f s).frame = s.frame ∧ (modQ p q f s).reef = s.reef ∧ (modQ p q f s).out = s.out ∧
    (modQ p q f s).free = s.free ∧ (modQ p q f s).pending = s.pending :=
  ⟨rfl, rfl, rfl, rfl, rfl, rfl, rfl, rfl, rfl, rfl, rfl, rfl, rfl, rfl, rfl, rfl, rfl, rfl, rfl, rfl, rfl, rfl, rfl, rfl, rfl, rfl, rfl, rfl, rfl, rfl⟩

@[simp] theorem modPort_keeps (p : Nat) (f : TrimPort → TrimPort) (s : State) :
    (modPort p f s).fuses = s.fuses ∧ (modPort p f s).pins = s.pins ∧ (modPort p f s).pow = s.pow ∧ (modPort p f s).dev = s.dev ∧
    (modPort p f s).tt = s.tt ∧ (modPort p f s).host = s.host ∧ (modPort p f s).pcie = s.pcie ∧ (modPort p f s).nvme = s.nvme ∧
    (modPort p f s).smb0 = s.smb0 ∧ (modPort p f s).smb1 = s.smb1 ∧ (modPort p f s).uart = s.uart ∧ (modPort p f s).jtag = s.jtag ∧
    (modPort p f s).time = s.time ∧ (modPort p f s).rl = s.rl ∧ (modPort p f s).ps = s.ps ∧ (modPort p f s).rack = s.rack ∧
    (modPort p f s).mem = s.mem ∧ (modPort p f s).comp = s.comp ∧ (modPort p f s).srv = s.srv ∧ (modPort p f s).furl = s.furl ∧
    (modPort p f s).sec = s.sec ∧ (modPort p f s).stay = s.stay ∧ (modPort p f s).eth = s.eth ∧ (modPort p f s).shr = s.shr ∧
    (modPort p f s).bow = s.bow ∧ (modPort p f s).frame = s.frame ∧ (modPort p f s).reef = s.reef ∧ (modPort p f s).out = s.out ∧
    (modPort p f s).free = s.free ∧ (modPort p f s).pending = s.pending :=
  ⟨rfl, rfl, rfl, rfl, rfl, rfl, rfl, rfl, rfl, rfl, rfl, rfl, rfl, rfl, rfl, rfl, rfl, rfl, rfl, rfl, rfl, rfl, rfl, rfl, rfl, rfl, rfl, rfl, rfl, rfl⟩

@[simp] theorem modEth_keeps (p : Nat) (f : EthPort → EthPort) (s : State) :
    (modEth p f s).fuses = s.fuses ∧ (modEth p f s).pins = s.pins ∧ (modEth p f s).pow = s.pow ∧ (modEth p f s).dev = s.dev ∧
    (modEth p f s).tt = s.tt ∧ (modEth p f s).host = s.host ∧ (modEth p f s).pcie = s.pcie ∧ (modEth p f s).nvme = s.nvme ∧
    (modEth p f s).smb0 = s.smb0 ∧ (modEth p f s).smb1 = s.smb1 ∧ (modEth p f s).uart = s.uart ∧ (modEth p f s).jtag = s.jtag ∧
    (modEth p f s).time = s.time ∧ (modEth p f s).rl = s.rl ∧ (modEth p f s).ps = s.ps ∧ (modEth p f s).rack = s.rack ∧
    (modEth p f s).mem = s.mem ∧ (modEth p f s).comp = s.comp ∧ (modEth p f s).srv = s.srv ∧ (modEth p f s).furl = s.furl ∧
    (modEth p f s).sec = s.sec ∧ (modEth p f s).stay = s.stay ∧ (modEth p f s).trim = s.trim ∧ (modEth p f s).shr = s.shr ∧
    (modEth p f s).bow = s.bow ∧ (modEth p f s).frame = s.frame ∧ (modEth p f s).reef = s.reef ∧ (modEth p f s).out = s.out ∧
    (modEth p f s).free = s.free ∧ (modEth p f s).pending = s.pending :=
  ⟨rfl, rfl, rfl, rfl, rfl, rfl, rfl, rfl, rfl, rfl, rfl, rfl, rfl, rfl, rfl, rfl, rfl, rfl, rfl, rfl, rfl, rfl, rfl, rfl, rfl, rfl, rfl, rfl, rfl, rfl⟩

@[simp] theorem modMem_keeps (f : Memory → Memory) (s : State) :
    (modMem f s).fuses = s.fuses ∧ (modMem f s).pins = s.pins ∧ (modMem f s).pow = s.pow ∧ (modMem f s).dev = s.dev ∧
    (modMem f s).tt = s.tt ∧ (modMem f s).host = s.host ∧ (modMem f s).pcie = s.pcie ∧ (modMem f s).nvme = s.nvme ∧
    (modMem f s).smb0 = s.smb0 ∧ (modMem f s).smb1 = s.smb1 ∧ (modMem f s).uart = s.uart ∧ (modMem f s).jtag = s.jtag ∧
    (modMem f s).time = s.time ∧ (modMem f s).rl = s.rl ∧ (modMem f s).ps = s.ps ∧ (modMem f s).rack = s.rack ∧
    (modMem f s).comp = s.comp ∧ (modMem f s).srv = s.srv ∧ (modMem f s).furl = s.furl ∧ (modMem f s).sec = s.sec ∧
    (modMem f s).stay = s.stay ∧ (modMem f s).trim = s.trim ∧ (modMem f s).eth = s.eth ∧ (modMem f s).shr = s.shr ∧
    (modMem f s).bow = s.bow ∧ (modMem f s).frame = s.frame ∧ (modMem f s).reef = s.reef ∧ (modMem f s).out = s.out ∧
    (modMem f s).free = s.free ∧ (modMem f s).pending = s.pending :=
  ⟨rfl, rfl, rfl, rfl, rfl, rfl, rfl, rfl, rfl, rfl, rfl, rfl, rfl, rfl, rfl, rfl, rfl, rfl, rfl, rfl, rfl, rfl, rfl, rfl, rfl, rfl, rfl, rfl, rfl, rfl⟩

@[simp] theorem modMem_mem (f : Memory → Memory) (s : State) : (modMem f s).mem = f s.mem := rfl

@[simp] theorem modReef_keeps (f : Reef → Reef) (s : State) :
    (modReef f s).fuses = s.fuses ∧ (modReef f s).pins = s.pins ∧ (modReef f s).pow = s.pow ∧ (modReef f s).dev = s.dev ∧
    (modReef f s).tt = s.tt ∧ (modReef f s).host = s.host ∧ (modReef f s).pcie = s.pcie ∧ (modReef f s).nvme = s.nvme ∧
    (modReef f s).smb0 = s.smb0 ∧ (modReef f s).smb1 = s.smb1 ∧ (modReef f s).uart = s.uart ∧ (modReef f s).jtag = s.jtag ∧
    (modReef f s).time = s.time ∧ (modReef f s).rl = s.rl ∧ (modReef f s).ps = s.ps ∧ (modReef f s).rack = s.rack ∧
    (modReef f s).mem = s.mem ∧ (modReef f s).comp = s.comp ∧ (modReef f s).srv = s.srv ∧ (modReef f s).furl = s.furl ∧
    (modReef f s).sec = s.sec ∧ (modReef f s).stay = s.stay ∧ (modReef f s).trim = s.trim ∧ (modReef f s).eth = s.eth ∧
    (modReef f s).shr = s.shr ∧ (modReef f s).bow = s.bow ∧ (modReef f s).frame = s.frame ∧ (modReef f s).out = s.out ∧
    (modReef f s).free = s.free ∧ (modReef f s).pending = s.pending :=
  ⟨rfl, rfl, rfl, rfl, rfl, rfl, rfl, rfl, rfl, rfl, rfl, rfl, rfl, rfl, rfl, rfl, rfl, rfl, rfl, rfl, rfl, rfl, rfl, rfl, rfl, rfl, rfl, rfl, rfl, rfl⟩

@[simp] theorem modReef_reef (f : Reef → Reef) (s : State) : (modReef f s).reef = f s.reef := rfl

@[simp] theorem modSnap_keeps (i : Nat) (f : Snap → Snap) (s : State) :
    (modSnap i f s).fuses = s.fuses ∧ (modSnap i f s).pins = s.pins ∧ (modSnap i f s).pow = s.pow ∧ (modSnap i f s).dev = s.dev ∧
    (modSnap i f s).tt = s.tt ∧ (modSnap i f s).host = s.host ∧ (modSnap i f s).pcie = s.pcie ∧ (modSnap i f s).nvme = s.nvme ∧
    (modSnap i f s).smb0 = s.smb0 ∧ (modSnap i f s).smb1 = s.smb1 ∧ (modSnap i f s).uart = s.uart ∧ (modSnap i f s).jtag = s.jtag ∧
    (modSnap i f s).time = s.time ∧ (modSnap i f s).rl = s.rl ∧ (modSnap i f s).ps = s.ps ∧ (modSnap i f s).rack = s.rack ∧
    (modSnap i f s).mem = s.mem ∧ (modSnap i f s).comp = s.comp ∧ (modSnap i f s).srv = s.srv ∧ (modSnap i f s).furl = s.furl ∧
    (modSnap i f s).sec = s.sec ∧ (modSnap i f s).stay = s.stay ∧ (modSnap i f s).trim = s.trim ∧ (modSnap i f s).eth = s.eth ∧
    (modSnap i f s).shr = s.shr ∧ (modSnap i f s).bow = s.bow ∧ (modSnap i f s).frame = s.frame ∧ (modSnap i f s).out = s.out ∧
    (modSnap i f s).free = s.free ∧ (modSnap i f s).pending = s.pending :=
  ⟨rfl, rfl, rfl, rfl, rfl, rfl, rfl, rfl, rfl, rfl, rfl, rfl, rfl, rfl, rfl, rfl, rfl, rfl, rfl, rfl, rfl, rfl, rfl, rfl, rfl, rfl, rfl, rfl, rfl, rfl⟩

@[simp] theorem modEvac_keeps (f : Evac → Evac) (s : State) :
    (modEvac f s).fuses = s.fuses ∧ (modEvac f s).pins = s.pins ∧ (modEvac f s).pow = s.pow ∧ (modEvac f s).dev = s.dev ∧
    (modEvac f s).tt = s.tt ∧ (modEvac f s).host = s.host ∧ (modEvac f s).pcie = s.pcie ∧ (modEvac f s).nvme = s.nvme ∧
    (modEvac f s).smb0 = s.smb0 ∧ (modEvac f s).smb1 = s.smb1 ∧ (modEvac f s).uart = s.uart ∧ (modEvac f s).jtag = s.jtag ∧
    (modEvac f s).time = s.time ∧ (modEvac f s).rl = s.rl ∧ (modEvac f s).ps = s.ps ∧ (modEvac f s).rack = s.rack ∧
    (modEvac f s).mem = s.mem ∧ (modEvac f s).comp = s.comp ∧ (modEvac f s).srv = s.srv ∧ (modEvac f s).furl = s.furl ∧
    (modEvac f s).sec = s.sec ∧ (modEvac f s).stay = s.stay ∧ (modEvac f s).trim = s.trim ∧ (modEvac f s).eth = s.eth ∧
    (modEvac f s).shr = s.shr ∧ (modEvac f s).bow = s.bow ∧ (modEvac f s).frame = s.frame ∧ (modEvac f s).out = s.out ∧
    (modEvac f s).free = s.free ∧ (modEvac f s).pending = s.pending :=
  ⟨rfl, rfl, rfl, rfl, rfl, rfl, rfl, rfl, rfl, rfl, rfl, rfl, rfl, rfl, rfl, rfl, rfl, rfl, rfl, rfl, rfl, rfl, rfl, rfl, rfl, rfl, rfl, rfl, rfl, rfl⟩

@[simp] theorem modSec_keeps (f : Sec → Sec) (s : State) :
    (modSec f s).fuses = s.fuses ∧ (modSec f s).pins = s.pins ∧ (modSec f s).pow = s.pow ∧ (modSec f s).dev = s.dev ∧
    (modSec f s).tt = s.tt ∧ (modSec f s).host = s.host ∧ (modSec f s).pcie = s.pcie ∧ (modSec f s).nvme = s.nvme ∧
    (modSec f s).smb0 = s.smb0 ∧ (modSec f s).smb1 = s.smb1 ∧ (modSec f s).uart = s.uart ∧ (modSec f s).jtag = s.jtag ∧
    (modSec f s).time = s.time ∧ (modSec f s).rl = s.rl ∧ (modSec f s).ps = s.ps ∧ (modSec f s).rack = s.rack ∧ (modSec f s).mem = s.mem ∧
    (modSec f s).comp = s.comp ∧ (modSec f s).srv = s.srv ∧ (modSec f s).furl = s.furl ∧ (modSec f s).stay = s.stay ∧
    (modSec f s).trim = s.trim ∧ (modSec f s).eth = s.eth ∧ (modSec f s).shr = s.shr ∧ (modSec f s).bow = s.bow ∧
    (modSec f s).frame = s.frame ∧ (modSec f s).reef = s.reef ∧ (modSec f s).out = s.out ∧ (modSec f s).free = s.free ∧
    (modSec f s).pending = s.pending :=
  ⟨rfl, rfl, rfl, rfl, rfl, rfl, rfl, rfl, rfl, rfl, rfl, rfl, rfl, rfl, rfl, rfl, rfl, rfl, rfl, rfl, rfl, rfl, rfl, rfl, rfl, rfl, rfl, rfl, rfl, rfl⟩

@[simp] theorem modSec_sec (f : Sec → Sec) (s : State) : (modSec f s).sec = f s.sec := rfl

@[simp] theorem modFwSlot_keeps (n : Nat) (f : FwSlot → FwSlot) (s : State) :
    (modFwSlot n f s).fuses = s.fuses ∧ (modFwSlot n f s).pins = s.pins ∧ (modFwSlot n f s).pow = s.pow ∧ (modFwSlot n f s).dev = s.dev ∧
    (modFwSlot n f s).tt = s.tt ∧ (modFwSlot n f s).host = s.host ∧ (modFwSlot n f s).pcie = s.pcie ∧ (modFwSlot n f s).nvme = s.nvme ∧
    (modFwSlot n f s).smb0 = s.smb0 ∧ (modFwSlot n f s).smb1 = s.smb1 ∧ (modFwSlot n f s).uart = s.uart ∧
    (modFwSlot n f s).jtag = s.jtag ∧ (modFwSlot n f s).time = s.time ∧ (modFwSlot n f s).rl = s.rl ∧ (modFwSlot n f s).ps = s.ps ∧
    (modFwSlot n f s).rack = s.rack ∧ (modFwSlot n f s).mem = s.mem ∧ (modFwSlot n f s).comp = s.comp ∧ (modFwSlot n f s).srv = s.srv ∧
    (modFwSlot n f s).furl = s.furl ∧ (modFwSlot n f s).stay = s.stay ∧ (modFwSlot n f s).trim = s.trim ∧ (modFwSlot n f s).eth = s.eth ∧
    (modFwSlot n f s).shr = s.shr ∧ (modFwSlot n f s).bow = s.bow ∧ (modFwSlot n f s).frame = s.frame ∧ (modFwSlot n f s).reef = s.reef ∧
    (modFwSlot n f s).out = s.out ∧ (modFwSlot n f s).free = s.free ∧ (modFwSlot n f s).pending = s.pending :=
  ⟨rfl, rfl, rfl, rfl, rfl, rfl, rfl, rfl, rfl, rfl, rfl, rfl, rfl, rfl, rfl, rfl, rfl, rfl, rfl, rfl, rfl, rfl, rfl, rfl, rfl, rfl, rfl, rfl, rfl, rfl⟩

@[simp] theorem modTile_keeps (t : Nat) (f : Tile → Tile) (s : State) :
    (modTile t f s).fuses = s.fuses ∧ (modTile t f s).pins = s.pins ∧ (modTile t f s).pow = s.pow ∧ (modTile t f s).dev = s.dev ∧
    (modTile t f s).tt = s.tt ∧ (modTile t f s).host = s.host ∧ (modTile t f s).pcie = s.pcie ∧ (modTile t f s).nvme = s.nvme ∧
    (modTile t f s).smb0 = s.smb0 ∧ (modTile t f s).smb1 = s.smb1 ∧ (modTile t f s).uart = s.uart ∧ (modTile t f s).jtag = s.jtag ∧
    (modTile t f s).time = s.time ∧ (modTile t f s).rl = s.rl ∧ (modTile t f s).ps = s.ps ∧ (modTile t f s).rack = s.rack ∧
    (modTile t f s).mem = s.mem ∧ (modTile t f s).srv = s.srv ∧ (modTile t f s).furl = s.furl ∧ (modTile t f s).sec = s.sec ∧
    (modTile t f s).stay = s.stay ∧ (modTile t f s).trim = s.trim ∧ (modTile t f s).eth = s.eth ∧ (modTile t f s).shr = s.shr ∧
    (modTile t f s).bow = s.bow ∧ (modTile t f s).frame = s.frame ∧ (modTile t f s).reef = s.reef ∧ (modTile t f s).out = s.out ∧
    (modTile t f s).free = s.free ∧ (modTile t f s).pending = s.pending :=
  ⟨rfl, rfl, rfl, rfl, rfl, rfl, rfl, rfl, rfl, rfl, rfl, rfl, rfl, rfl, rfl, rfl, rfl, rfl, rfl, rfl, rfl, rfl, rfl, rfl, rfl, rfl, rfl, rfl, rfl, rfl⟩

@[simp] theorem modHal_keeps (h : Nat) (f : Halyard → Halyard) (s : State) :
    (modHal h f s).fuses = s.fuses ∧ (modHal h f s).pins = s.pins ∧ (modHal h f s).pow = s.pow ∧ (modHal h f s).dev = s.dev ∧
    (modHal h f s).tt = s.tt ∧ (modHal h f s).host = s.host ∧ (modHal h f s).pcie = s.pcie ∧ (modHal h f s).nvme = s.nvme ∧
    (modHal h f s).smb0 = s.smb0 ∧ (modHal h f s).smb1 = s.smb1 ∧ (modHal h f s).uart = s.uart ∧ (modHal h f s).jtag = s.jtag ∧
    (modHal h f s).time = s.time ∧ (modHal h f s).rl = s.rl ∧ (modHal h f s).ps = s.ps ∧ (modHal h f s).rack = s.rack ∧
    (modHal h f s).mem = s.mem ∧ (modHal h f s).srv = s.srv ∧ (modHal h f s).furl = s.furl ∧ (modHal h f s).sec = s.sec ∧
    (modHal h f s).stay = s.stay ∧ (modHal h f s).trim = s.trim ∧ (modHal h f s).eth = s.eth ∧ (modHal h f s).shr = s.shr ∧
    (modHal h f s).bow = s.bow ∧ (modHal h f s).frame = s.frame ∧ (modHal h f s).reef = s.reef ∧ (modHal h f s).out = s.out ∧
    (modHal h f s).free = s.free ∧ (modHal h f s).pending = s.pending :=
  ⟨rfl, rfl, rfl, rfl, rfl, rfl, rfl, rfl, rfl, rfl, rfl, rfl, rfl, rfl, rfl, rfl, rfl, rfl, rfl, rfl, rfl, rfl, rfl, rfl, rfl, rfl, rfl, rfl, rfl, rfl⟩

@[simp] theorem modSheet_keeps (t n : Nat) (f : Sheet → Sheet) (s : State) :
    (modSheet t n f s).fuses = s.fuses ∧ (modSheet t n f s).pins = s.pins ∧ (modSheet t n f s).pow = s.pow ∧
    (modSheet t n f s).dev = s.dev ∧ (modSheet t n f s).tt = s.tt ∧ (modSheet t n f s).host = s.host ∧ (modSheet t n f s).pcie = s.pcie ∧
    (modSheet t n f s).nvme = s.nvme ∧ (modSheet t n f s).smb0 = s.smb0 ∧ (modSheet t n f s).smb1 = s.smb1 ∧
    (modSheet t n f s).uart = s.uart ∧ (modSheet t n f s).jtag = s.jtag ∧ (modSheet t n f s).time = s.time ∧
    (modSheet t n f s).rl = s.rl ∧ (modSheet t n f s).ps = s.ps ∧ (modSheet t n f s).rack = s.rack ∧ (modSheet t n f s).mem = s.mem ∧
    (modSheet t n f s).srv = s.srv ∧ (modSheet t n f s).furl = s.furl ∧ (modSheet t n f s).sec = s.sec ∧
    (modSheet t n f s).stay = s.stay ∧ (modSheet t n f s).trim = s.trim ∧ (modSheet t n f s).eth = s.eth ∧
    (modSheet t n f s).shr = s.shr ∧ (modSheet t n f s).bow = s.bow ∧ (modSheet t n f s).frame = s.frame ∧
    (modSheet t n f s).reef = s.reef ∧ (modSheet t n f s).out = s.out ∧ (modSheet t n f s).free = s.free ∧
    (modSheet t n f s).pending = s.pending :=
  ⟨rfl, rfl, rfl, rfl, rfl, rfl, rfl, rfl, rfl, rfl, rfl, rfl, rfl, rfl, rfl, rfl, rfl, rfl, rfl, rfl, rfl, rfl, rfl, rfl, rfl, rfl, rfl, rfl, rfl, rfl⟩

@[simp] theorem modCleat_keeps (glob : Bool) (i : Nat) (f : Cleat → Cleat) (s : State) :
    (modCleat glob i f s).fuses = s.fuses ∧ (modCleat glob i f s).pins = s.pins ∧ (modCleat glob i f s).pow = s.pow ∧
    (modCleat glob i f s).dev = s.dev ∧ (modCleat glob i f s).tt = s.tt ∧ (modCleat glob i f s).host = s.host ∧
    (modCleat glob i f s).pcie = s.pcie ∧ (modCleat glob i f s).nvme = s.nvme ∧ (modCleat glob i f s).smb0 = s.smb0 ∧
    (modCleat glob i f s).smb1 = s.smb1 ∧ (modCleat glob i f s).uart = s.uart ∧ (modCleat glob i f s).jtag = s.jtag ∧
    (modCleat glob i f s).time = s.time ∧ (modCleat glob i f s).rl = s.rl ∧ (modCleat glob i f s).ps = s.ps ∧
    (modCleat glob i f s).rack = s.rack ∧ (modCleat glob i f s).mem = s.mem ∧ (modCleat glob i f s).srv = s.srv ∧
    (modCleat glob i f s).furl = s.furl ∧ (modCleat glob i f s).sec = s.sec ∧ (modCleat glob i f s).stay = s.stay ∧
    (modCleat glob i f s).trim = s.trim ∧ (modCleat glob i f s).eth = s.eth ∧ (modCleat glob i f s).shr = s.shr ∧
    (modCleat glob i f s).bow = s.bow ∧ (modCleat glob i f s).frame = s.frame ∧ (modCleat glob i f s).reef = s.reef ∧
    (modCleat glob i f s).out = s.out ∧ (modCleat glob i f s).free = s.free ∧ (modCleat glob i f s).pending = s.pending := by
  cases glob <;> exact ⟨rfl, rfl, rfl, rfl, rfl, rfl, rfl, rfl, rfl, rfl, rfl, rfl, rfl, rfl, rfl, rfl, rfl, rfl, rfl, rfl, rfl, rfl, rfl, rfl, rfl, rfl, rfl, rfl, rfl, rfl⟩

@[simp] theorem modBow_keeps (f : Bow → Bow) (s : State) :
    (modBow f s).fuses = s.fuses ∧ (modBow f s).pins = s.pins ∧ (modBow f s).pow = s.pow ∧ (modBow f s).dev = s.dev ∧
    (modBow f s).tt = s.tt ∧ (modBow f s).host = s.host ∧ (modBow f s).pcie = s.pcie ∧ (modBow f s).nvme = s.nvme ∧
    (modBow f s).smb0 = s.smb0 ∧ (modBow f s).smb1 = s.smb1 ∧ (modBow f s).uart = s.uart ∧ (modBow f s).jtag = s.jtag ∧
    (modBow f s).time = s.time ∧ (modBow f s).rl = s.rl ∧ (modBow f s).ps = s.ps ∧ (modBow f s).rack = s.rack ∧ (modBow f s).mem = s.mem ∧
    (modBow f s).comp = s.comp ∧ (modBow f s).srv = s.srv ∧ (modBow f s).furl = s.furl ∧ (modBow f s).sec = s.sec ∧
    (modBow f s).stay = s.stay ∧ (modBow f s).trim = s.trim ∧ (modBow f s).eth = s.eth ∧ (modBow f s).shr = s.shr ∧
    (modBow f s).frame = s.frame ∧ (modBow f s).reef = s.reef ∧ (modBow f s).out = s.out ∧ (modBow f s).free = s.free ∧
    (modBow f s).pending = s.pending :=
  ⟨rfl, rfl, rfl, rfl, rfl, rfl, rfl, rfl, rfl, rfl, rfl, rfl, rfl, rfl, rfl, rfl, rfl, rfl, rfl, rfl, rfl, rfl, rfl, rfl, rfl, rfl, rfl, rfl, rfl, rfl⟩

@[simp] theorem modBow_bow (f : Bow → Bow) (s : State) : (modBow f s).bow = f s.bow := rfl

@[simp] theorem modDread_keeps (i : Nat) (f : DelayedRead → DelayedRead) (s : State) :
    (modDread i f s).fuses = s.fuses ∧ (modDread i f s).pins = s.pins ∧ (modDread i f s).pow = s.pow ∧ (modDread i f s).dev = s.dev ∧
    (modDread i f s).tt = s.tt ∧ (modDread i f s).host = s.host ∧ (modDread i f s).pcie = s.pcie ∧ (modDread i f s).nvme = s.nvme ∧
    (modDread i f s).smb0 = s.smb0 ∧ (modDread i f s).smb1 = s.smb1 ∧ (modDread i f s).uart = s.uart ∧ (modDread i f s).jtag = s.jtag ∧
    (modDread i f s).time = s.time ∧ (modDread i f s).rl = s.rl ∧ (modDread i f s).ps = s.ps ∧ (modDread i f s).rack = s.rack ∧
    (modDread i f s).mem = s.mem ∧ (modDread i f s).comp = s.comp ∧ (modDread i f s).srv = s.srv ∧ (modDread i f s).furl = s.furl ∧
    (modDread i f s).sec = s.sec ∧ (modDread i f s).stay = s.stay ∧ (modDread i f s).trim = s.trim ∧ (modDread i f s).eth = s.eth ∧
    (modDread i f s).shr = s.shr ∧ (modDread i f s).frame = s.frame ∧ (modDread i f s).reef = s.reef ∧ (modDread i f s).out = s.out ∧
    (modDread i f s).free = s.free ∧ (modDread i f s).pending = s.pending :=
  ⟨rfl, rfl, rfl, rfl, rfl, rfl, rfl, rfl, rfl, rfl, rfl, rfl, rfl, rfl, rfl, rfl, rfl, rfl, rfl, rfl, rfl, rfl, rfl, rfl, rfl, rfl, rfl, rfl, rfl, rfl⟩

@[simp] theorem emit_keeps (o : Out) (s : State) :
    (emit o s).fuses = s.fuses ∧ (emit o s).pins = s.pins ∧ (emit o s).pow = s.pow ∧ (emit o s).dev = s.dev ∧ (emit o s).tt = s.tt ∧
    (emit o s).host = s.host ∧ (emit o s).pcie = s.pcie ∧ (emit o s).nvme = s.nvme ∧ (emit o s).smb0 = s.smb0 ∧ (emit o s).smb1 = s.smb1 ∧
    (emit o s).uart = s.uart ∧ (emit o s).jtag = s.jtag ∧ (emit o s).time = s.time ∧ (emit o s).rl = s.rl ∧ (emit o s).ps = s.ps ∧
    (emit o s).rack = s.rack ∧ (emit o s).mem = s.mem ∧ (emit o s).comp = s.comp ∧ (emit o s).srv = s.srv ∧ (emit o s).furl = s.furl ∧
    (emit o s).sec = s.sec ∧ (emit o s).stay = s.stay ∧ (emit o s).trim = s.trim ∧ (emit o s).eth = s.eth ∧ (emit o s).shr = s.shr ∧
    (emit o s).bow = s.bow ∧ (emit o s).frame = s.frame ∧ (emit o s).reef = s.reef ∧ (emit o s).free = s.free ∧
    (emit o s).pending = s.pending :=
  ⟨rfl, rfl, rfl, rfl, rfl, rfl, rfl, rfl, rfl, rfl, rfl, rfl, rfl, rfl, rfl, rfl, rfl, rfl, rfl, rfl, rfl, rfl, rfl, rfl, rfl, rfl, rfl, rfl, rfl, rfl⟩

@[simp] theorem emit_out (o : Out) (s : State) : (emit o s).out = s.out ++ [o] := rfl

@[simp] theorem modView_keeps (fn : Nat) (f : FnView → FnView) (s : State) :
    (modView fn f s).fuses = s.fuses ∧ (modView fn f s).pins = s.pins ∧ (modView fn f s).pow = s.pow ∧ (modView fn f s).dev = s.dev ∧
    (modView fn f s).tt = s.tt ∧ (modView fn f s).pcie = s.pcie ∧ (modView fn f s).nvme = s.nvme ∧ (modView fn f s).smb0 = s.smb0 ∧
    (modView fn f s).smb1 = s.smb1 ∧ (modView fn f s).uart = s.uart ∧ (modView fn f s).jtag = s.jtag ∧ (modView fn f s).time = s.time ∧
    (modView fn f s).rl = s.rl ∧ (modView fn f s).ps = s.ps ∧ (modView fn f s).rack = s.rack ∧ (modView fn f s).mem = s.mem ∧
    (modView fn f s).comp = s.comp ∧ (modView fn f s).srv = s.srv ∧ (modView fn f s).furl = s.furl ∧ (modView fn f s).sec = s.sec ∧
    (modView fn f s).stay = s.stay ∧ (modView fn f s).trim = s.trim ∧ (modView fn f s).eth = s.eth ∧ (modView fn f s).shr = s.shr ∧
    (modView fn f s).bow = s.bow ∧ (modView fn f s).frame = s.frame ∧ (modView fn f s).reef = s.reef ∧ (modView fn f s).out = s.out ∧
    (modView fn f s).free = s.free ∧ (modView fn f s).pending = s.pending :=
  ⟨rfl, rfl, rfl, rfl, rfl, rfl, rfl, rfl, rfl, rfl, rfl, rfl, rfl, rfl, rfl, rfl, rfl, rfl, rfl, rfl, rfl, rfl, rfl, rfl, rfl, rfl, rfl, rfl, rfl, rfl⟩

@[simp] theorem modPage_keeps (m : Nat) (f : Page → Page) (s : State) :
    (modPage m f s).fuses = s.fuses ∧ (modPage m f s).pins = s.pins ∧ (modPage m f s).pow = s.pow ∧ (modPage m f s).dev = s.dev ∧
    (modPage m f s).tt = s.tt ∧ (modPage m f s).pcie = s.pcie ∧ (modPage m f s).nvme = s.nvme ∧ (modPage m f s).smb0 = s.smb0 ∧
    (modPage m f s).smb1 = s.smb1 ∧ (modPage m f s).uart = s.uart ∧ (modPage m f s).jtag = s.jtag ∧ (modPage m f s).time = s.time ∧
    (modPage m f s).rl = s.rl ∧ (modPage m f s).ps = s.ps ∧ (modPage m f s).rack = s.rack ∧ (modPage m f s).mem = s.mem ∧
    (modPage m f s).comp = s.comp ∧ (modPage m f s).srv = s.srv ∧ (modPage m f s).furl = s.furl ∧ (modPage m f s).sec = s.sec ∧
    (modPage m f s).stay = s.stay ∧ (modPage m f s).trim = s.trim ∧ (modPage m f s).eth = s.eth ∧ (modPage m f s).shr = s.shr ∧
    (modPage m f s).bow = s.bow ∧ (modPage m f s).frame = s.frame ∧ (modPage m f s).reef = s.reef ∧ (modPage m f s).out = s.out ∧
    (modPage m f s).free = s.free ∧ (modPage m f s).pending = s.pending :=
  ⟨rfl, rfl, rfl, rfl, rfl, rfl, rfl, rfl, rfl, rfl, rfl, rfl, rfl, rfl, rfl, rfl, rfl, rfl, rfl, rfl, rfl, rfl, rfl, rfl, rfl, rfl, rfl, rfl, rfl, rfl⟩

@[simp] theorem modMbx_keeps (m : Nat) (f : Mbx → Mbx) (s : State) :
    (modMbx m f s).fuses = s.fuses ∧ (modMbx m f s).pins = s.pins ∧ (modMbx m f s).pow = s.pow ∧ (modMbx m f s).dev = s.dev ∧
    (modMbx m f s).tt = s.tt ∧ (modMbx m f s).pcie = s.pcie ∧ (modMbx m f s).nvme = s.nvme ∧ (modMbx m f s).smb0 = s.smb0 ∧
    (modMbx m f s).smb1 = s.smb1 ∧ (modMbx m f s).uart = s.uart ∧ (modMbx m f s).jtag = s.jtag ∧ (modMbx m f s).time = s.time ∧
    (modMbx m f s).rl = s.rl ∧ (modMbx m f s).ps = s.ps ∧ (modMbx m f s).rack = s.rack ∧ (modMbx m f s).mem = s.mem ∧
    (modMbx m f s).comp = s.comp ∧ (modMbx m f s).srv = s.srv ∧ (modMbx m f s).furl = s.furl ∧ (modMbx m f s).sec = s.sec ∧
    (modMbx m f s).stay = s.stay ∧ (modMbx m f s).trim = s.trim ∧ (modMbx m f s).eth = s.eth ∧ (modMbx m f s).shr = s.shr ∧
    (modMbx m f s).bow = s.bow ∧ (modMbx m f s).frame = s.frame ∧ (modMbx m f s).reef = s.reef ∧ (modMbx m f s).out = s.out ∧
    (modMbx m f s).free = s.free ∧ (modMbx m f s).pending = s.pending :=
  ⟨rfl, rfl, rfl, rfl, rfl, rfl, rfl, rfl, rfl, rfl, rfl, rfl, rfl, rfl, rfl, rfl, rfl, rfl, rfl, rfl, rfl, rfl, rfl, rfl, rfl, rfl, rfl, rfl, rfl, rfl⟩

@[simp] theorem modCmd_keeps (r : Nat × Nat) (f : Outst → Outst) (s : State) :
    (modCmd r f s).fuses = s.fuses ∧ (modCmd r f s).pins = s.pins ∧ (modCmd r f s).pow = s.pow ∧ (modCmd r f s).dev = s.dev ∧
    (modCmd r f s).tt = s.tt ∧ (modCmd r f s).pcie = s.pcie ∧ (modCmd r f s).nvme = s.nvme ∧ (modCmd r f s).smb0 = s.smb0 ∧
    (modCmd r f s).smb1 = s.smb1 ∧ (modCmd r f s).uart = s.uart ∧ (modCmd r f s).jtag = s.jtag ∧ (modCmd r f s).time = s.time ∧
    (modCmd r f s).rl = s.rl ∧ (modCmd r f s).ps = s.ps ∧ (modCmd r f s).rack = s.rack ∧ (modCmd r f s).mem = s.mem ∧
    (modCmd r f s).comp = s.comp ∧ (modCmd r f s).srv = s.srv ∧ (modCmd r f s).furl = s.furl ∧ (modCmd r f s).sec = s.sec ∧
    (modCmd r f s).stay = s.stay ∧ (modCmd r f s).trim = s.trim ∧ (modCmd r f s).eth = s.eth ∧ (modCmd r f s).shr = s.shr ∧
    (modCmd r f s).bow = s.bow ∧ (modCmd r f s).frame = s.frame ∧ (modCmd r f s).reef = s.reef ∧ (modCmd r f s).out = s.out ∧
    (modCmd r f s).free = s.free ∧ (modCmd r f s).pending = s.pending :=
  ⟨rfl, rfl, rfl, rfl, rfl, rfl, rfl, rfl, rfl, rfl, rfl, rfl, rfl, rfl, rfl, rfl, rfl, rfl, rfl, rfl, rfl, rfl, rfl, rfl, rfl, rfl, rfl, rfl, rfl, rfl⟩

@[simp] theorem setRail_keeps (die : Nat) (r : Rail) (s : State) :
    (setRail die r s).fuses = s.fuses ∧ (setRail die r s).pins = s.pins ∧ (setRail die r s).dev = s.dev ∧ (setRail die r s).tt = s.tt ∧
    (setRail die r s).host = s.host ∧ (setRail die r s).pcie = s.pcie ∧ (setRail die r s).nvme = s.nvme ∧
    (setRail die r s).smb0 = s.smb0 ∧ (setRail die r s).smb1 = s.smb1 ∧ (setRail die r s).uart = s.uart ∧
    (setRail die r s).jtag = s.jtag ∧ (setRail die r s).time = s.time ∧ (setRail die r s).rl = s.rl ∧ (setRail die r s).ps = s.ps ∧
    (setRail die r s).rack = s.rack ∧ (setRail die r s).mem = s.mem ∧ (setRail die r s).comp = s.comp ∧ (setRail die r s).srv = s.srv ∧
    (setRail die r s).furl = s.furl ∧ (setRail die r s).sec = s.sec ∧ (setRail die r s).stay = s.stay ∧ (setRail die r s).trim = s.trim ∧
    (setRail die r s).eth = s.eth ∧ (setRail die r s).shr = s.shr ∧ (setRail die r s).bow = s.bow ∧ (setRail die r s).frame = s.frame ∧
    (setRail die r s).reef = s.reef ∧ (setRail die r s).out = s.out ∧ (setRail die r s).free = s.free ∧
    (setRail die r s).pending = s.pending :=
  ⟨rfl, rfl, rfl, rfl, rfl, rfl, rfl, rfl, rfl, rfl, rfl, rfl, rfl, rfl, rfl, rfl, rfl, rfl, rfl, rfl, rfl, rfl, rfl, rfl, rfl, rfl, rfl, rfl, rfl, rfl⟩

@[simp] theorem modFurl_keeps (f : Furl → Furl) (s : State) :
    (modFurl f s).fuses = s.fuses ∧ (modFurl f s).pins = s.pins ∧ (modFurl f s).pow = s.pow ∧ (modFurl f s).dev = s.dev ∧
    (modFurl f s).tt = s.tt ∧ (modFurl f s).host = s.host ∧ (modFurl f s).pcie = s.pcie ∧ (modFurl f s).nvme = s.nvme ∧
    (modFurl f s).smb0 = s.smb0 ∧ (modFurl f s).smb1 = s.smb1 ∧ (modFurl f s).uart = s.uart ∧ (modFurl f s).jtag = s.jtag ∧
    (modFurl f s).time = s.time ∧ (modFurl f s).rl = s.rl ∧ (modFurl f s).ps = s.ps ∧ (modFurl f s).rack = s.rack ∧
    (modFurl f s).mem = s.mem ∧ (modFurl f s).comp = s.comp ∧ (modFurl f s).srv = s.srv ∧ (modFurl f s).sec = s.sec ∧
    (modFurl f s).stay = s.stay ∧ (modFurl f s).trim = s.trim ∧ (modFurl f s).eth = s.eth ∧ (modFurl f s).shr = s.shr ∧
    (modFurl f s).bow = s.bow ∧ (modFurl f s).frame = s.frame ∧ (modFurl f s).reef = s.reef ∧ (modFurl f s).out = s.out ∧
    (modFurl f s).free = s.free ∧ (modFurl f s).pending = s.pending :=
  ⟨rfl, rfl, rfl, rfl, rfl, rfl, rfl, rfl, rfl, rfl, rfl, rfl, rfl, rfl, rfl, rfl, rfl, rfl, rfl, rfl, rfl, rfl, rfl, rfl, rfl, rfl, rfl, rfl, rfl, rfl⟩

@[simp] theorem modFurl_furl (f : Furl → Furl) (s : State) : (modFurl f s).furl = f s.furl := rfl

@[simp] theorem modDir_keeps (e : Nat) (f : DirEntry → DirEntry) (s : State) :
    (modDir e f s).fuses = s.fuses ∧ (modDir e f s).pins = s.pins ∧ (modDir e f s).pow = s.pow ∧ (modDir e f s).dev = s.dev ∧
    (modDir e f s).tt = s.tt ∧ (modDir e f s).host = s.host ∧ (modDir e f s).pcie = s.pcie ∧ (modDir e f s).nvme = s.nvme ∧
    (modDir e f s).smb0 = s.smb0 ∧ (modDir e f s).smb1 = s.smb1 ∧ (modDir e f s).uart = s.uart ∧ (modDir e f s).jtag = s.jtag ∧
    (modDir e f s).time = s.time ∧ (modDir e f s).rl = s.rl ∧ (modDir e f s).ps = s.ps ∧ (modDir e f s).rack = s.rack ∧
    (modDir e f s).mem = s.mem ∧ (modDir e f s).comp = s.comp ∧ (modDir e f s).srv = s.srv ∧ (modDir e f s).sec = s.sec ∧
    (modDir e f s).stay = s.stay ∧ (modDir e f s).trim = s.trim ∧ (modDir e f s).eth = s.eth ∧ (modDir e f s).shr = s.shr ∧
    (modDir e f s).bow = s.bow ∧ (modDir e f s).frame = s.frame ∧ (modDir e f s).reef = s.reef ∧ (modDir e f s).out = s.out ∧
    (modDir e f s).free = s.free ∧ (modDir e f s).pending = s.pending :=
  ⟨rfl, rfl, rfl, rfl, rfl, rfl, rfl, rfl, rfl, rfl, rfl, rfl, rfl, rfl, rfl, rfl, rfl, rfl, rfl, rfl, rfl, rfl, rfl, rfl, rfl, rfl, rfl, rfl, rfl, rfl⟩

@[simp] theorem modSlot_keeps (p : Nat) (f : PoolSlot → PoolSlot) (s : State) :
    (modSlot p f s).fuses = s.fuses ∧ (modSlot p f s).pins = s.pins ∧ (modSlot p f s).pow = s.pow ∧ (modSlot p f s).dev = s.dev ∧
    (modSlot p f s).tt = s.tt ∧ (modSlot p f s).host = s.host ∧ (modSlot p f s).pcie = s.pcie ∧ (modSlot p f s).nvme = s.nvme ∧
    (modSlot p f s).smb0 = s.smb0 ∧ (modSlot p f s).smb1 = s.smb1 ∧ (modSlot p f s).uart = s.uart ∧ (modSlot p f s).jtag = s.jtag ∧
    (modSlot p f s).time = s.time ∧ (modSlot p f s).rl = s.rl ∧ (modSlot p f s).ps = s.ps ∧ (modSlot p f s).rack = s.rack ∧
    (modSlot p f s).mem = s.mem ∧ (modSlot p f s).comp = s.comp ∧ (modSlot p f s).srv = s.srv ∧ (modSlot p f s).sec = s.sec ∧
    (modSlot p f s).stay = s.stay ∧ (modSlot p f s).trim = s.trim ∧ (modSlot p f s).eth = s.eth ∧ (modSlot p f s).shr = s.shr ∧
    (modSlot p f s).bow = s.bow ∧ (modSlot p f s).frame = s.frame ∧ (modSlot p f s).reef = s.reef ∧ (modSlot p f s).out = s.out ∧
    (modSlot p f s).free = s.free ∧ (modSlot p f s).pending = s.pending :=
  ⟨rfl, rfl, rfl, rfl, rfl, rfl, rfl, rfl, rfl, rfl, rfl, rfl, rfl, rfl, rfl, rfl, rfl, rfl, rfl, rfl, rfl, rfl, rfl, rfl, rfl, rfl, rfl, rfl, rfl, rfl⟩

@[simp] theorem modLink_keeps (k : Nat) (f : Link → Link) (s : State) :
    (modLink k f s).fuses = s.fuses ∧ (modLink k f s).pins = s.pins ∧ (modLink k f s).pow = s.pow ∧ (modLink k f s).dev = s.dev ∧
    (modLink k f s).tt = s.tt ∧ (modLink k f s).host = s.host ∧ (modLink k f s).pcie = s.pcie ∧ (modLink k f s).nvme = s.nvme ∧
    (modLink k f s).smb0 = s.smb0 ∧ (modLink k f s).smb1 = s.smb1 ∧ (modLink k f s).uart = s.uart ∧ (modLink k f s).jtag = s.jtag ∧
    (modLink k f s).time = s.time ∧ (modLink k f s).rl = s.rl ∧ (modLink k f s).ps = s.ps ∧ (modLink k f s).rack = s.rack ∧
    (modLink k f s).mem = s.mem ∧ (modLink k f s).comp = s.comp ∧ (modLink k f s).srv = s.srv ∧ (modLink k f s).furl = s.furl ∧
    (modLink k f s).sec = s.sec ∧ (modLink k f s).trim = s.trim ∧ (modLink k f s).eth = s.eth ∧ (modLink k f s).shr = s.shr ∧
    (modLink k f s).bow = s.bow ∧ (modLink k f s).frame = s.frame ∧ (modLink k f s).reef = s.reef ∧ (modLink k f s).out = s.out ∧
    (modLink k f s).free = s.free ∧ (modLink k f s).pending = s.pending :=
  ⟨rfl, rfl, rfl, rfl, rfl, rfl, rfl, rfl, rfl, rfl, rfl, rfl, rfl, rfl, rfl, rfl, rfl, rfl, rfl, rfl, rfl, rfl, rfl, rfl, rfl, rfl, rfl, rfl, rfl, rfl⟩

@[simp] theorem modShr_keeps (f : Shroud → Shroud) (s : State) :
    (modShr f s).fuses = s.fuses ∧ (modShr f s).pins = s.pins ∧ (modShr f s).pow = s.pow ∧ (modShr f s).dev = s.dev ∧
    (modShr f s).tt = s.tt ∧ (modShr f s).host = s.host ∧ (modShr f s).pcie = s.pcie ∧ (modShr f s).nvme = s.nvme ∧
    (modShr f s).smb0 = s.smb0 ∧ (modShr f s).smb1 = s.smb1 ∧ (modShr f s).uart = s.uart ∧ (modShr f s).jtag = s.jtag ∧
    (modShr f s).time = s.time ∧ (modShr f s).rl = s.rl ∧ (modShr f s).ps = s.ps ∧ (modShr f s).rack = s.rack ∧ (modShr f s).mem = s.mem ∧
    (modShr f s).comp = s.comp ∧ (modShr f s).srv = s.srv ∧ (modShr f s).furl = s.furl ∧ (modShr f s).sec = s.sec ∧
    (modShr f s).stay = s.stay ∧ (modShr f s).trim = s.trim ∧ (modShr f s).eth = s.eth ∧ (modShr f s).bow = s.bow ∧
    (modShr f s).frame = s.frame ∧ (modShr f s).reef = s.reef ∧ (modShr f s).out = s.out ∧ (modShr f s).free = s.free ∧
    (modShr f s).pending = s.pending :=
  ⟨rfl, rfl, rfl, rfl, rfl, rfl, rfl, rfl, rfl, rfl, rfl, rfl, rfl, rfl, rfl, rfl, rfl, rfl, rfl, rfl, rfl, rfl, rfl, rfl, rfl, rfl, rfl, rfl, rfl, rfl⟩

@[simp] theorem modShr_shr (f : Shroud → Shroud) (s : State) : (modShr f s).shr = f s.shr := rfl

@[simp] theorem modConn_keeps (i : Nat) (f : ShrConn → ShrConn) (s : State) :
    (modConn i f s).fuses = s.fuses ∧ (modConn i f s).pins = s.pins ∧ (modConn i f s).pow = s.pow ∧ (modConn i f s).dev = s.dev ∧
    (modConn i f s).tt = s.tt ∧ (modConn i f s).host = s.host ∧ (modConn i f s).pcie = s.pcie ∧ (modConn i f s).nvme = s.nvme ∧
    (modConn i f s).smb0 = s.smb0 ∧ (modConn i f s).smb1 = s.smb1 ∧ (modConn i f s).uart = s.uart ∧ (modConn i f s).jtag = s.jtag ∧
    (modConn i f s).time = s.time ∧ (modConn i f s).rl = s.rl ∧ (modConn i f s).ps = s.ps ∧ (modConn i f s).rack = s.rack ∧
    (modConn i f s).mem = s.mem ∧ (modConn i f s).comp = s.comp ∧ (modConn i f s).srv = s.srv ∧ (modConn i f s).furl = s.furl ∧
    (modConn i f s).sec = s.sec ∧ (modConn i f s).stay = s.stay ∧ (modConn i f s).trim = s.trim ∧ (modConn i f s).eth = s.eth ∧
    (modConn i f s).bow = s.bow ∧ (modConn i f s).frame = s.frame ∧ (modConn i f s).reef = s.reef ∧ (modConn i f s).out = s.out ∧
    (modConn i f s).free = s.free ∧ (modConn i f s).pending = s.pending :=
  ⟨rfl, rfl, rfl, rfl, rfl, rfl, rfl, rfl, rfl, rfl, rfl, rfl, rfl, rfl, rfl, rfl, rfl, rfl, rfl, rfl, rfl, rfl, rfl, rfl, rfl, rfl, rfl, rfl, rfl, rfl⟩

@[simp] theorem modDrive_keeps (d : Nat) (f : Drive → Drive) (s : State) :
    (modDrive d f s).fuses = s.fuses ∧ (modDrive d f s).pins = s.pins ∧ (modDrive d f s).pow = s.pow ∧ (modDrive d f s).dev = s.dev ∧
    (modDrive d f s).tt = s.tt ∧ (modDrive d f s).host = s.host ∧ (modDrive d f s).pcie = s.pcie ∧ (modDrive d f s).smb0 = s.smb0 ∧
    (modDrive d f s).smb1 = s.smb1 ∧ (modDrive d f s).uart = s.uart ∧ (modDrive d f s).jtag = s.jtag ∧ (modDrive d f s).time = s.time ∧
    (modDrive d f s).rl = s.rl ∧ (modDrive d f s).ps = s.ps ∧ (modDrive d f s).rack = s.rack ∧ (modDrive d f s).mem = s.mem ∧
    (modDrive d f s).comp = s.comp ∧ (modDrive d f s).srv = s.srv ∧ (modDrive d f s).furl = s.furl ∧ (modDrive d f s).sec = s.sec ∧
    (modDrive d f s).stay = s.stay ∧ (modDrive d f s).trim = s.trim ∧ (modDrive d f s).eth = s.eth ∧ (modDrive d f s).shr = s.shr ∧
    (modDrive d f s).bow = s.bow ∧ (modDrive d f s).frame = s.frame ∧ (modDrive d f s).reef = s.reef ∧ (modDrive d f s).out = s.out ∧
    (modDrive d f s).free = s.free ∧ (modDrive d f s).pending = s.pending :=
  ⟨rfl, rfl, rfl, rfl, rfl, rfl, rfl, rfl, rfl, rfl, rfl, rfl, rfl, rfl, rfl, rfl, rfl, rfl, rfl, rfl, rfl, rfl, rfl, rfl, rfl, rfl, rfl, rfl, rfl, rfl⟩

@[simp] theorem modBlk_keeps (c i : Nat) (f : Blk → Blk) (s : State) :
    (modBlk c i f s).fuses = s.fuses ∧ (modBlk c i f s).pins = s.pins ∧ (modBlk c i f s).pow = s.pow ∧ (modBlk c i f s).dev = s.dev ∧
    (modBlk c i f s).tt = s.tt ∧ (modBlk c i f s).host = s.host ∧ (modBlk c i f s).pcie = s.pcie ∧ (modBlk c i f s).nvme = s.nvme ∧
    (modBlk c i f s).smb0 = s.smb0 ∧ (modBlk c i f s).smb1 = s.smb1 ∧ (modBlk c i f s).uart = s.uart ∧ (modBlk c i f s).jtag = s.jtag ∧
    (modBlk c i f s).time = s.time ∧ (modBlk c i f s).rl = s.rl ∧ (modBlk c i f s).ps = s.ps ∧ (modBlk c i f s).rack = s.rack ∧
    (modBlk c i f s).mem = s.mem ∧ (modBlk c i f s).comp = s.comp ∧ (modBlk c i f s).furl = s.furl ∧ (modBlk c i f s).sec = s.sec ∧
    (modBlk c i f s).stay = s.stay ∧ (modBlk c i f s).trim = s.trim ∧ (modBlk c i f s).eth = s.eth ∧ (modBlk c i f s).shr = s.shr ∧
    (modBlk c i f s).bow = s.bow ∧ (modBlk c i f s).frame = s.frame ∧ (modBlk c i f s).reef = s.reef ∧ (modBlk c i f s).out = s.out ∧
    (modBlk c i f s).free = s.free ∧ (modBlk c i f s).pending = s.pending :=
  ⟨rfl, rfl, rfl, rfl, rfl, rfl, rfl, rfl, rfl, rfl, rfl, rfl, rfl, rfl, rfl, rfl, rfl, rfl, rfl, rfl, rfl, rfl, rfl, rfl, rfl, rfl, rfl, rfl, rfl, rfl⟩

@[simp] theorem modReq_keeps (c : Nat) (f : Req → Req) (s : State) :
    (modReq c f s).fuses = s.fuses ∧ (modReq c f s).pins = s.pins ∧ (modReq c f s).pow = s.pow ∧ (modReq c f s).dev = s.dev ∧
    (modReq c f s).tt = s.tt ∧ (modReq c f s).host = s.host ∧ (modReq c f s).pcie = s.pcie ∧ (modReq c f s).nvme = s.nvme ∧
    (modReq c f s).smb0 = s.smb0 ∧ (modReq c f s).smb1 = s.smb1 ∧ (modReq c f s).uart = s.uart ∧ (modReq c f s).jtag = s.jtag ∧
    (modReq c f s).time = s.time ∧ (modReq c f s).rl = s.rl ∧ (modReq c f s).ps = s.ps ∧ (modReq c f s).rack = s.rack ∧
    (modReq c f s).mem = s.mem ∧ (modReq c f s).comp = s.comp ∧ (modReq c f s).furl = s.furl ∧ (modReq c f s).sec = s.sec ∧
    (modReq c f s).stay = s.stay ∧ (modReq c f s).trim = s.trim ∧ (modReq c f s).eth = s.eth ∧ (modReq c f s).shr = s.shr ∧
    (modReq c f s).bow = s.bow ∧ (modReq c f s).frame = s.frame ∧ (modReq c f s).reef = s.reef ∧ (modReq c f s).out = s.out ∧
    (modReq c f s).free = s.free ∧ (modReq c f s).pending = s.pending :=
  ⟨rfl, rfl, rfl, rfl, rfl, rfl, rfl, rfl, rfl, rfl, rfl, rfl, rfl, rfl, rfl, rfl, rfl, rfl, rfl, rfl, rfl, rfl, rfl, rfl, rfl, rfl, rfl, rfl, rfl, rfl⟩

@[simp] theorem modSmb1_keeps (a : Nat) (f : Smb1Dev → Smb1Dev) (s : State) :
    (modSmb1 a f s).fuses = s.fuses ∧ (modSmb1 a f s).pins = s.pins ∧ (modSmb1 a f s).pow = s.pow ∧ (modSmb1 a f s).dev = s.dev ∧
    (modSmb1 a f s).tt = s.tt ∧ (modSmb1 a f s).host = s.host ∧ (modSmb1 a f s).pcie = s.pcie ∧ (modSmb1 a f s).nvme = s.nvme ∧
    (modSmb1 a f s).smb0 = s.smb0 ∧ (modSmb1 a f s).uart = s.uart ∧ (modSmb1 a f s).jtag = s.jtag ∧ (modSmb1 a f s).time = s.time ∧
    (modSmb1 a f s).rl = s.rl ∧ (modSmb1 a f s).ps = s.ps ∧ (modSmb1 a f s).rack = s.rack ∧ (modSmb1 a f s).mem = s.mem ∧
    (modSmb1 a f s).comp = s.comp ∧ (modSmb1 a f s).srv = s.srv ∧ (modSmb1 a f s).furl = s.furl ∧ (modSmb1 a f s).sec = s.sec ∧
    (modSmb1 a f s).stay = s.stay ∧ (modSmb1 a f s).trim = s.trim ∧ (modSmb1 a f s).eth = s.eth ∧ (modSmb1 a f s).shr = s.shr ∧
    (modSmb1 a f s).bow = s.bow ∧ (modSmb1 a f s).frame = s.frame ∧ (modSmb1 a f s).reef = s.reef ∧ (modSmb1 a f s).out = s.out ∧
    (modSmb1 a f s).free = s.free ∧ (modSmb1 a f s).pending = s.pending :=
  ⟨rfl, rfl, rfl, rfl, rfl, rfl, rfl, rfl, rfl, rfl, rfl, rfl, rfl, rfl, rfl, rfl, rfl, rfl, rfl, rfl, rfl, rfl, rfl, rfl, rfl, rfl, rfl, rfl, rfl, rfl⟩

@[simp] theorem modRack_keeps (f : Rack → Rack) (s : State) :
    (modRack f s).fuses = s.fuses ∧ (modRack f s).pins = s.pins ∧ (modRack f s).pow = s.pow ∧ (modRack f s).dev = s.dev ∧
    (modRack f s).tt = s.tt ∧ (modRack f s).host = s.host ∧ (modRack f s).pcie = s.pcie ∧ (modRack f s).nvme = s.nvme ∧
    (modRack f s).smb0 = s.smb0 ∧ (modRack f s).smb1 = s.smb1 ∧ (modRack f s).uart = s.uart ∧ (modRack f s).jtag = s.jtag ∧
    (modRack f s).time = s.time ∧ (modRack f s).rl = s.rl ∧ (modRack f s).ps = s.ps ∧ (modRack f s).mem = s.mem ∧
    (modRack f s).comp = s.comp ∧ (modRack f s).srv = s.srv ∧ (modRack f s).furl = s.furl ∧ (modRack f s).sec = s.sec ∧
    (modRack f s).stay = s.stay ∧ (modRack f s).trim = s.trim ∧ (modRack f s).eth = s.eth ∧ (modRack f s).shr = s.shr ∧
    (modRack f s).bow = s.bow ∧ (modRack f s).frame = s.frame ∧ (modRack f s).reef = s.reef ∧ (modRack f s).out = s.out ∧
    (modRack f s).free = s.free ∧ (modRack f s).pending = s.pending :=
  ⟨rfl, rfl, rfl, rfl, rfl, rfl, rfl, rfl, rfl, rfl, rfl, rfl, rfl, rfl, rfl, rfl, rfl, rfl, rfl, rfl, rfl, rfl, rfl, rfl, rfl, rfl, rfl, rfl, rfl, rfl⟩

@[simp] theorem modRack_rack (f : Rack → Rack) (s : State) : (modRack f s).rack = f s.rack := rfl

@[simp] theorem modPeer_keeps (e : Nat) (f : RackPeer → RackPeer) (s : State) :
    (modPeer e f s).fuses = s.fuses ∧ (modPeer e f s).pins = s.pins ∧ (modPeer e f s).pow = s.pow ∧ (modPeer e f s).dev = s.dev ∧
    (modPeer e f s).tt = s.tt ∧ (modPeer e f s).host = s.host ∧ (modPeer e f s).pcie = s.pcie ∧ (modPeer e f s).nvme = s.nvme ∧
    (modPeer e f s).smb0 = s.smb0 ∧ (modPeer e f s).smb1 = s.smb1 ∧ (modPeer e f s).uart = s.uart ∧ (modPeer e f s).jtag = s.jtag ∧
    (modPeer e f s).time = s.time ∧ (modPeer e f s).rl = s.rl ∧ (modPeer e f s).ps = s.ps ∧ (modPeer e f s).mem = s.mem ∧
    (modPeer e f s).comp = s.comp ∧ (modPeer e f s).srv = s.srv ∧ (modPeer e f s).furl = s.furl ∧ (modPeer e f s).sec = s.sec ∧
    (modPeer e f s).stay = s.stay ∧ (modPeer e f s).trim = s.trim ∧ (modPeer e f s).eth = s.eth ∧ (modPeer e f s).shr = s.shr ∧
    (modPeer e f s).bow = s.bow ∧ (modPeer e f s).frame = s.frame ∧ (modPeer e f s).reef = s.reef ∧ (modPeer e f s).out = s.out ∧
    (modPeer e f s).free = s.free ∧ (modPeer e f s).pending = s.pending :=
  ⟨rfl, rfl, rfl, rfl, rfl, rfl, rfl, rfl, rfl, rfl, rfl, rfl, rfl, rfl, rfl, rfl, rfl, rfl, rfl, rfl, rfl, rfl, rfl, rfl, rfl, rfl, rfl, rfl, rfl, rfl⟩

@[simp] theorem modFctx_keeps (f : Nat) (g : FrameCtx → FrameCtx) (s : State) :
    (modFctx f g s).fuses = s.fuses ∧ (modFctx f g s).pins = s.pins ∧ (modFctx f g s).pow = s.pow ∧ (modFctx f g s).dev = s.dev ∧
    (modFctx f g s).tt = s.tt ∧ (modFctx f g s).host = s.host ∧ (modFctx f g s).pcie = s.pcie ∧ (modFctx f g s).nvme = s.nvme ∧
    (modFctx f g s).smb0 = s.smb0 ∧ (modFctx f g s).smb1 = s.smb1 ∧ (modFctx f g s).uart = s.uart ∧ (modFctx f g s).jtag = s.jtag ∧
    (modFctx f g s).time = s.time ∧ (modFctx f g s).rl = s.rl ∧ (modFctx f g s).ps = s.ps ∧ (modFctx f g s).rack = s.rack ∧
    (modFctx f g s).mem = s.mem ∧ (modFctx f g s).comp = s.comp ∧ (modFctx f g s).srv = s.srv ∧ (modFctx f g s).furl = s.furl ∧
    (modFctx f g s).sec = s.sec ∧ (modFctx f g s).stay = s.stay ∧ (modFctx f g s).trim = s.trim ∧ (modFctx f g s).eth = s.eth ∧
    (modFctx f g s).shr = s.shr ∧ (modFctx f g s).bow = s.bow ∧ (modFctx f g s).reef = s.reef ∧ (modFctx f g s).out = s.out ∧
    (modFctx f g s).free = s.free ∧ (modFctx f g s).pending = s.pending :=
  ⟨rfl, rfl, rfl, rfl, rfl, rfl, rfl, rfl, rfl, rfl, rfl, rfl, rfl, rfl, rfl, rfl, rfl, rfl, rfl, rfl, rfl, rfl, rfl, rfl, rfl, rfl, rfl, rfl, rfl, rfl⟩

@[simp] theorem modFslot_keeps (f n : Nat) (g : FrameSlot → FrameSlot) (s : State) :
    (modFslot f n g s).fuses = s.fuses ∧ (modFslot f n g s).pins = s.pins ∧ (modFslot f n g s).pow = s.pow ∧
    (modFslot f n g s).dev = s.dev ∧ (modFslot f n g s).tt = s.tt ∧ (modFslot f n g s).host = s.host ∧ (modFslot f n g s).pcie = s.pcie ∧
    (modFslot f n g s).nvme = s.nvme ∧ (modFslot f n g s).smb0 = s.smb0 ∧ (modFslot f n g s).smb1 = s.smb1 ∧
    (modFslot f n g s).uart = s.uart ∧ (modFslot f n g s).jtag = s.jtag ∧ (modFslot f n g s).time = s.time ∧
    (modFslot f n g s).rl = s.rl ∧ (modFslot f n g s).ps = s.ps ∧ (modFslot f n g s).rack = s.rack ∧ (modFslot f n g s).mem = s.mem ∧
    (modFslot f n g s).comp = s.comp ∧ (modFslot f n g s).srv = s.srv ∧ (modFslot f n g s).furl = s.furl ∧
    (modFslot f n g s).sec = s.sec ∧ (modFslot f n g s).stay = s.stay ∧ (modFslot f n g s).trim = s.trim ∧
    (modFslot f n g s).eth = s.eth ∧ (modFslot f n g s).shr = s.shr ∧ (modFslot f n g s).bow = s.bow ∧ (modFslot f n g s).reef = s.reef ∧
    (modFslot f n g s).out = s.out ∧ (modFslot f n g s).free = s.free ∧ (modFslot f n g s).pending = s.pending :=
  ⟨rfl, rfl, rfl, rfl, rfl, rfl, rfl, rfl, rfl, rfl, rfl, rfl, rfl, rfl, rfl, rfl, rfl, rfl, rfl, rfl, rfl, rfl, rfl, rfl, rfl, rfl, rfl, rfl, rfl, rfl⟩

@[simp] theorem modPcieFn_keeps (fn : Nat) (f : PcieFn → PcieFn) (s : State) :
    (modPcieFn fn f s).fuses = s.fuses ∧ (modPcieFn fn f s).pins = s.pins ∧ (modPcieFn fn f s).pow = s.pow ∧
    (modPcieFn fn f s).dev = s.dev ∧ (modPcieFn fn f s).tt = s.tt ∧ (modPcieFn fn f s).host = s.host ∧ (modPcieFn fn f s).nvme = s.nvme ∧
    (modPcieFn fn f s).smb0 = s.smb0 ∧ (modPcieFn fn f s).smb1 = s.smb1 ∧ (modPcieFn fn f s).uart = s.uart ∧
    (modPcieFn fn f s).jtag = s.jtag ∧ (modPcieFn fn f s).time = s.time ∧ (modPcieFn fn f s).rl = s.rl ∧ (modPcieFn fn f s).ps = s.ps ∧
    (modPcieFn fn f s).rack = s.rack ∧ (modPcieFn fn f s).mem = s.mem ∧ (modPcieFn fn f s).comp = s.comp ∧
    (modPcieFn fn f s).srv = s.srv ∧ (modPcieFn fn f s).furl = s.furl ∧ (modPcieFn fn f s).sec = s.sec ∧
    (modPcieFn fn f s).stay = s.stay ∧ (modPcieFn fn f s).trim = s.trim ∧ (modPcieFn fn f s).eth = s.eth ∧
    (modPcieFn fn f s).shr = s.shr ∧ (modPcieFn fn f s).bow = s.bow ∧ (modPcieFn fn f s).frame = s.frame ∧
    (modPcieFn fn f s).reef = s.reef ∧ (modPcieFn fn f s).out = s.out ∧ (modPcieFn fn f s).free = s.free ∧
    (modPcieFn fn f s).pending = s.pending :=
  ⟨rfl, rfl, rfl, rfl, rfl, rfl, rfl, rfl, rfl, rfl, rfl, rfl, rfl, rfl, rfl, rfl, rfl, rfl, rfl, rfl, rfl, rfl, rfl, rfl, rfl, rfl, rfl, rfl, rfl, rfl⟩

@[simp] theorem modNvme_keeps (f : Nvme → Nvme) (s : State) :
    (modNvme f s).fuses = s.fuses ∧ (modNvme f s).pins = s.pins ∧ (modNvme f s).pow = s.pow ∧ (modNvme f s).dev = s.dev ∧
    (modNvme f s).tt = s.tt ∧ (modNvme f s).host = s.host ∧ (modNvme f s).pcie = s.pcie ∧ (modNvme f s).smb0 = s.smb0 ∧
    (modNvme f s).smb1 = s.smb1 ∧ (modNvme f s).uart = s.uart ∧ (modNvme f s).jtag = s.jtag ∧ (modNvme f s).time = s.time ∧
    (modNvme f s).rl = s.rl ∧ (modNvme f s).ps = s.ps ∧ (modNvme f s).rack = s.rack ∧ (modNvme f s).mem = s.mem ∧
    (modNvme f s).comp = s.comp ∧ (modNvme f s).srv = s.srv ∧ (modNvme f s).furl = s.furl ∧ (modNvme f s).sec = s.sec ∧
    (modNvme f s).stay = s.stay ∧ (modNvme f s).trim = s.trim ∧ (modNvme f s).eth = s.eth ∧ (modNvme f s).shr = s.shr ∧
    (modNvme f s).bow = s.bow ∧ (modNvme f s).frame = s.frame ∧ (modNvme f s).reef = s.reef ∧ (modNvme f s).out = s.out ∧
    (modNvme f s).free = s.free ∧ (modNvme f s).pending = s.pending :=
  ⟨rfl, rfl, rfl, rfl, rfl, rfl, rfl, rfl, rfl, rfl, rfl, rfl, rfl, rfl, rfl, rfl, rfl, rfl, rfl, rfl, rfl, rfl, rfl, rfl, rfl, rfl, rfl, rfl, rfl, rfl⟩

@[simp] theorem modNvme_nvme (f : Nvme → Nvme) (s : State) : (modNvme f s).nvme = f s.nvme := rfl

@[simp] theorem modPageAttr_keeps (p : Nat) (f : PageAttr → PageAttr) (s : State) :
    (modPageAttr p f s).fuses = s.fuses ∧ (modPageAttr p f s).pins = s.pins ∧ (modPageAttr p f s).pow = s.pow ∧
    (modPageAttr p f s).dev = s.dev ∧ (modPageAttr p f s).tt = s.tt ∧ (modPageAttr p f s).host = s.host ∧
    (modPageAttr p f s).pcie = s.pcie ∧ (modPageAttr p f s).nvme = s.nvme ∧ (modPageAttr p f s).smb0 = s.smb0 ∧
    (modPageAttr p f s).smb1 = s.smb1 ∧ (modPageAttr p f s).uart = s.uart ∧ (modPageAttr p f s).jtag = s.jtag ∧
    (modPageAttr p f s).time = s.time ∧ (modPageAttr p f s).rl = s.rl ∧ (modPageAttr p f s).ps = s.ps ∧
    (modPageAttr p f s).rack = s.rack ∧ (modPageAttr p f s).comp = s.comp ∧ (modPageAttr p f s).srv = s.srv ∧
    (modPageAttr p f s).furl = s.furl ∧ (modPageAttr p f s).sec = s.sec ∧ (modPageAttr p f s).stay = s.stay ∧
    (modPageAttr p f s).trim = s.trim ∧ (modPageAttr p f s).eth = s.eth ∧ (modPageAttr p f s).shr = s.shr ∧
    (modPageAttr p f s).bow = s.bow ∧ (modPageAttr p f s).frame = s.frame ∧ (modPageAttr p f s).reef = s.reef ∧
    (modPageAttr p f s).out = s.out ∧ (modPageAttr p f s).free = s.free ∧ (modPageAttr p f s).pending = s.pending :=
  ⟨rfl, rfl, rfl, rfl, rfl, rfl, rfl, rfl, rfl, rfl, rfl, rfl, rfl, rfl, rfl, rfl, rfl, rfl, rfl, rfl, rfl, rfl, rfl, rfl, rfl, rfl, rfl, rfl, rfl, rfl⟩

end Sys2Proof.Machine
end

