-- ==== Sys2Proof/Laws/Tile.lean ====
section
/-! SUPPORT. Tiles: how a tile meets an instruction, what a row that only sets registers does, reads of tile memory without
errors, and what a tile fault leaves. -/

namespace Sys2Proof.Safety

open Sys2Proof.Machine

theorem tile_meets {op t : Nat} {s : State} (h : tileMeets op t s = true) : tileIssues t s = true ∧ (here t s).op = op ∧ legal (here t s) = true ∧ (tileOf t s).st = .running := by
  unfold tileMeets at h
  simp only [Bool.and_eq_true, decide_eq_true_eq] at h
  refine ⟨h.1.1, h.1.2, h.2, ?_⟩
  have := h.1.1; unfold tileIssues at this; simp at this; grind

theorem issue_meets {op t : Nat} {s : State} (h : tileMeets op t s = true) (body) :
    issue op body t s = match body t (here t s) s with
    | .adv s1 => setPc t (onward (tileOf t s)) s1
    | .jump q s1 => setPc t q s1
    | .stall s1 => modTile t (fun u => { u with stalled := true }) s1
    | .fault code s1 => tileFault t code (tileOf t s).pc s1 := by
  obtain ⟨h1, h2, h3, _⟩ := tile_meets h
  unfold issue
  simp only [show fieldsOf (wordAt t s) = here t s from rfl, h1, h2, h3, ne_eq, not_true_eq_false, decide_false, Bool.not_true, Bool.or_self, Bool.false_eq_true, if_false]
  rfl

theorem tileOf_modTile {t : Nat} {s : State} {f : Tile → Tile} (h : f (tileOf t s) ≠ default) : tileOf t (modTile t f s) = f (tileOf t s) := by
  unfold tileOf modTile Tab.mod; exact Tab.get_put_self_of_ne _ _ h
theorem tileOf_modTile_ne {t j : Nat} {s : State} {f : Tile → Tile} (h : j ≠ t) : tileOf j (modTile t f s) = tileOf j s := by
  unfold tileOf modTile Tab.mod; exact Tab.get_put_ne _ _ h
theorem tile_ne_default {u : Tile} (h : u.st ≠ .idle) : u ≠ default := fun e => h (by rw [e]; rfl)
theorem onlyTile_trans {t : Nat} {s s' s'' : State} (h : onlyTile t s s') (g : onlyTile t s' s'') : onlyTile t s s'' := by
  refine ⟨fun j hj => (g.1 j hj).trans (h.1 j hj), ?_⟩
  exact (congrArg (fun x : State => { x with comp := { x.comp with tiles := s.comp.tiles } }) g.2).trans h.2
theorem onlyTile_modTile {t : Nat} {s : State} {f} : onlyTile t s (modTile t f s) := ⟨fun _ h => tileOf_modTile_ne h, rfl⟩

theorem rowSets_of {c : Nat → Instr} {op : Nat} {f : Fields → Tile → Tile} (hx : ∀ t s, exec (c t) s = .next (issue op (regBody f) t s))
    (hf : ∀ x u, (f x u).st = u.st) : rowSets c op f := by
  intro t s h
  have hr := (tile_meets h).2.2.2
  refine ⟨setPc t (onward (tileOf t s)) (modTile t (f (here t s)) s), ?_, ?_, ?_⟩
  · unfold answers; rw [hx, issue_meets h]; rfl
  · have h1 : tileOf t (modTile t (f (here t s)) s) = f (here t s) (tileOf t s) :=
      tileOf_modTile (tile_ne_default (by rw [hf, hr]; decide))
    unfold setPc
    rw [tileOf_modTile, h1]; rfl
    refine tile_ne_default ?_
    show (tileOf t (modTile t (f (here t s)) s)).st ≠ .idle
    rw [h1, hf, hr]; decide
  · exact onlyTile_trans onlyTile_modTile onlyTile_modTile

theorem tileOf_setPc {t q : Nat} {s : State} (hr : (tileOf t s).st ≠ .idle) : tileOf t (setPc t q s) = atPc q (tileOf t s) :=
  tileOf_modTile (tile_ne_default hr)

theorem rowBranches_of {c : Nat → Instr} {op : Nat} {p : Fields → Tile → Prop} {q : Fields → Tile → Bool}
    (hx : ∀ t s, exec (c t) s = .next (issue op (brBody q) t s)) (hq : ∀ x u, q x u = true ↔ p x u) : rowBranches c op p := by
  intro t s h
  have hr := (tile_meets h).2.2.2
  have hr' : (tileOf t s).st ≠ .idle := by rw [hr]; decide
  by_cases hp : p (here t s) (tileOf t s)
  · refine ⟨setPc t (here t s).imm s, ?_, onlyTile_modTile, fun _ => tileOf_setPc hr', fun k => absurd hp k⟩
    unfold answers; rw [hx, issue_meets h, brBody, if_pos ((hq _ _).2 hp)]
  · refine ⟨setPc t (onward (tileOf t s)) s, ?_, onlyTile_modTile, fun k => absurd k hp, fun _ => tileOf_setPc hr'⟩
    unfold answers; rw [hx, issue_meets h, brBody, if_neg (fun k => hp ((hq _ _).1 k))]

theorem setG_st (n v u) : (setG n v u).st = u.st := by unfold setG; split <;> rfl

theorem tileWords_clean {t a n : Nat} {s : State} (h : rangeClean a n s = true) : tileWords t (badWords a n s.mem) s = (false, s) := by
  unfold rangeClean at h; rw [List.isEmpty_iff.1 h]; rfl
theorem tileRead_clean {t o n : Nat} {s : State} (h : rangeClean (tileBase t + o) n s = true) :
    tileRead t o n s = (some (tileBytes t o n s), s) := by
  unfold tileRead; simp only [tileWords_clean h]; rfl

theorem rowGoes_of {c : Nat → Instr} {op : Nat} {pre post} {body} (hx : ∀ t s, exec (c t) s = .next (issue op body t s))
    (h : ∀ t s, tileMeets op t s = true → pre t (here t s) s → body t (here t s) s = .adv (post t (here t s) s)) : rowGoes c op pre post := by
  intro t s hm hp
  unfold answers
  rw [hx, issue_meets hm, h t s hm hp]

theorem leNat_lt : ∀ l : List Byte, leNat l < 256 ^ l.length
  | [] => by simp [leNat]
  | b :: bs => by
    have := leNat_lt bs; have := b.isLt
    simp only [leNat, List.length_cons, Nat.pow_succ]; omega
theorem getList_length {α} [Inhabited α] (t : Tab α) (i n) : (Tab.getList t i n).length = n := by
  induction n generalizing i with
  | zero => rfl
  | succ n ih => simp [Tab.getList, ih]

theorem signedN_signExtend (n v : Nat) (hn : n = 1 ∨ n = 2 ∨ n = 4) (h : v < 256 ^ n) : BitVec.ofInt 64 (signedN n v) = (BitVec.ofNat (8 * n) v).signExtend 64 := by
  rw [BitVec.signExtend]
  congr 1
  unfold signedN
  rcases hn with rfl | rfl | rfl <;> simp only [BitVec.toInt_eq_toNat_cond, BitVec.toNat_ofNat] <;> simp only [Nat.reducePow, Nat.reduceMul, Nat.reduceDiv] at h ⊢ <;>
    rw [Nat.mod_eq_of_lt h] <;> split <;> split <;> omega

theorem load_ok {n t : Nat} {sg : Bool} {s : State} {x : Fields} (h1 : inTmem (accOff x (tileOf t s)) n = true)
    (h2 : sailWillWrite t (accOff x (tileOf t s)) n s = false) (h3 : rangeClean (tileBase t + accOff x (tileOf t s)) n s = true) :
    load n sg t x s = .adv (modTile t (setG x.d (if sg then BitVec.ofInt 64 (signedN n (leNat (tileBytes t (accOff x (tileOf t s)) n s))) else BitVec.ofNat 64 (leNat (tileBytes t (accOff x (tileOf t s)) n s)))) s) := by
  unfold load
  simp only [h1, h2, tileRead_clean h3]; rfl

theorem store_ok {n t : Nat} {s : State} {x : Fields} (h1 : inTmem (accOff x (tileOf t s)) n = true)
    (h2 : storeWaits t (accOff x (tileOf t s)) n s = false) :
    store n t x s = .adv (memWrite (tileBase t + accOff x (tileOf t s)) (leBytes n (gReg (tileOf t s) x.b).toNat) s) := by
  unfold store
  simp only [h1, h2]; rfl

theorem getList_slice {α} [Inhabited α] (t : Tab α) : ∀ (o m i n : Nat), o + m ≤ n → ((Tab.getList t i n).drop o).take m = Tab.getList t (i + o) m := by
  intro o
  induction o with
  | zero =>
    intro m; induction m with
    | zero => intros; simp [Tab.getList]
    | succ m ih =>
      intro i n hn
      obtain ⟨n, rfl⟩ : ∃ k, n = k + 1 := ⟨n - 1, by omega⟩
      have := ih (i + 1) n (by omega)
      simp only [Tab.getList, List.drop_zero, List.take_succ_cons, Nat.add_zero] at this ⊢
      rw [this]
  | succ o ih =>
    intro m i n hn
    obtain ⟨n, rfl⟩ : ∃ k, n = k + 1 := ⟨n - 1, by omega⟩
    simp only [Tab.getList, List.drop_succ_cons]
    rw [ih m (i + 1) n (by omega), Nat.add_right_comm, Nat.add_assoc]

theorem setLanes_congr {r pg : Nat} {f g : Nat → W32} {u : Tile} : ∀ n t, (∀ i < n, f i = g i) → setLanes r pg f u n t = setLanes r pg g u n t
  | 0, _, _ => rfl
  | n + 1, t, h => by
    simp only [setLanes, setLanes_congr n t (fun i hi => h i (by omega)), h n (by omega)]

theorem setV_congr {r pg : Nat} {f g : Nat → W32} (h : ∀ i < 64, f i = g i) : setV r pg f = setV r pg g := by
  funext u; unfold setV; rw [setLanes_congr 64 u.v h]

theorem tileFault_leaves (t code pc : Nat) (s : State) (h : (tileOf t s).st = .running) : (tileFault t code pc s).mem = s.mem ∧ (tileOf t (tileFault t code pc s)).st = .faulted ∧
    (tileOf t (tileFault t code pc s)).fault = code ∧ (tileOf t (tileFault t code pc s)).faultPc = pc := by
  unfold tileFault
  dsimp only
  rw [if_neg (by simp [h])]
  have hm : (holdSheets (tileOf t s).disp (dropWaits (.tile t) (modTile t (fun u => { u with st := .faulted, fault := code, faultPc := pc, stalled := false, atEnd := false, queue := u.queue.filter (fun q => q.begun) }) s))).mem = s.mem := by
    unfold holdSheets; split <;> rfl
  have ht : tileOf t (holdSheets (tileOf t s).disp (dropWaits (.tile t) (modTile t (fun u => { u with st := .faulted, fault := code, faultPc := pc, stalled := false, atEnd := false, queue := u.queue.filter (fun q => q.begun) }) s))) =
     { tileOf t s with st := .faulted, fault := code, faultPc := pc, stalled := false, atEnd := false, queue := (tileOf t s).queue.filter (fun q => q.begun) } := by
    rw [← tileOf_modTile (t := t) (s := s) (f := fun u => { u with st := .faulted, fault := code, faultPc := pc, stalled := false, atEnd := false, queue := u.queue.filter (fun q => q.begun) })]
    · unfold holdSheets; split <;> rfl
    · exact tile_ne_default (by simp)
  revert hm ht
  generalize holdSheets (tileOf t s).disp _ = X
  intro hm ht
  refine ⟨(raise_keeps _ _).1.trans hm, ?_⟩
  rcases raise_tile t X t (by show (tileOf t X).st ≠ _; rw [ht]; simp) with e | e
  · rw [show tileOf t (raise t X) = tileOf t X from e, ht]; exact ⟨rfl, rfl, rfl⟩
  · rw [show tileOf t (raise t X) = (tileOf t X).cut from e, ht]; exact ⟨rfl, rfl, rfl⟩

theorem setV_st (r pg f u) : (setV r pg f u).st = u.st := by unfold setV; rfl

theorem setP_st (r f u) : (setP r f u).st = u.st := by unfold setP; rfl

theorem setPBits_st (r pg f u) : (setPBits r pg f u).st = u.st := by unfold setPBits setP; rfl

end Sys2Proof.Safety
end

