-- ==== Sys2Proof/Tests/Slice0.lean ====
section
/-! SUPPORT. States and operands that meet the hypotheses of every statement, ill-formed terms that WellFormed refuses, and a few
results that the spec's own tables give. -/

namespace Sys2Proof.Tests

open Sys2Proof.Machine Sys2Proof.Safety

set_option Elab.async false

/-! ### Small states -/

/-- A session of a class. -/
def sess (x : Cls) : Session := { id := 1, cls := x, tenant := none, timeoutMs := 1000 }

/-- READY, the host link up, mailbox 0 fetching for an ADMIN session, a MGMT session on mailbox 16. -/
def ready : State :=
  let s := State.reset
  { s with
    dev := { s.dev with mode := .ready, stage := 10 }
    pcie := { s.pcie with linkUp := true, fns := [(0, { busMaster := true })] }
    host := { s.host with
      pages := [(0, { st := .running })]
      mbx := [(0, { session := some (sess .admin) }), (16, { session := some (sess .mgmt) })] } }

/-- The bytes of fields, each a length and a value. -/
def pay (l : List (Nat × Nat)) : List Byte := (l.map (fun x => leBytes x.1 x.2)).flatten

/-- A command on mailbox m with an inline payload. -/
def cmd (m : Nat) (l : List (Nat × Nat)) : Cmd := { mb := m, plen := (pay l).length, body := pay l }

/-- The command of a row is let in and what the row asks holds where it runs. -/
abbrev met (op : Nat) (pre : Cmd → State → Prop) (c : Cmd) (s : State) : Prop :=
  letIn { c with op := op } s ∧ pre { c with op := op } (begun { c with op := op } s)

/-- No session on mailbox 0. -/
def fresh : State := { ready with host := { ready.host with mbx := [] } }

theorem witness_DeviceCommands :
    letIn { cmd 0 [] with op := 1 } fresh ∧ letIn { cmd 0 [(8, 4096)] with op := 2 } fresh ∧
    met 3 sessionOpenGoes (cmd 0 [(4, 10)]) fresh ∧ met 3 sessionOpenGoes (cmd 0 [(4, 60000)]) fresh ∧
    met 4 sessionCloseGoes (cmd 0 [(1, 0)]) ready ∧ met 4 sessionCloseGoes (cmd 0 [(1, 1)]) ready ∧
    met 5 vfBindGoes (cmd 0 [(1, 15), (1, 1), (2, 0)]) ready ∧
    met 5 vfBindGoes (cmd 0 [(1, 1), (1, 0), (2, 255)]) { ready with sec := { ready.sec with hbm := [(255, some [0])] } } ∧
    met 6 deviceResetGoes (cmd 0 [(1, 1)]) ready ∧ met 9 statsReadGoes (cmd 0 [(8, 4096), (1, 0), (1, 1), (2, 0)]) ready := by
  and_intros <;> decide +kernel

/-- Some functions RUNNING. -/
def run (l : List Nat) (s : State) : State := { s with host := { s.host with fns := l.map (fun f => (f, .running)) } }

theorem witness_FunctionPowerTelltaleTimeCommands :
    met 7 funcStartBegins (cmd 0 [(1, 10)]) ready ∧ met 7 funcStartThere (cmd 0 [(1, 0)]) (run [0] ready) ∧
    met 7 funcStartThere (cmd 0 [(1, 2)]) (run [2] ready) ∧
    met 8 funcStopBegins (cmd 0 [(1, 0)]) (run [0] ready) ∧ met 8 funcStopThere (cmd 0 [(1, 10)]) ready ∧
    met 0xA powerPolicyAsks (cmd 0 []) ready ∧
    met 0xA powerPolicySets (cmd 0 [(2, 600), (2, 900), (2, 400), (2, 100), (2, 800), (2, 2000), (4, 1)]) ready ∧
    met 0xB powerStatusGoes (cmd 0 [(1, 0)]) ready ∧ met 0xB powerStatusGoes (cmd 0 [(1, 1)]) ready ∧
    met 0xA01 ttSeverityGoes (cmd 0 [(2, 0), (1, 0)]) ready ∧ met 0xA01 ttSeverityGoes (cmd 0 [(2, 0x185), (1, 3)]) ready ∧
    letIn { cmd 0 [(8, 4096)] with op := 0xA02 } ready ∧
    met 0xA03 ttClearGoes (cmd 0 [(2, 0xFFFF), (1, 3)]) ready ∧ met 0xA03 ttClearGoes (cmd 0 [(2, 0), (1, 1)]) ready ∧
    met 0xB01 timeSourceGoes (cmd 0 [(1, 3), (1, 1), (1, 127), (1, 0), (4, 0xFFFFFFFF)]) ready ∧ letIn { cmd 0 [] with op := 0xB02 } ready := by
  and_intros <;> decide +kernel

/-- Handle of index 0 at its first generation. -/
def h0 : Nat := 0x10000

/-- A region of the device domain at page 0, a model in it with one DATA section, a context of tenant 3 on the model, whose
prefix domain is open. -/
def loaded : State :=
  { ready with
    srv := { ready.srv with
      regions := [(0, { gen := 1, live := true, tenant := 0xFFFF, pages := 2 })]
      models := [(0, { gen := 1, live := true, tenant := 3, sects := [{ typ := 6, memLen := 64, written := true }] })]
      ctxs := [(0, { gen := 1, live := true, tenant := 3 })] }
    furl := { ready.furl with doms := [(0, { mask := 8, opened := true })] }
    sec := { ready.sec with hbm := [(3, some [0])] } }

/-- The same without the context. -/
def modelOnly : State := { loaded with srv := { loaded.srv with ctxs := [] } }

/-- An OPEN connection to device 1 in a state. -/
def connected (s : State) : State := { s with shr := { s.shr with conns := [(0, { gen := 1, st := .opened, tenant := 3, peer := .stay 1 })] } }

/-- The context serves a request. -/
def serving1 : State :=
  { loaded with srv := { loaded.srv with ctxs := [(0, { gen := 1, live := true, tenant := 3, req := some { ref := (0, 0) } })] } }

/-- The least VXE image: a STEPS section without entries, its CRC still 0. -/
def image0 : List Byte :=
  pay [(4, 0x00455856), (2, 1), (2, 1), (4, 96), (4, 0), (4, 0), (4, 0xB0), (2, 1), (2, 0), (4, 64), (32, 0), (4, 8), (4, 96), (24, 0)]

/-- The image with its CRC. -/
def image : List Byte := patch image0 12 (leBytes 4 (crc32 image0))

theorem witness_MemoryAndModelCommands :
    met 0x201 memAllocGoes (cmd 0 [(8, 0x200000), (2, 0xFFFF), (1, 1)]) ready ∧
    met 0x202 memFreeGoes (cmd 0 [(4, h0)]) { loaded with srv := { loaded.srv with models := [] } } ∧
    met 0x203 memCopyIn (cmd 0 [(8, 4096), (8, 0x3FFFC0), (8, 64), (4, h0), (1, 0)]) loaded ∧
    met 0x203 memCopyOut (cmd 0 [(8, 0x3FFFC0), (8, 4096), (8, 64), (4, h0), (1, 1)]) loaded ∧
    met 0x203 memCopyHere (cmd 0 [(8, 0), (8, 64), (8, 64), (4, h0), (1, 2)]) loaded ∧
    met 0x204 apertureSetGoes (cmd 0 [(8, 0x5FC0000000)]) ready ∧ met 0x205 nvmeCfgGoes (cmd 0 [(1, 0), (1, 0), (2, 1), (8, 0)]) ready ∧
    met 0x302 modelUnloadGoes (cmd 0 [(4, h0)]) modelOnly ∧
    met 0x303 weightsFromHost (cmd 0 [(4, h0), (4, 0), (8, 4096), (8, 64), (4, 0), (4, 0)]) modelOnly ∧
    met 0x303 weightsFromHere (cmd 0 [(4, h0), (4, 0), (8, 4096), (8, 64), (4, 1), (4, 0)]) modelOnly ∧
    met 0x303 weightsFromPeer (cmd 0 [(4, h0), (4, 0), (8, 2 ^ 45), (8, 64), (4, 1), (4, h0)]) (connected modelOnly) ∧
    met 0x205 nvmeCfgGoes (cmd 0 [(1, 1), (1, 15), (2, 64), (8, 0)]) ready := by
  and_intros <;> decide +kernel

theorem witness_ModelLoad :
    met 0x301 modelLoadGoes { cmd 0 [(8, 4096), (4, 96), (4, h0), (8, 7), (2, 3), (1, 1)] with rd := { data := some image } } loaded := by
  and_intros <;> decide +kernel

/-- The context is a proxy: device 71 serves it. -/
def proxied (q : Option Req) : State :=
  { loaded with srv := { loaded.srv with ctxs := [(0, { gen := 1, live := true, tenant := 3, evacuated := true, dest := 71, req := q })] } }

theorem witness_ProxyCommands :
    met 0x102 ctxFreeIdle (cmd 0 [(4, h0), (1, 0)]) (proxied none) ∧ away (ctxOf 0 (proxied none)) = true ∧
    met 0x102 ctxFreeServing (cmd 0 [(4, h0), (1, 1)]) (proxied (some { ref := (0, 0) })) ∧
    met 0x401 submitForwards (cmd 0 [(4, h0), (2, 4), (2, 1), (4, 1), (4, 0), (8, 4096), (8, 8192), (4, 0), (4, 0), (4, 0)]) (proxied none) ∧
    met 0x402 submitCancelGoes (cmd 0 [(4, h0)]) (proxied (some { ref := (0, 0) })) := by
  and_intros <;> decide +kernel

theorem witness_ContextCommands :
    met 0x101 ctxAllocGoes (cmd 0 [(4, h0), (2, 3), (2, 0), (1, 7), (1, 1)]) loaded ∧
    met 0x102 ctxFreeIdle (cmd 0 [(4, h0), (1, 0)]) loaded ∧ met 0x102 ctxFreeServing (cmd 0 [(4, h0), (1, 1)]) serving1 ∧
    met 0x103 ctxQueryGoes (cmd 0 [(4, h0)]) loaded ∧
    met 0x401 submitGoes (cmd 0 [(4, h0), (2, 0), (2, 1), (4, 1), (4, 0), (8, 4096), (8, 8192), (4, 0), (4, 0), (4, 0)]) loaded ∧
    met 0x401 submitGoes (cmd 0 [(4, h0), (2, 4), (2, 1), (4, 1), (4, 0), (8, 4096), (8, 8192), (4, 0), (4, 0), (4, 0)]) loaded ∧
    met 0x402 submitCancelGoes (cmd 0 [(4, h0)]) serving1 := by
  and_intros <;> decide +kernel

theorem witness_FurlCommands :
    met 0x501 furlDomainCfgGoes (cmd 0 [(2, 4095), (2, 1), (32, 1)]) ready ∧ met 0x501 furlDomainCfgGoes (cmd 0 [(2, 0), (2, 0), (32, 1)]) ready ∧
    met 0x502 furlPinGoes (cmd 0 [(4, h0)]) (run [5] loaded) ∧
    met 0x503 furlUnpinGoes (cmd 0 [(4, h0)]) { ready with furl := { ready.furl with pins := [(0, { gen := 1, live := true })] } } ∧
    met 0x504 furlEvictCfgGoes (cmd 0 [(1, 99), (1, 100), (2, 1), (4, 5)]) ready ∧
    met 0x505 furlPurgeGoes (cmd 0 [(2, 4095), (1, 1)]) (run [5] ready) ∧
    met 0x506 furlProbeGoes (cmd 0 [(4, h0), (4, 0), (4, 1), (4, 0), (8, 4096)]) (run [5] loaded) := by
  and_intros <;> decide +kernel

/-- A Shroud key slot of tenant 3, an OPEN connection of it, a window of that connection, a region of tenant 3. -/
def linked : State :=
  { run [3] ready with
    sec := { ready.sec with shr := [(5, some { tenant := 3, key := [] })] }
    srv := { ready.srv with regions := [(0, { gen := 1, live := true, tenant := 3, pages := 2 })] }
    shr := { ready.shr with
      conns := [(0, { gen := 1, st := .opened, tenant := 3 })]
      maps := [(0, { gen := 1, live := true, remote := 8192, len := 4096, rd := true })] } }

/-- An operation is held at an absent page of the window. -/
def stuck : State :=
  { linked with shr := { linked.shr with
      conns := [(0, { gen := 1, st := .opened, tenant := 3, inq := [{ opc := 1, opsn := 1, len := 8, addr := 12280, aux := 0, whole := true }] })] } }

theorem witness_ShroudCommands :
    met 0x601 shrConnOpenGoes (cmd 0 [(2, 512), (2, 3), (2, 71), (18, 0), (4, 16), (4, 5)]) linked ∧
    met 0x601 shrConnOpenGoes (cmd 0 [(2, 2), (2, 3), (4, 0), (16, 1), (4, 200), (4, 5)]) linked ∧
    met 0x602 shrConnCloseGoes (cmd 0 [(4, h0), (1, 1)]) linked ∧ met 0x603 shrConnTimeoutGoes (cmd 0 [(4, h0), (4, 16)]) linked ∧
    met 0x604 shrMapGoes (cmd 0 [(4, h0), (4, h0), (8, 0), (8, 8192), (1, 3), (1, 1)]) linked ∧
    met 0x605 shrUnmapNow (cmd 0 [(4, h0)]) linked ∧ met 0x605 shrUnmapWaits (cmd 0 [(4, h0)]) stuck ∧
    met 0x606 shrCcCfgGoes (cmd 0 [(4, 3000), (4, 2000), (4, 16384), (4, 1000)]) ready := by
  and_intros <;> decide +kernel

theorem witness_TrimCommands :
    met 0x701 trimModeGoes (cmd 0 [(1, 13), (1, 1), (2, 2), (8, 0x1010)]) ready ∧
    met 0x702 trimShaperGoes (cmd 0 [(1, 1), (3, 0xFF), (4, 400000), (4, 16384)]) ready ∧
    met 0x702 trimShaperGoes (cmd 0 [(1, 13), (3, 5), (4, 10), (4, 16777216)]) ready ∧
    met 0x702 trimShaperGoes (cmd 0 [(1, 13), (3, 0), (8, 0)]) ready ∧
    met 0x703 trimPolicerGoes (cmd 0 [(2, 255), (1, 1), (1, 1), (4, 1), (4, 8192)]) ready ∧
    met 0x703 trimPolicerGoes (cmd 0 [(2, 0), (1, 0), (1, 0), (8, 0)]) ready := by
  and_intros <;> decide +kernel

theorem witness_BowspritCommands :
    met 0xD01 plbWindowGoes (cmd 0 [(1, 1), (1, 7), (1, 2), (1, 3), (4, 0), (4, 4096), (12, 0)]) ready ∧
    met 0xD02 plbAccessGoes (cmd 0 [(4, 0xFFEFFFFC), (4, 4), (4, 0xFFFFFFFF)]) (run [7] ready) ∧
    met 0xD02 plbAccessGoes (cmd 0 [(4, 1), (1, 1), (3, 1), (4, 0)]) (run [7] ready) ∧
    met 0xD03 plbIrqRouteGoes (cmd 0 [(1, 7), (1, 2), (1, 63), (1, 1)]) ready ∧ met 0xD04 plbArbCfgGoes (cmd 0 [(1, 1), (1, 12), (2, 8)]) ready := by
  and_intros <;> decide +kernel

/-- A frame context of tenant 3 over its region, with a picture of 16 by 16 and a queued frame in no slot. -/
def filming : State :=
  { run [6] loaded with
    srv := { loaded.srv with regions := [(0, { gen := 1, live := true, tenant := 3, pages := 2 })] }
    frame := { ctxs := [(0, { gen := 1, live := true, tenant := 3, width := 16, height := 16, curW := 16, curH := 16, frameBytes := 384 })] } }

theorem witness_FrameCommands :
    met 0x801 frameCtxCfgGoes (cmd 0 [(1, 0), (1, 0), (2, 3), (2, 16), (2, 16), (4, rawBytes 16 16 0), (4, 0xFFFFFF), (4, h0), (2, 4), (2, 3)]) filming ∧
    met 0x801 frameCtxCfgGoes (cmd 0 [(1, 0), (1, 2), (2, 0), (2, 64), (2, 64), (4, rawBytes 64 64 2), (4, 0), (4, h0), (2, 64), (2, 3)]) filming ∧
    met 0x802 frameCtxFreeGoes (cmd 0 [(4, h0)]) filming ∧ met 0x803 frameRcGoes (cmd 0 [(4, h0), (4, 5000)]) filming ∧
    met 0x804 frameRoiGoes (cmd 0 [(4, h0), (1, 7), (1, 244), (2, 1), (2, 0), (2, 8), (2, 16), (2, 8)]) filming ∧
    met 0x804 frameRoiGoes (cmd 0 [(4, h0), (1, 0), (1, 12), (10, 0)]) filming ∧
    met 0x805 frameSubmitNow (cmd 0 [(4, h0), (4, 0), (8, 4096), (4, 0x4000000)]) filming ∧
    met 0x805 frameSubmitNow (cmd 0 [(4, h0), (4, 1), (8, 0), (4, 32)]) filming ∧
    met 0x805 frameSubmitWaits (cmd 0 [(4, h0), (4, 3), (8, 0), (4, 32)]) filming := by
  and_intros <;> decide +kernel

/-- Device 71 is an active member, this device a member; a READY snapshot of this device. -/
def racked : State :=
  { loaded with
    rack := { loaded.rack with
      mstate := .member, view := { loaded.rack.view with epoch := 4, members := BitVec.ofNat 72 (2 ^ 71 + 1) }
      peers := [(71, { ann := some { state := 2, mstate := 1, epoch := 4 } })] }
    stay := { loaded.stay with maps := [(71, { dataReady := true })] }
    reef := { loaded.reef with snaps := [(0, { gen := 1, live := true, ready := true })] } }

/-- The image of a context of tenant 3 on model 0 without tokens. -/
def imageOf : ReefImage := { record := pay [(4, 0x10009), (2, 3), (58, 0)] }

/-- A READY snapshot of some images on drive 0. -/
def onDrive (l : List ReefImage) : State :=
  let s := run [8, 9] loaded
  { s with
    nvme := { s.nvme with d0 := { s.nvme.d0 with st := .ready } }, sec := { s.sec with media0 := some 1 }
    reef := { s.reef with snaps := [(0, { gen := 1, live := true, ready := true, target := .nvme 0 })], media := [(0, { whole := true, images := l })] } }

theorem witness_ReefCommands :
    met 0x901 reefCfgGoes (cmd 0 [(1, 2), (1, 7), (2, 71), (4, h0), (4, 600), (2, 50)]) ready ∧
    met 0x902 reefSnapshotGoes (cmd 0 [(4, 1), (4, h0)]) (run [9] loaded) ∧ met 0x902 reefSnapshotGoes (cmd 0 [(8, 0)]) (run [9] ready) ∧
    met 0x903 reefEvacuateGoes (cmd 0 [(4, h0), (2, 71)]) (run [9] racked) ∧ met 0x904 reefRestoreGoes (cmd 0 [(4, h0), (2, 71)]) (run [9] racked) ∧
    met 0x904 reefRestoreNone (cmd 0 [(4, h0), (2, 0)]) (onDrive []) ∧ met 0x904 reefRestoreSome (cmd 0 [(4, h0), (2, 0)]) (onDrive [imageOf]) ∧
    letIn { cmd 0 [] with op := 0x905 } ready := by
  and_intros <;> decide +kernel

/-- A command on mailbox m whose payload an address names. -/
def far (m : Nat) (l : List (Nat × Nat)) : Cmd :=
  { mb := m, flags := 4, plen := (pay l).length, body := pay [(8, 4096), (48, 0)], rd := { indirect := some (pay l) } }

/-- The slot that an update writes holds all of an image but its last 996 bytes. -/
def updating : State := { ready with sec := { ready.sec with slotB := { written := padTo 3100 (pay [(16, 0), (4, 3584)]) } } }

theorem witness_SecurityCommands :
    met 0xC01 secKeySetGoes (far 0 [(2, 255), (2, 0), (4, 0), (8, 0), (96, 1)]) ready ∧
    met 0xC01 secKeySetGoes (far 0 [(2, 0), (2, 1), (4, 16383), (8, 0), (96, 1)]) ready ∧
    met 0xC02 secKeyDestroyGoes (cmd 0 [(2, 3), (6, 0)]) { ready with sec := { ready.sec with hbm := [(3, some [0])] } } ∧
    met 0xC02 secKeyDestroyGoes (cmd 0 [(2, 3), (2, 1), (4, 5)]) linked ∧
    met 0xC03 fwUpdateChunk (cmd 0 [(8, 4096), (4, 1048576), (4, 0), (4, 0)]) ready ∧
    met 0xC03 fwUpdateChunk (cmd 0 [(8, 4096), (4, 1), (4, 3100), (4, 0)]) updating ∧
    met 0xC03 fwUpdateLast (cmd 16 [(8, 0), (4, 996), (4, 3100), (4, 1), (996, 5)]) updating ∧
    letIn { cmd 0 [(8, 4096), (16, 7)] with op := 0xC04 } ready ∧ letIn { cmd 0 [] with op := 0xC05 } ready ∧
    met 0xC06 debugUnlockPassword (cmd 0 [(4, 0), (16, 0x41 * ((256 ^ 16 - 1) / 255))]) ready ∧
    met 0xC06 debugUnlockOwner (far 0 [(4, 1), (64, 0)])
      { ready with sec := { ready.sec with fuse := { ready.sec.fuse with ownerPub := some [] } } } ∧
    met 0xC07 debugLockGoes (cmd 0 []) { ready with sec := { ready.sec with lock := .opened } } := by
  and_intros <;> decide +kernel

/-- Record 0xFF holds one byte in its slot A. -/
def kept : State :=
  let x : PsSlot := { commit := 0xC3A55A3C, magic := psMagic, record := 0xFF, len := 1, seq := 1, data := [7], crc := crc32 (psHeader 0xFF 1 1 ++ [7]) }
  { ready with ps := { ready.ps with slots := [(2 * 0xFF, x)] } }

theorem witness_BoardAndRackCommands :
    met 0xE01 sensorReadGoes (cmd 0 [(8, 4096), (2, 0)]) ready ∧ met 0xE01 sensorReadGoes (cmd 0 [(8, 4096), (1, 2), (1, 0x48)]) ready ∧
    met 0xE02 ratlineSweepGoes (cmd 0 [(8, 4096)]) ready ∧ letIn { cmd 0 [(3, 0x0101FF)] with op := 0xE03 } ready ∧
    met 0xE04 consoleCfgGoes (cmd 0 [(4, 9600)]) ready ∧ met 0xE04 consoleCfgGoes (cmd 0 [(4, 3000000)]) ready ∧
    met 0xE05 pstoreReadGoes (cmd 0 [(8, 4096), (2, 0xFF), (2, 0)]) kept ∧
    met 0xE06 pstoreWriteGoes (cmd 0 [(8, 4096), (2, 0xFF), (2, 4096)]) ready ∧
    met 0xE06 pstoreWriteGoes (cmd 16 [(8, 0), (2, 0x10), (2, 1), (4, 0), (1, 7)]) ready ∧
    met 0xE07 rackEpochGoes (cmd 16 [(8, 1), (8, 0), (4, 0), (4, 0xFFFFFF), (8, 0), (9, 1)]) ready ∧
    letIn { cmd 16 [] with op := 0xE08 } ready := by
  and_intros <;> decide +kernel

/-! ### Resets, boot, power, registers -/

/-- COLD, with its strap samples. -/
def cold (l : List (BitVec 14)) : State := { State.reset with dev := { State.reset.dev with mode := .cold }, pins := { State.reset.pins with samples := l } }

/-- BOOT at a stage, with straps. -/
def booting (n : Nat) (v : BitVec 14) : State :=
  { ready with dev := { State.reset.dev with stage := n }, pins := { State.reset.pins with straps := v } }

theorem witness_StrapsAndRelease :
    (cold []).pins.por = false ∧ (cold []).pins.sysRstN = true ∧ (cold [1]).pins.samples.length < 2 ∧ (cold [1, 2]).pins.samples = [1, 2] ∧
    3 ≤ (cold [1, 2, 3]).pins.samples.length ∧ (cold []).dev.mode = .cold ∧ ready.dev.mode ≠ .cold ∧
    ({ cold [1, 1, 1] with dev := { (cold []).dev with pllWait := true } } : State).dev.pllWait = true := by
  and_intros <;> decide +kernel

/-- Some clock references lost: bit 0 XTAL, 1 PCIE_REFCLK, 2 SERDES_REFCLK, 3 PLB_CLK. -/
def unclocked (r : BitVec 4) (s : State) : State := { s with dev := { s.dev with lostRefs := r } }

theorem witness_ClocksAtRelease :
    xtalRuns (cold [1, 1, 1]) = true ∧ xtalRuns (unclocked 1 (cold [1, 1, 1])) = false ∧ xtalRuns (unclocked 6 (cold [1, 1, 1])) = true := by
  and_intros <;> decide +kernel

/-- A rail that Table 3.1 watches is out of range at ROM_START, and one that it does not watch; CCLK lost; boot from the PLB. -/
theorem witness_BootStagesHalted :
    ([8, 4, 7] : List Nat).filter (fun k => [0, 1, 2, 3, 5, 4, 7].contains k) = [4, 7] ∧
    ([8] : List Nat).filter (fun k => [0, 1, 2, 3, 5, 4, 7].contains k) = [] ∧
    domainLost 9 (booting 1 0) = false ∧ domainLost 9 (unclocked 1 (booting 9 0)) = true ∧ (booting 3 2).pins.straps.toNat % 4 = 2 ∧
    (booting 2 1).dev.stage = 2 ∧ (booting 9 0).dev.stage ≠ 4 ∧ (booting 9 0).dev.mode = .boot := by
  and_intros <;> decide +kernel

theorem witness_BootStages :
    strapFault (vrmStart 750 750 (booting 1 0)).pins = none ∧ strapFault (vrmStart 750 750 (booting 1 0x3FFF)).pins = some 0 ∧
    (booting 3 0).dev.fail = false ∧ (booting 3 0).pins.straps.toNat % 4 ≠ 2 ∧ bootSlot (booting 3 0) = some 0 ∧
    bootSlot { booting 3 0 with sec := { ready.sec with slotA := {} } } = none := by
  and_intros <;> decide +kernel

theorem witness_HostLoad :
    let s := booting 4 1
    let c : Cmd := { cmd 19 [(8, 4096), (4, 0x2000000)] with op := 0xC, rd := { data := some [] } }
    inlineInBoot s = true ∧ s.host.inl.busy = false ∧ fieldN c.body 0 8 % 4096 = 0 ∧ 4096 ≤ fieldN c.body 8 4 ∧
    fieldN c.body 8 4 ≤ 0x2000000 ∧ fieldN c.body 8 4 % 4096 = 0 ∧ zeroAt c.body 12 44 = true ∧ readHost 0 c.rd.data s = some [] := by
  and_intros <;> decide +kernel

/-- VF 1 exists; mailbox 0 has one command outstanding. -/
def shared : State :=
  { ready with
    pcie := { ready.pcie with vfEnable := true, numVfs := 1 }
    host := { ready.host with cmds := [{ cmd := { mb := 0, op := 0x0E02 }, seq := 9, id := 4, prog := .running }] } }

theorem witness_PcieEvents :
    ready.pcie.linkUp = true ∧ hclkRuns ready = true ∧ State.reset.pcie.linkUp = false ∧ (liveFns shared).contains 1 = true ∧
    shared.pcie.vfEnable = true ∧ ready.pcie.vfEnable = false ∧ (Tab.get ready.host.pages 0).st ≠ .stopped ∧ halted shared = false ∧
    (shared.host.cmds.find? (fun o => o.cmd.mb = 0 && o.seq = 9)).isSome = true ∧ shared.srv.ctxs = [] := by
  and_intros <;> decide +kernel

/-- Before enumeration: PERST_N released, the link down, the boot still holds the host off; and after it. -/
theorem witness_PcieTraining :
    let s := { ready with pins := { ready.pins with perstN := true }, pcie := { ready.pcie with linkUp := false } }
    s.dev.mode ≠ .cold ∧ s.pins.perstN = true ∧ s.pcie.linkUp = false ∧ hclkRuns s = true ∧ crs (booting 3 0) = true ∧ crs (booting 4 1) = false ∧
    crs ready = false ∧ crs shared = false ∧ (Tab.get shared.pcie.fns 1).d3hot = false ∧ (liveFns (booting 3 0)).contains 0 = true := by
  and_intros <;> decide +kernel

theorem witness_ClockAndThermalEvents :
    ready.dev.mode ≠ .cold ∧ (cold []).dev.mode = .cold ∧ ready.dev.mode ≠ .safe ∧ ready.dev.fail = false ∧ 5 ≤ ready.dev.stage ∧
    domainLost 9 ready = false := by
  and_intros <;> decide +kernel

/-- Rail 0 in a state of its own. -/
def rail (r : Rail) : State := { ready with pow := { ready.pow with r0 := r } }

theorem witness_PowerEvents :
    railsActive ready = true ∧ (rail { want := desired 0 ready }).pow.r0.want = desired 0 (rail { want := desired 0 ready }) ∧
    (railOf 0 (rail {})).want ≠ desired 0 (rail {}) ∧ desired 0 (rail {}) ≠ ((railOf 0 (rail {})).f, (railOf 0 (rail {})).v) ∧
    (railOf 0 (rail { st := .slew })).want ≠ desired 0 (rail { st := .slew }) ∧
    (railOf 0 (rail { st := .lowerF, switching := some 800, vt := 700 })).vt ≠ 750 ∧
    (railOf 0 (rail { st := .raiseF, switching := some 1000 })).switching = some 1000 ∧
    (railOf 0 (rail { st := .slew, repeated := true })).repeated = true ∧ (railOf 0 (rail { lastFrame := some .readStatus })).lastFrame = some .readStatus ∧
    (railOf 0 (rail {})).touched = false ∧ (ready.pow.policy.vmin : Int) ≤ vreq 0 (rail {}) 5 800 ∧ vreq 0 (rail {}) 5 800 ≤ ready.pow.policy.vmax := by
  and_intros <;> decide +kernel

theorem witness_PowerEventsHeld :
    let held := rail { st := .held, want := (800, 700), f := 900 }
    (railOf 0 held).want ≠ desired 0 held ∧ railsActive held = true ∧ (railOf 0 (rail { st := .settle })).st = .settle ∧
    halted (booting 1 0) = false ∧ (railOf 0 (booting 1 0)).lastFrame = some .readVoltage ∧ ready.pow.policy.avsEn = true ∧
    ({ ready with pow := { ready.pow with policy := { ready.pow.policy with avsEn := false } } } : State).pow.policy.avsEn = false ∧
    (railOf 0 (rail { touched := true })).touched = true ∧
    ({ ready with pins := { ready.pins with pwrFallen := true } } : State).pins.pwrFailN = true := by
  and_intros <;> decide +kernel

theorem witness_TelltaleEvents :
    fclkRuns ready = true ∧ ({ ready with tt := { ready.tt with reaction := .degraded } } : State).tt.reaction = .degraded := by
  and_intros <;> decide +kernel

theorem witness_RegisterAccesses :
    reaches 0 0x134 ready = true ∧ reaches 0 0x3028 ready = true ∧ reaches 0 (0x2100 + 4 * 13) ready = true ∧ reaches 0 (0x2200 + 4 * 13) ready = true ∧
    barDecoded 1 shared = true ∧ mapped 1 0x2000 shared = false ∧ writable 0x2000 shared = true ∧ readable 0x3000 ready = true ∧
    reaches 0 0x3018 ready = true ∧ reaches 0 0x3020 ready = true ∧ reaches 0 0x3024 ready = true ∧ reaches 0 (0x10000 + 0x1000 * 15) ready = true ∧
    reaches 1 (0x10000 + 0x1000 + 0x20) shared = true ∧ reaches 0 (0x10000 + 0x2C) ready = true ∧ reaches 0 0x4040 ready = true := by
  and_intros <;> decide +kernel

/-- Writes that cover no whole register, mapped or not, and an 8-byte write at 4 mod 8. -/
theorem witness_PartialWrites :
    barDecoded 0 ready = true ∧ writable 0x134 ready = true ∧ (2 ≠ 4 ∧ 2 ≠ 8) ∧ 0x136 % 4 ≠ 0 ∧ mapped 0 0x134 ready = true ∧
    mapped 0 0x10FFC ready = false ∧ writable 0x10FFC ready = true ∧ 0x3014 % 4 = 0 ∧ 0x3014 % 8 = 4 ∧ reaches 0 0x3014 ready = true := by
  and_intros <;> decide +kernel

/-- A function in a state. -/
def fnAt (f : Nat) (st : FnState) : State := { ready with host := { ready.host with fns := [(f, st)], pages := [(0, { st := st })] } }

theorem witness_FunctionTransitions :
    fnState 7 (fnAt 7 .starting) = .starting ∧ fnState 16 (fnAt 7 .starting) = .starting ∧ fnState 7 (fnAt 7 .stopping) = .stopping ∧
    fnDrained 7 (fnAt 7 .stopping) = true ∧ fnDrained 16 (fnAt 7 .stopping) = true ∧ halted (fnAt 7 .starting) = false := by
  and_intros <;> decide +kernel

/-- Mailbox 0 has a ring of 4 entries, one to fetch; a command whose result is known, a running one, a retired one. -/
def busy : State :=
  let k : Cpl := { tag := 0, op := 2, status := 0, phase := false, sqIdx := 0, seq := 1, rlen := 0, detail := 0, result := [] }
  { ready with host := { ready.host with
      pages := [(0, { st := .running, sizes := 0x202, sqTail := 1 })]
      cmds := [{ cmd := { mb := 0, op := 2 }, seq := 1, id := 1, prog := .known k }, { cmd := { mb := 0, op := 0x0E02 }, seq := 2, id := 2, prog := .running }]
      retired := [((0, 0), 5)] } }

theorem witness_MailboxEvents :
    canFetch 0 busy = true ∧ (Tab.get busy.host.pages 0).sqHead ≠ (Tab.get busy.host.pages 0).sqTail ∧ canIssue (mbReq 0 busy) busy = true ∧
    (busy.host.cmds.filter (fun o => o.cmd.mb = 0 && o.known?.isSome)).take (min 8 8) ≠ [] ∧ 1 ≤ (Tab.get busy.host.pages 0).cqRoom ∧
    (busy.host.cmds.find? (fun o => o.cmd.mb = 0 && o.seq = 2 && o.known?.isNone && o.cmd.op ≠ 0x0401)).isSome = true ∧
    (busy.host.retired.find? (fun x => x.1.1 = 0 && x.2 = 5)).isSome = true := by
  and_intros <;> decide +kernel

/-- The completion ring of mailbox 0 is full, and has room for one of two. -/
theorem witness_RingFull :
    let k : Cpl := { tag := 0, op := 2, status := 0, phase := false, sqIdx := 0, seq := 1, rlen := 0, detail := 0, result := [] }
    let two : State := { busy with host := { busy.host with cmds := busy.host.cmds ++ [{ cmd := { mb := 0, op := 2 }, seq := 3, id := 3, prog := .known k }] } }
    let full := modPage 0 (fun p => { p with cqHead := 1 }) busy
    (Tab.get full.host.pages 0).cqRoom = 0 ∧ (Tab.get full.pcie.fns (mbReq 0 full)).d3hot = false ∧ mhRuns full = true ∧
    canIssue (mbReq 0 full) full = true ∧ (full.host.cmds.filter (fun o => o.cmd.mb = 0 && o.known?.isSome)).length = 1 ∧
    (two.host.cmds.filter (fun o => o.cmd.mb = 0 && o.known?.isSome)).length = 2 ∧
    (Tab.get (modPage 0 (fun p => { p with cqHead := 2 }) two).host.pages 0).cqRoom = 1 := by
  and_intros <;> decide +kernel

/-- A READINESS of 8 bytes in hex digits. -/
def hex : List Byte := [0x30, 0x31, 0x30, 0x30, 0x30, 0x30, 0x30, 0x33, 0x30, 0x30, 0x30, 0x30, 0x30, 0x30, 0x30, 0x30]

theorem witness_Transports :
    nakFirst { dest := 0, som := true, eom := true, body := List.replicate 64 0 } ready = false ∧ ready.smb0.eid = none ∧
    ({ ready with smb0 := { ready.smb0 with waiting := [default], waiting1 := [default] } } : State).smb0.waiting = [default] ∧
    mhRuns ready = true ∧ ready.host.plb.busy = false ∧ outCount 18 ready = 0 ∧ ([0x43, 0x20] ++ hex).length ≤ 2060 ∧
    hexBytes hex = some [1, 0, 0, 3, 0, 0, 0, 0] ∧ 8 = 8 + fieldN [1, 0, 0, 3, 0, 0, 0, 0] 6 2 ∧
    (uartChar (List.replicate 9 7)).2 = true ∧ (uartChar (List.replicate 9 0)).2 = false := by
  and_intros <;> decide +kernel

/-! ### Tiles and Halyards -/

/-- An instruction word of its fields (Table 9.1). -/
def word (op pg d a b c imm : Nat) : W64 := BitVec.ofNat 64 (op * 2 ^ 56 + pg * 2 ^ 52 + d * 2 ^ 47 + a * 2 ^ 42 + b * 2 ^ 37 + c * 2 ^ 32 + imm)

/-- Tile 127 runs a word; g1 is 64. Its Sheet 3 holds 16 words of 32, its Cleat 5 counts 2. -/
def tile (w : W64) (u : Tile := {}) (dir : Nat := 2) : State :=
  { ready with comp := { ready.comp with
      tiles := [(127, { u with st := .running, imem := Tab.put [] 0 w, g := [(1, 64)], gcl := [(9, some true)] })]
      sheets := [(32 * 127 + 3, { st := .opened, depth := 32, dir := dir, write := 16, read := 2 })]
      lcl := [(32 * 127 + 5, { active := true, full := true, count := 2 })]
      gcl := [(9, { active := true, count := 100 })] } }

/-- The OPs whose words of zeros are legal, and those of predicates, Sheets, Cleats and CSRs with an IMM. -/
theorem witness_TileRows :
    ([0x01, 0x02, 0x03, 0x04, 0x05, 0x06, 0x07, 0x08, 0x09, 0x0A, 0x0B, 0x0C, 0x0D] ++ (List.range 21).map (· + 0x10) ++ [0x26, 0x27] ++
      (List.range 8).map (· + 0x28)).all (fun op => tileMeets op 127 (tile (word op 0 0 0 0 0 0))) = true ∧
    ((List.range 15).map (· + 0x50) ++ (List.range 16).map (· + 0x60) ++ (List.range 16).map (· + 0x70) ++ [0x80, 0x81, 0x82, 0x83, 0x88, 0x89, 0x8A, 0x8B,
      0x92, 0x93]).all (fun op => tileMeets op 127 (tile (word op 0 0 0 0 0 0))) = true ∧
    tileMeets 0x90 127 (tile (word 0x90 0 3 1 1 0 3)) = true ∧ tileMeets 0x91 127 (tile (word 0x91 0 0 1 0 0 0)) = true ∧
    pReg (tileOf 127 (tile 0)) 7 = 0 ∧ (gReg (tileOf 127 (tile 0)) 0).toNat ≤ (gReg (tileOf 127 (tile 0)) 1).toNat ∧
    pReg (tileOf 127 (tile 0 { p := [(7, 1)] })) 7 ≠ 0 := by
  and_intros <;> decide +kernel

theorem witness_TileMemoryRows :
    ((List.range 7).map (· + 0x30) ++ [0x38, 0x39, 0x3A, 0x3B, 0x70, 0x71]).all (fun op => tileMeets op 127 (tile (word op 0 0 1 0 0 0x1FFEC0))) = true ∧
    accOff (here 127 (tile (word 0x70 0 0 1 0 0 0x1FFEC0))) (tileOf 127 (tile 0)) = 0x1FFF00 ∧ inTmem 0x1FFF00 256 = true ∧
    sailWillWrite 127 0x1FFF00 256 (tile 0) = false ∧ sailWillRead 127 0x1FFF00 256 (tile 0) = false ∧
    rangeClean (tileBase 127 + 0x1FFF00) 256 (tile 0) = true := by
  and_intros <;> decide +kernel

theorem witness_TileWordsFault :
    tileIssues 127 (tile 0) = true ∧ legal (here 127 (tile 0)) = false ∧
    tileMeets 0x36 127 (tile (word 0x36 0 0 1 0 0 0x200000)) = true ∧
    inTmem (accOff (here 127 (tile (word 0x36 0 0 1 0 0 0x200000))) (tileOf 127 (tile 0))) 8 = false ∧
    tileMeets 0x71 127 (tile (word 0x71 0 0 1 0 0 4)) = true ∧ accOff (here 127 (tile (word 0x71 0 0 1 0 0 4))) (tileOf 127 (tile 0)) % 64 ≠ 0 ∧
    (tileOf 127 (tile 0 { stalled := true })).stalled = true ∧ (tileOf 127 (tile 0 { atEnd := true })).queue = [] ∧
    (tileOf 127 (tile 0 { atEnd := true, drain := some default })).drain.isSome = true := by
  and_intros <;> decide +kernel

/-- A queue of one Sail instruction. -/
def sail (k : SailKind) : State := tile 0 { queue := [{ kind := k, pc := 0 }] }

theorem witness_SailRows :
    (tileOf 127 (tile 0)).queue.length < 4 ∧ inTmem 64 (64 * smmaWords 1 false) = true ∧ inTmem 64 (64 * 512) = true ∧
    (sheetOf 127 3 (tile 0)).st = .opened ∧ (sheetOf 127 3 (tile 0)).dir = 2 ∧ (sheetOf 127 3 (tile 0 {} 1)).dir = 1 ∧
    tileMeets 0x90 127 (tile (word 0x90 0 0 0 1 0 (2 + 4 + 16 * 3))) = true ∧
    drainBlocks 127 { kind := .szero 3, pc := 0 } (strike [] (sail (.szero 3))) = false ∧ domainLost (tileDie 127) (tile 0) = false ∧
    rangeClean (tileBase 127) (64 * smmaWords 2 true) (sail (.smma 0 2 (.mem 0) (.mem 0))) = true ∧
    rangeClean (tileBase 127) 768 (sail (.sscl (.mem 0))) = true ∧ 12 ≤ (sheetOf 127 3 (sail (.sscl (.sheet 3)))).present ∧
    rangeClean (tileBase 127) 2048 (sail (.sscl (.sheet 3))) = true ∧
    (tileOf 127 (tile 0 { drain := some { acc := 1, bf := true, zero := true, tgt := .mem 0 } })).drain.isSome = true ∧
    (tileOf 127 (tile 0 { queue := [{ kind := .szero 1, pc := 0, executed := true }] })).queue ≠ [] := by
  and_intros <;> decide +kernel

/-- A Sheet with room for a whole BF16 accumulator, to drain into. -/
def drains : State :=
  let s := tile 0 { drain := some { acc := 1, bf := true, zero := true, tgt := .sheet 3 } } 1
  { s with comp := { s.comp with sheets := [(32 * 127 + 3, { st := .opened, depth := 1024, dir := 1 })] } }

theorem witness_SailDrain : drainBytes true / 64 ≤ (sheetOf 127 3 drains).credits ∧ (sheetOf 127 3 drains).st = .opened := by
  and_intros <;> decide +kernel

theorem witness_SheetRows :
    ([0xA4, 0xA5, 0xA6, 0xA7, 0xAA].all (fun op => tileMeets op 127 (tile (word op 0 0 0 0 3 14))) &&
      [0xA8, 0xA9, 0xAB, 0xAC, 0xAD, 0xAE, 0xAF].all (fun op => tileMeets op 127 (tile (word op 0 0 0 0 3 0)))) = true ∧
    (sheetOf 127 3 (tile 0)).present = 14 ∧ (sheetOf 127 3 (tile 0)).credits = 16 ∧ sailNames (tileOf 127 (tile 0)) 3 = false ∧
    rangeClean (tileBase 127) 2048 (tile 0) = true ∧ inTmem 0 (64 * 14) = true ∧ sailWillWrite 127 0 (64 * 14) (tile 0) = false ∧
    (∀ r ∈ (sheetOf 127 3 (tile 0)).ranges 16 14, sailWillRead 127 r.1 r.2 (tile 0) = false ∧ sailWillWrite 127 r.1 r.2 (tile 0) = false) ∧
    (sheetOf 127 3 (tile 0)).release ≤ (sheetOf 127 3 (tile 0)).mark ∧ (sheetOf 127 3 (tile 0)).release + 2 ≤ (sheetOf 127 3 (tile 0)).read ∧
    tileMeets 0xA4 127 (tile (word 0xA4 0 0 0 0 3 15)) = true ∧ tileMeets 0xAA 127 (tile (word 0xAA 0 0 0 0 3 3)) = true ∧
    (sheetOf 127 4 (tile 0)).st = .unconfigured := by
  and_intros <;> decide +kernel

/-- A Sheet whose mark lies before its release. -/
def rewound : State :=
  let s := tile (word 0xA9 0 0 0 0 3 0)
  { s with comp := { s.comp with sheets := [(32 * 127 + 3, { st := .opened, depth := 32, dir := 2, write := 16, read := 9, release := 8, mark := 7 })] } }

theorem witness_SheetRewind : tileMeets 0xA9 127 rewound = true ∧ (sheetOf 127 3 rewound).mark < (sheetOf 127 3 rewound).release := by
  and_intros <;> decide +kernel

/-- Cleat messages on their way, the tile-local Cleat at a count with its waits. -/
def signals (l : List CleatMsg) (c : Cleat := { active := true, full := true, count := 2 }) (w : W64 := 0) : State :=
  let s := tile w
  { s with comp := { s.comp with sigs := l, lcl := [(32 * 127 + 5, c)] } }

theorem witness_CleatAndCsrRows :
    [0xB4, 0xB5, 0xB7].all (fun op => tileMeets op 127 (tile (word op 0 0 0 1 0 5)) && tileMeets op 127 (tile (word op 0 0 0 1 0 (4096 + 9)))) = true ∧
    tileMeets 0xB6 127 (tile (word 0xB6 0 1 0 0 0 5)) = true ∧
    [0, 1, 2, 3, 4, 5, 0x10, 0x17].all (fun n => tileMeets 0xC0 127 (tile (word 0xC0 0 1 0 0 0 n))) = true ∧
    [3, 4].all (fun n => tileMeets 0xC1 127 (tile (word 0xC1 0 0 1 0 0 n))) = true ∧
    (cleatOf false (32 * 127 + 5) (tile 0)).full = true ∧ Tab.get (tileOf 127 (tile 0)).gcl 9 = some true ∧ 64 ≤ (cleatOf true 9 (tile 0)).count ∧
    (cleatOf false (32 * 127 + 5) (tile 0)).count < 64 ∧ (cleatOf false (32 * 127 + 5) (tile 0)).ovf = false ∧
    2 ^ 32 ≤ (cleatOf false (32 * 127 + 5) (signals [] { active := true, full := true, count := 0xFFFFFFFF })).count + 64 ∧
    waitReleased (.tile 127) (cleatOf false (32 * 127 + 5) (tile 0)) = false ∧
    waitReleased (.tile 127) (cleatOf false (32 * 127 + 5) (signals [] { active := true, waits := [{ who := .tile 127, thr := 1, released := true }] })) = true ∧
    (signals [{ glob := false, idx := 32 * 127 + 5, set := true, v := 1 }]).comp.sigs.length = 1 ∧
    (cleatOf true 10 (signals [{ glob := true, idx := 10, v := 1 }])).active = false ∧
    (tileOf 127 (signals [{ glob := false, idx := 32 * 127 + 5, v := 0xFFFFFFFF, src := some (127, 0, none) }])).st = .running := by
  and_intros <;> decide +kernel

/-- Halyard 63 runs a program of one descriptor; tile 127 and its Sheet 3 belong to its dispatch. -/
def hal (d : List (Nat × Nat)) (u : Halyard := {}) : State :=
  let s := tile 0 { disp := some 1 }
  let m := rawWrite 0x100000000000 (pay d) s
  { m with comp := { m.comp with
      hals := [(63, { u with st := .running, prog := 0x100000000000, len := 1, disp := some 1, regions := [{ lo := 0, len := 4096, ro := false }] })] } }

/-- A flight of a descriptor of 64 bytes, with what other devices have answered. -/
def fly (d : List (Nat × Nat)) (dir : Nat := 0) (got : List (Nat × List Byte × Nat) := []) : State :=
  let s := hal d { flights := [{ desc := pay d, total := 1, got := got, asked := got.length }], conns := [(1, 0)] }
  { s with comp := { s.comp with sheets := [(32 * 127 + 3, { st := .opened, depth := 32, dir := dir, write := 2, bound := some 63 })] } }

/-- A data descriptor of OP o at an address, of 64 bytes, for tile 127, Sheet 3. -/
def data (o a : Nat) : List (Nat × Nat) := [(1, o), (1, 0), (1, 127), (1, 3), (2, 0), (2, 0), (8, a), (4, 64), (4, 1), (8, 128)]

theorem witness_HalyardRows :
    halMeets 0 63 (hal [(32, 0)]) = true ∧
    halMeets 3 63 (hal (data 3 64)) = true ∧ halMeets 4 63 (hal (data 4 64)) = true ∧ halMeets 5 63 (hal (data 5 64)) = true ∧
    halMeets 1 63 { hal (data 1 64) with comp := { (hal (data 1 64)).comp with sheets := [(32 * 127 + 3, { st := .opened, depth := 32 })] } } = true ∧
    halMeets 2 63 { hal (data 2 64) with comp := { (hal (data 2 64)).comp with sheets := [(32 * 127 + 3, { st := .opened, depth := 32, dir := 1 })] } } = true ∧
    halMeets 6 63 (hal [(4, 6), (2, 0x8009), (10, 0), (4, 1), (12, 0)]) = true ∧
    halMeets 6 63 (hal [(4, 6), (2, 0x8009), (10, 0), (4, 1), (12, 0)] { flights := [{ desc := [] }] }) = true ∧
    halMeets 7 63 (hal [(4, 7), (2, 0x8009), (10, 0), (4, 100), (12, 0)]) = true ∧ (cleatOf true 9 (hal [])).count = 100 := by
  and_intros <;> decide +kernel

/-- The second descriptor of Halyard 63 is a LOOP over the first. -/
def loops (l : List (Nat × Nat)) : State :=
  let s := rawWrite 0x100000000020 (pay [(16, 8), (4, 2), (4, 1), (8, 0)]) (hal [(32, 7)])
  { s with comp := { s.comp with hals := [(63, { st := .running, prog := 0x100000000000, len := 2, idx := 1, loops := l, disp := some 1 })] } }

theorem witness_HalyardLoops :
    halMeets 8 63 (loops []) = true ∧ (descHere 63 (loops [])).n16 = 2 ∧ halMeets 8 63 (loops [(1, 0)]) = true ∧ halMeets 8 63 (loops [(1, 1)]) = true ∧
    descFault 63 0 (descHere 63 (hal (data 4 8192))) (hal (data 4 8192)) = some 2 ∧
    (halOf 63 { loops [] with comp := { (loops []).comp with hals := [(63, { st := .running, len := 1, idx := 1 })] } }).len = 1 := by
  and_intros <;> decide +kernel

theorem witness_HalyardAnswers :
    (∀ o ∈ [1, 3, 5], ∀ c ∈ [0, 2, 8], ((halOf 63 (askReads 63 0 512 (fly (data o (2 ^ 45)) 0 [(0, [7], c)]))).flights.map (fun f => f.got)) = [[(0, [7], c)]]) ∧
    (halOf 63 (askReads 63 0 512 (run [3] (connected (fly (data 3 (2 ^ 45))))))).flights.map (fun f => (f.asked, f.got)) = [(1, [])] ∧
    (halOf 63 (hal [(4, 6)] { flights := [{ desc := [], total := 1, acked := 1 }] })).flights.map (fun f => decide (f.total ≤ f.acked)) = [true] ∧
    (hal []).srv.dispatches = [] := by
  and_intros <;> decide +kernel

theorem witness_HalyardWords :
    (∀ o ∈ [1, 2, 3, 4, 5], ∀ a ∈ [64, 2 ^ 45], halRuns 63 (fly (data o a)) = true ∧
      (halOf 63 (askReads 63 0 512 (fly (data o a)))).flights.map (fun f => (f.done, f.moved, f.asked, f.total)) = [(false, 0, if o = 2 ∨ o = 4 then 0 else 1, 1)]) ∧
    (halOf 63 (fly (data 1 64))).st = .running ∧ sheetEarlier (halOf 63 (fly (data 1 64))) 0 (descOf (pay (data 1 64))) (fun g => g.moved) = false ∧
    (sheetOf 127 3 (askReads 63 0 512 (fly (data 1 64)))).st = .opened ∧ devOf ((descOf (pay (data 1 64))).wordAddr 0 0) = devNum (fly (data 1 64)) ∧
    devOf ((descOf (pay (data 1 (2 ^ 45)))).wordAddr 0 0) = 1 ∧ rangeClean 64 64 (fly (data 1 64)) = true ∧ rangeRuns 64 64 (fly (data 1 64)) = true ∧
    0 < (sheetOf 127 3 (fly (data 2 64) 1)).present ∧ devOf ((descOf (pay (data 5 64))).wordDest 0 0) = 0 ∧
    (∀ o ∈ [2, 4], ∀ a ∈ [64, 2 ^ 45], wordOutRuns { desc := pay (data o a), total := 1 } ((descOf (pay (data o a))).wordAddr 0 0) (fly (data o a)) = true) ∧
    wordOutRuns { desc := pay (data 5 64), total := 1 } ((descOf (pay (data 5 64))).wordDest 0 0) (fly (data 5 64)) = true := by
  and_intros <;> decide +kernel

/-! ### Serving, memories, Furl -/

/-- A kernel of one tile (CODE section 2) and one Halyard (HPROG section 3). -/
def kernRec : List Byte := pay [(2, 0), (2, 1), (2, 1), (2, 1), (2, 0), (4, 0xFFFFFFFF), (2, 0), (4, 1), (108, 0), (4, 2), (4, 3)]

/-- Two contexts of a model of one step of one kernel, one of which decodes; the word of the kernel's code is at address 0. -/
def decodes (w : W64) : State :=
  let m : Model :=
    { gen := 1, live := true, tenant := 3, sects :=
      [{ typ := 8, file := pay [(1, 0), (1, 2), (2, 1), (4, 0)] }, { typ := 5, file := kernRec },
       { typ := 1, file := List.replicate 8 0, memLen := 8 }, { typ := 2, file := List.replicate 32 0 }] }
  let c : Ctx := { gen := 1, live := true, tenant := 3, toks := [5], blocks := [{ done := 1 }], pendTok := some 9, req := some { ref := (0, 0), decoding := true } }
  rawWrite 0 (leBytes 8 w.toNat) { loaded with srv := { loaded.srv with models := [(0, m)], ctxs := [(0, c), (1, { c with req := some { ref := (0, 1) } })] } }

/-- A batch of the decoding context whose step has come to an entry. -/
def steps (w : W64) (n : Nat) (cur : Option Nat := none) : State :=
  let s := decodes w
  { s with srv := { s.srv with batches := [(0, { live := true, decode := true, slots := [some { ctx := 0, before := 1, new := 1 }], pos := n, cur := cur })] } }

/-- What is chosen for a dispatch of the kernel. -/
def bind (k : Option Nat) : Bind :=
  { batch := k, decode := true, slots := [some (0, 1)], tiles := [127], hals := [63], gcleats := [4095], area := mastBase 1 }

/-- A dispatch of tile 127 and Halyard 63 in states of theirs. -/
def dispatched (t : TileSt) (h : HalSt) : State :=
  let s := steps 0 0 (some 0)
  { s with
    srv := { s.srv with dispatches := [(0, { live := true, tiles := [127], hals := [63], gcl := [4095], info := mastBase 1 })] }
    comp := { s.comp with tiles := [(127, { st := t, disp := some 0 })], hals := [(63, { st := h, disp := some 0 })] } }

theorem witness_ServingRequests :
    mhRuns (decodes 0) = true ∧ (ctxOf 0 serving1).req = some { ref := (0, 0) } ∧
    (ctxOf 1 (decodes 0)).req = some { ref := (0, 1) } ∧ kvReady (ctxOf 1 (decodes 0)).toks.length 0 (ctxOf 1 (decodes 0)).blocks = true ∧
    ({ ref := (0, 0), frame := some (0, 3) } : Req).inStep = false ∧
    frameBad { ref := (0, 0), frame := some (0, 3) } { filming with frame := { filming.frame with ctxs := [(0, { slots := [(3, { st := .ended, fstat := 4 })] })] } } = true ∧
    frameBad { ref := (0, 0), frame := some (0, 3) } filming = false := by
  and_intros <;> decide +kernel

theorem witness_ServingDispatches :
    choiceOk (modelOf 0 (steps 0 0)) (kernAt (modelOf 0 (steps 0 0)) 1) (batchOf 0 (steps 0 0)).slots (bind (some 0)) (steps 0 0) = true ∧
    planOf (modelOf 0 (steps 0 0)) true = [(0, 1)] ∧
    prepare (bindEnv (modelOf 0 (steps 0 0)) (0, 1) (batchOf 0 (steps 0 0)).slots (bind (some 0)) (steps 0 0)) (steps 0 0) = .error 0x0404 ∧
    (match prepare (bindEnv (modelOf 0 (steps (word 1 0 0 0 0 0 0) 0)) (0, 1) (batchOf 0 (steps 0 0)).slots (bind (some 0)) (steps (word 1 0 0 0 0 0 0) 0))
      (steps (word 1 0 0 0 0 0 0) 0) with | .ok y => y.regions.length | .error e => e) = 2 ∧
    batchOk (bind none) (decodes 0) = true ∧
    choiceOk (modelOf 0 (decodes 0)) (kernAt (modelOf 0 (decodes 0)) 1) [some (slotFor true 0 1 (decodes 0))] (bind none) (decodes 0) = true ∧
    (batchOf 0 (steps 0 1)).live = true ∧ (batchOf 0 (steps 0 1)).pos = 1 := by
  and_intros <;> decide +kernel

theorem witness_ServingEnds :
    mhRuns (dispatched .loaded .idle) = true ∧ (tileOf 127 (dispatched .loaded .idle)).st = .loaded ∧ (halOf 63 (dispatched .loaded .idle)).st = .idle ∧
    (dispOf 0 (dispatched .faulted .idle)).tiles.find? (fun t => decide ((tileOf t (dispatched .faulted .idle)).st = .faulted)) = some 127 ∧
    (dispOf 0 (dispatched .running .fault)).hals.find? (fun h => decide ((halOf h (dispatched .running .fault)).st = .fault)) = some 63 ∧
    (dispOf 0 (dispatched .loaded .running)).hals.find? (fun h => decide ((halOf h (dispatched .loaded .running)).st ≠ .idle)) = some 63 := by
  and_intros <;> decide +kernel

/-- A word of memory with an error, with a write-back of it or of none queued. -/
def upset (a : Nat) (e : Ecc) (l : List Nat := []) : State := { ready with mem := { ready.mem with ecc := Tab.put [] a e, writeBack := l } }

theorem witness_MemoryEvents :
    halted (upset 64 .correctable [64]) = false ∧ inHbm 70 = true ∧ wordOf 70 = 64 ∧ Tab.get (upset 64 .correctable [64]).mem.ecc (wordOf 70) = .correctable ∧
    Tab.get (upset 64 .poisoned [64]).mem.ecc (wordOf 70) ≠ .correctable ∧ inHbm (0x6000000000 - 64) = true ∧
    Tab.get (upset 64 .correctable).mem.ecc (0x6000000000 - 64) = .clean ∧ Tab.get (upset 64 .uncorrectable).mem.ecc 64 = .uncorrectable ∧
    barDecoded 0 ready = true ∧ bar2Served ready = true ∧ bar2Served (cold []) = false ∧
    barDecoded 0 { cold [] with pcie := ready.pcie } = true ∧
    ownsBytes 0 0x3FFFFF 1 loaded = true ∧ ownsBytes 0 0x3FFFFF 2 loaded = false ∧ rangeClean 0x3FFFFF 1 loaded = true := by
  and_intros <;> decide +kernel

/-- The least key of the directory's last set. -/
def top : Nat := 262143 * 2 ^ 64

/-- The home of a key of the last set, whose entry is in its last way. -/
def home (d : DirEntry) (f : Furl → Furl := id) : State :=
  let s := { racked with time := { racked.time with mono := 500000000 } }
  { s with furl := f { s.furl with dir := [(2097151, { d with key := top })] } }

/-- Every way of the last set is taken by another key. -/
def crowded (d : DirEntry) : State :=
  { home {} with furl := { racked.furl with dir := (List.range 8).map (fun w => (2097144 + w, { d with key := top + 1 })) } }

theorem witness_FurlLookups :
    mhRuns (home { st := .ready }) = true ∧ activeMember 71 (home { st := .ready }) = true ∧ (home { st := .ready }).dev.mode ≠ .quarantine ∧
    [DirSt.building, .ready, .moving, .evicting].all (fun d => findEntry top (home { st := d }) = some 2097151) = true ∧
    leading (List.range 32) (List.range 8) = 8 ∧ findEntry top (home {}) = none ∧
    firstIdx (fun e => decide ((dirOf e (home {})).st = .free)) (8 * setOf top) 8 = some 2097144 ∧
    firstIdx (fun e => decide ((dirOf e (crowded { st := .ready })).st = .free)) (8 * setOf top) 8 = none ∧
    firstIdx (fun e => decide ((dirOf e (crowded { st := .ready })).st = .ready) && decide ((dirOf e (crowded { st := .ready })).holders = 0))
      (8 * setOf top) 8 = some 2097144 ∧
    firstIdx (fun e => decide ((dirOf e (crowded { st := .moving })).st = .ready) && decide ((dirOf e (crowded { st := .moving })).holders = 0))
      (8 * setOf top) 8 = none ∧ findEntry top (crowded { st := .moving }) = none := by
  and_intros <;> decide +kernel

theorem witness_FurlWaitersFull (s : State) :
    65536 ≤ ({ s with furl := { s.furl with waiters := List.replicate 65536 { dev := 71, ctx := 0, entry := 0 } } } : State).furl.waiters.length :=
  Nat.le_of_eq List.length_replicate.symm

theorem witness_FurlHomeEvents :
    let d := fun e => dirOf 2097151 (home e)
    (d { st := .building, builderDev := 71, builderCtx := 5, locDev := 71 }).builderDev = 71 ∧
    (d { st := .building, builderDev := 0 }).builderDev ≠ 71 ∧ (d { st := .ready, locDev := 71 }).holders = 0 ∧
    (d { st := .ready, locDev := 71, nvme := true }).nvme = true ∧ (d { st := .ready, holders := 1 }).holders ≠ 0 ∧
    (d { st := .moving, locDev := 71, restoring := true, askers := [3] }).restoring = true ∧ (d { st := .evicting, locDev := 71 }).st = .evicting ∧
    (d { st := .building, lease := 0 }).lease + 500 ≤ (home { st := .building }).time.mono / 1000000 ∧
    waitersOf 2097151 (home {} (fun u => { u with waiters := [{ dev := 71, ctx := 0, entry := 2097151 }] })) = [{ dev := 71, ctx := 0, entry := 2097151 }] ∧
    waitersOf 2097151 (home {}) = [] := by
  and_intros <;> decide +kernel

/-- This device has asked for a block, holds a slot of its pool for it, and has spilled another to a drive that is up. -/
def owner : State :=
  let s := run [8] (home {} (fun u => { u with
    asked := [{ key := top, ctx := 0, blk := 0, offer := 2 }], pool := [(2, { live := true, key := top, pages := 1 })]
    spilled := [(top, { live := true, bytes := 4096 })], highPct := 0 }))
  { s with nvme := { s.nvme with d0 := { s.nvme.d0 with st := .ready } }, sec := { s.sec with media0 := some 1 } }

theorem witness_FurlRequesterAndOwner :
    mhRuns owner = true ∧ activeMember 71 owner = true ∧ rmuGone owner = false ∧
    owner.furl.asked.find? (fun a => decide (a.key = top)) = some { key := top, ctx := 0, blk := 0, offer := 2 } ∧
    slotOfKey top owner = some 2 ∧ driveUp 0 owner = true ∧ (reserveSlot 0 0 4096 owner).1 = some 1 ∧
    useAtLeast owner.furl.highPct owner = true ∧ owner.furl.purging = [] ∧
    (evictNext { owner with furl := { owner.furl with evicting := true } }).furl.purging = [] := by
  and_intros <;> decide +kernel

/-! ### Frame, Reef -/

/-- Context 0 of a Frame engine with a frame in slot 3. -/
def picture (t : FrameSlot) (f : FrameCtx → FrameCtx := id) : State :=
  let x := fctxOf 0 filming
  { filming with frame := { filming.frame with ctxs := [(0, f { x with slots := [(3, t)] })] } }

/-- A marker of Table 20.4. -/
def marker (t : Nat) : List Byte :=
  let m := [0x56, 0x59, 0x46, 0x54, 0x4D, 0x41, 0x52, 0x4B] ++ pay [(20, t)]
  m ++ leBytes 4 (crc32 m)

/-- A chunk that is one raw frame of n bytes between its markers. -/
def chunk (n : Nat) : List Byte := marker 1 ++ pay [(n, 7)] ++ marker 2

theorem witness_FrameEvents :
    frameRuns (picture { st := .queued }) = true ∧ oldestQueued 0 (picture { st := .queued }) = some 3 ∧
    firstIdx (fun i => let s := picture { st := .queued }
      let f := (s.frame.rot + 1 + i) % 256
      (oldestQueued f s).isSome && !anySlot f (fun t => decide (t = .begun)) s &&
        (if (fctxOf f s).source = 0 then decide (begunCount true s < 2) else decide (begunCount false s < 4))) 0 256 = some 0 ∧
    (slotOf 0 3 (picture { st := .begun })).st = .begun ∧ canIssue 0 (picture {}) = true ∧ canIssue 0 (cold []) = false ∧
    rawFrame (fctxOf 0 (picture {})) [] = none ∧ (rawFrame (fctxOf 0 (picture {})) (chunk 384)).map (fun r => (r.fstat, r.pix.length)) = some (0, 384) ∧
    (rawFrame (fctxOf 0 (picture {})) (chunk 32)).map (fun r => r.fstat) = some 1 ∧
    rangeClean 0 448 (picture { srcLocal := true, len := 448 }) = true ∧ encodeNext 0 (picture { st := .ended, encPend := true }) = some 3 ∧
    (fctxOf 0 (picture {})).ringWrite + 64 ≤ 0 + (fctxOf 0 (picture {})).ringLen (picture {}) ∧
    leNat (slice (rawRead ((fctxOf 0 (picture {})).base (picture {}) + 0x118) 8 (picture {})) 0 8) = 0 := by
  and_intros <;> decide +kernel

/-- A snapshot to device 71 is being taken, or is READY with one frozen context of an evacuation to it. -/
def reefing (ready frozen : Bool) (f : Ctx → Ctx := id) : State :=
  let c : SnapCtx := { ctx := 0, handle := h0, cut := true, frozen := frozen }
  { racked with
    srv := { racked.srv with ctxs := [(0, f { gen := 1, live := true, tenant := 3, req := some { ref := (0, 0) } })] }
    reef := { racked.reef with
      st := if ready then .evacuating else .snapping, queue := [3], snaps := [(0, { gen := 1, live := true, ready := ready, target := .peer 71, ctxs := [c] })]
      evac := if frozen then some { snap := 0, dest := 71, ref := none } else none } }

theorem witness_ReefEvents :
    mhRuns (reefing false false) = true ∧ (raise 0x162 (reefing false false)).reef.st = .snapping ∧
    (raise 0x162 racked).reef.st ≠ .snapping ∧ (raise 0x162 racked).reef.st ≠ .evacuating ∧ snapRoom (raise 0x162 racked) = true ∧
    inHbm (3 * 65536) = true ∧ 3 * 65536 / 65536 ∈ (reefing false false).reef.queue ∧ takingSnap (reefing false false) = some 0 ∧
    (snapOf 0 (reefing false false)).target = .peer 71 ∧ ((snapOf 0 (reefing false false)).ctxs.all (fun g => g.cut)) = true ∧
    canHost racked = true ∧ parkFits 1 racked = true ∧ freeRun 1 racked = some 0 ∧
    parkFits 0 { racked with reef := { racked.reef with parked := List.replicate 8 { src := 71, snap := 0, page := 0, pages := 0 } } } = false ∧
    frozenOf h0 (reefing true true) = some 0 ∧ (reefing true true).reef.evac.map (·.dest) = some 71 ∧
    proxyOf 71 h0 (reefing true false (fun x => { x with evacuated := true, dest := 71 })) = some 0 ∧ canIssue 0 racked = true ∧
    canIssue 0 (run [] { racked with pcie := { racked.pcie with fns := [] } }) = false ∧
    activeMember 70 racked = false ∧ takingSnap (proxiesLost 70 racked) = none ∧ (proxiesLost 70 racked).reef.evac = none ∧
    takingSnap (proxiesLost 70 (reefing false false)) = some 0 ∧ (snapOf 0 (proxiesLost 70 (reefing false false))).target ≠ .peer 70 := by
  and_intros <;> decide +kernel

/-! ### Stay, Shroud -/

/-- Link 11 in a state of its own. -/
def cable (l : Link) : State := { run [2, 3] ready with stay := { links := Tab.put [] 11 l, maps := [(71, { mask := 0x800, dataReady := true })] } }

/-- A flit of its header and body, with its CRC (Table 15.2). -/
def flit (h : Nat) (body : List Byte) : List Byte :=
  let b := leBytes 4 h ++ padTo 248 body
  b ++ leBytes 4 (crc32 b)

/-- A packet header of one flit for this device, of a PROTO on a VC. -/
def packet1 (vc proto : Nat) : List Byte := flit (vc * 256 + 0x400 + 0x3000) (leBytes 8 (71 * 256 + proto * 2 ^ 24 + 16 * 2 ^ 48))

theorem witness_FlitsArrive :
    let s := cable { st := .up }
    s.dev.mode ≠ .cold ∧ lclkRuns s = true ∧ (linkOf 11 (fecCount 11 15 0 2 s)).st = .up ∧
    (linkOf 11 (linkCount 11 .crcErr 1 (fecCount 11 0 0 0 s))).st = .up ∧ fieldN (List.replicate 256 1) 252 4 ≠ crc32 ((List.replicate 256 1).take 252) ∧
    [flit 0xC00 [], flit 0x800 [1, 2, 3], flit 0x800 [2], flit 0x800 [3], flit 0x800 [4], flit 0 [], flit 0x2000000 [], flit 0x1400 [], packet1 0 1].all
      (fun b => b.length = 256 && fieldN b 252 4 = crc32 (b.take 252)) = true ∧
    Tab.get (linkOf 11 (cable { st := .up, part := [(3, some [[]])] })).part 3 = some [[]] ∧
    [(0, 1), (3, 2), (3, 3)].all (fun x => (packetHead (((packet1 x.1 x.2).drop 4).take 248) 1).map (fun p => (p.dest, p.src, p.proto, p.bytes)) = some (0, 71, x.2, 16) &&
      protoOk x.1 x.2 && vcState x.1 s = .ready) = true := by
  and_intros <;> decide +kernel

theorem witness_LinkEvents :
    (linkOf 11 (cable { st := .up, replay := [{ seq := 3, vc := 0, sop := true, eop := true, body := [], replays := 16, firstAt := some 0 }] })).replay ≠ [] ∧
    [LinkSt.down, .training, .up, .resync, .miscabled].all (fun x => (linkOf 11 (cable { st := x })).st = x && lclkRuns (cable { st := x })) = true ∧
    [TrainPhase.detect, .eq, .lock, .init].all (fun x => (linkOf 11 (cable { phase := x, partnerOk := true })).phase = x) = true ∧
    [Lanes.x4, .low2, .high2].all (fun x => (linkOf 11 (cable { phase := .lock, lanes := x })).lanes = x) = true := by
  and_intros <;> decide +kernel

theorem witness_StayPackets :
    (usableLinks 71 0 (cable { st := .up }))[5 % (usableLinks 71 0 (cable { st := .up })).length]? = some 11 ∧ vcState 0 (cable { st := .up }) = .ready ∧
    (usableLinks 0x7F 3 (cable { st := .up }))[0]? = some 11 ∧ usableLinks 71 0 (cable { st := .resync }) = [] ∧ protoOk 3 2 = true ∧ protoOk 0 1 = true ∧
    71 ≠ devNum (cable {}) ∧ halted (cable {}) = false := by
  and_intros <;> decide +kernel

/-- Connection 16383 with a peer of its own. -/
def conn (c : ShrConn) : State := { linked with shr := { linked.shr with conns := [(16383, { c with gen := 1, tenant := 3 })] } }

/-- A Shroud packet of a TYPE for connection 16383 of the peer's connection 9. -/
def shrPkt (t : Nat) : List Byte := pay [(1, 1), (1, t), (2, 0), (2, 16383), (2, 9), (72, 0)]

theorem witness_ShroudPackets :
    connFor (.stay 71) (shrPkt 1) linked = none ∧ (shrPkt 1).length = 80 ∧
    [1, 2, 3, 4, 5, 6, 7].all (fun t =>
      connFor (.stay 71) (shrPkt t) (conn { st := .opened, peer := .stay 71, peerIdx := 9 }) = some 16383 && (parsePkt (shrPkt t)).typ = t) = true ∧
    connFor (.udp 1 [5]) (shrPkt 1) (conn { st := .opening, peer := .udp 1 [5] }) = some 16383 ∧ halted linked = false ∧ linked.dev.mode ≠ .boot := by
  and_intros <;> decide +kernel

/-- A system connection with an operation to run. -/
def asks (opc addr len : Nat) : State :=
  let s := conn { st := .opened, sys := true, inq := [{ opc := opc, opsn := 1, len := len, addr := addr, aux := 7, whole := true }] }
  { s with
    srv := { s.srv with ctxs := [(0, { gen := 1, live := true })] }
    comp := { s.comp with gcl := [(7, { active := true, owner := .conn 16383 })] }
    shr := { s.shr with absent := [(1, true)] }
    mem := { s.mem with pages := [(0, { use := .pool 0 }), (1, { use := .pool 0 })] } }

/-- What the target's checks answer. -/
def aim (s : State) : Option (Nat × Bool) :=
  match (connOf 16383 s).inq with
  | o :: _ => match target 16383 o s with
    | .ok x => some x
    | .error _ => none
  | [] => none

/-- A connection of a tenant with an operation on its window, at an offset. -/
def asksVia (opc addr len : Nat) : State :=
  let s := conn { st := .opened, inq := [{ opc := opc, opsn := 1, len := len, addr := addr, aux := 0, whole := true }] }
  let m : ShrMap := { gen := 1, live := true, conn := 16383, remote := 8192, len := 0x200000, rd := true, wr := true, resend := true }
  { s with shr := { s.shr with maps := [(0, m)], absent := [(0, true)] } }

theorem witness_ShroudTargets :
    [1, 2, 3, 4].all (fun o => aim (asks o 0x1FFFF8 8) = some (0x1FFFF8, false) && !anyAbsent 0x1FFFF8 8 (asks o 0x1FFFF8 8)) = true ∧
    [1, 2, 3, 4].all (fun o => (aim (asks o 0x400000 8)).isNone && aim (asks o 0x3FFFF8 8) = some (0x3FFFF8, false) && anyAbsent 0x3FFFF8 8 (asks o 0x3FFFF8 8)) = true ∧
    [1, 2, 4].all (fun o => aim (asksVia o (8192 + 64) 8) = some (64, true) && anyAbsent 64 8 (asksVia o (8192 + 64) 8)) = true ∧
    aim (asks 5 0 16) = some (0, false) ∧ rangeClean 0x1FFFF8 8 (asks 1 0x1FFFF8 8) = true ∧ halted (asks 1 0 8) = false := by
  and_intros <;> decide +kernel

/-- An operation of a client, of 64 bytes to send. -/
def sends : ShrPost := { id := 4, kind := 2, len := 64, data := List.replicate 64 7 }

theorem witness_ShroudInitiators :
    postOk sends = true ∧ postOk { sends with kind := 6 } = false ∧
    [ConnSt.opened, .closing, .peerClosed, .broken].all (fun x => (connOf 16383 (conn { st := x })).st = x) = true ∧
    shrRuns (conn {}) = true ∧ shrRuns { conn {} with host := ready.host } = false ∧ (connOf 16383 (conn {})).onStay = true ∧
    (connOf 16383 (conn { outq := [{}] })).outq = [{}] ∧ (connOf 16383 (conn { unacked := List.replicate 1024 {} })).unacked.length = 1024 ∧
    ((connOf 16383 (conn { ops := [{ post := sends, opsn := some 1, resend := true }] })).ops.find?
      (fun o => o.post.id = 4 && (o.opsn.isSome || o.post.cond.isNone))).isSome = true ∧ (opData sends linked).1 = some sends.data ∧
    (connOf 16383 (conn { ops := [{ post := sends }] })).ops.all (fun o => !o.resend) = true := by
  and_intros <;> decide +kernel

theorem witness_ShroudTimers :
    (connOf 16383 (conn { st := .opened, unacked := [{ psn := 3 }] })).unacked.find? (fun g => g.psn = 3 && !g.sacked) = some { psn := 3 } ∧
    0 < (connOf 16383 (conn { st := .closing, ackDue := 1 })).ackDue ∧ (connOf 16383 (conn { st := .opening })).st = .opening ∧
    (connOf 16383 (conn { st := .closing, closes := 100 })).ops = [] ∧ linked.shr.target < 4000 - baseRtt { baseCur := some 500 } ∧
    3000 - baseRtt {} ≤ linked.shr.target ∧
    (let cut := (1200000 * (65536 * 4000 - linked.shr.md * (4000 - linked.shr.target)), 65536 * 4000);
      linked.shr.minRate * cut.2 ≤ cut.1) ∧
    (let cut := (1000 * (65536 * 4000 - linked.shr.md * (4000 - linked.shr.target)), 65536 * 4000);
      cut.1 < linked.shr.minRate * cut.2) ∧
    shaperRate { peer := .stay 71 } (cable { st := .up }) * 1 < 1200001 ∧ 400000 ≤ shaperRate { peer := .udp 1 [] } linked * 1 ∧
    400000 < 400000 + linked.shr.ai ∧ 1000 + linked.shr.ai ≤ lineRate { peer := .udp 1 [] } := by
  and_intros <;> decide +kernel

/-! ### Ports and drives -/

/-- Queue q of port p holds a unit; link 11 and the Ethernet ports are up. -/
def queued (p q : Nat) (k : TrimPkt) (l : List Nat := []) : State :=
  let s := run ([0, 1, 2] ++ l) ready
  { s with
    trim := { s.trim with qs := Tab.put [] (8 * p + q) { pkts := [k] } }
    stay := { links := Tab.put [] 11 { st := .up, granted := true, credits := [(0, 4), (3, 4)] } }, eth := [(0, { up := true }), (1, { up := true })] }

/-- A unit of two flits on VC 0. -/
def unit : TrimPkt := { bodies := [[1], [2]] }

theorem witness_TrimEvents :
    halted (queued 0 0 {}) = false ∧ (trimSelect 13 ready).1 = none ∧ (trimSelect 1 (queued 1 6 {})).1 = some 6 ∧ (trimSelect 1 (queued 1 3 {} [4])).1 = some 3 ∧
    (queueOf 1 3 (trimSelect 1 (queued 1 3 {} [4])).2).pkts = [{}] ∧ (trimSelect 13 (queued 13 0 unit [4])).1 = some 0 ∧
    (queueOf 13 0 (trimSelect 13 (queued 13 0 unit [4])).2).pkts = [unit] ∧ trimRuns (queued 1 6 {} [4]) = true ∧ trimRuns (queued 1 6 {}) = false ∧
    (∀ j, 6 < j → j < 8 → eligible 1 j (queued 1 6 {} [4]) = false) ∧ eligible 1 6 (queued 1 6 {} [4]) = true ∧
    8 ≤ 6 + strictOf (Tab.get (queued 1 6 {}).trim.ports 1) := by
  and_intros
  case _ => decide +kernel
  all_goals first | decide +kernel | (intro j h1 h2; obtain rfl : j = 7 := by omega); decide +kernel

/-- Port 1 holds n bytes in the ingress buffer of priority 6. -/
def ingress (n : Nat) : State := { run [1] ready with eth := [(1, { up := true, held6 := n })] }

theorem witness_EthernetEvents :
    (Tab.get (ingress 0).eth 1).up = true ∧ 0x100000 < (Tab.get (ingress 0x100000).eth 1).held 6 + 64 ∧
    0xC0000 < (Tab.get (ingress 0xFFF00).eth 1).held 6 + 0x100 ∧ (Tab.get (ingress 0xFFF00).eth 1).held 6 + 0x100 ≤ 0x100000 ∧
    (Tab.get (ingress 0xFFF00).eth 1).pausedRx 6 = false ∧ fnState 1 (ingress 0) ≠ .stopped ∧ domainLost 6 (ingress 0) = false ∧ ready.dev.mode ≠ .boot := by
  and_intros <;> decide +kernel

/-- Drive 1, of a port of two drives. -/
def drive (u : Drive) : State :=
  let s := run [8] ready
  { s with nvme := { s.nvme with wiredMode := 1, d1 := u }, pins := { s.pins with nvmePerstN := 3 }, sec := { s.sec with media1 := some 0 } }

theorem witness_DriveStates :
    (drive {}).nvme.wiredMode = 1 ∧ (drive {}).pins.nvmePerstN.getLsbD 1 = true ∧ domainLost 8 (drive {}) = false ∧ (driveOf 1 (drive {})).st = .absent ∧
    (driveOf 1 (drive { st := .init })).st = .init ∧ driveMeets { nsze := 4194560 } = true ∧ driveMeets { nsze := 4194559 } = false ∧
    (((driveOf 1 (drive { st := .resetting, resetAt := [0, 0] })).resetAt.filter (fun t => decide ((drive {}).time.mono < t + 600000000000))) ++ [0]).length = 3 ∧
    (driveOf 1 (drive { st := .ready })).st = .ready ∧ halted (drive {}) = false := by
  and_intros <;> decide +kernel

theorem witness_DriveCommands :
    let c : NvCmd := { cid := 3, kind := .write, lba := 256, nlb := 1, loc := 0, client := .spill 5 }
    (driveOf 1 (drive { st := .ready, cmds := [c] })).cmds.find? (fun c => c.cid = 3 && !c.waiting) = some c ∧
    (driveOf 1 (drive { cmds := [{ c with aborted := true, client := .none }] })).cmds.find? (fun c => c.cid = 3) = some { c with aborted := true, client := .none } ∧
    (driveOf 1 (drive { cmds := [{ c with kind := .read, client := .restore 5 }] })).cmds ≠ [] ∧
    clientIdle (.spill 5) (cmdDone 1 3 (drive { cmds := [c] })) = true ∧
    clientIdle (.restore 5) (memWrite 0 [1] (cmdDone 1 3 (drive { cmds := [{ c with kind := .read, client := .restore 5 }] }))) = true ∧
    (driveOf 1 (drive { cmds := [{ c with waiting := true }] })).cmds = [{ c with waiting := true }] := by
  and_intros <;> decide +kernel

/-! ### The Bowsprit -/

/-- The Bowsprit RUNNING, arbiter (0) or device (1). -/
def bow (role : Nat) (f : Bow → Bow := id) : State :=
  let s := run [7] loaded
  { s with
    pins := { s.pins with straps := BitVec.ofNat 14 (4 * role) }
    bow := f { s.bow with inw := s.bow.inw ++ [(1, { enable := true, burstOk := true, base := 0x1000, lcl := 0 })] } }

/-- The bow with a delayed read in every entry. -/
def delayed (d : DelayedRead) : State := bow 1 (fun b => { b with dreads := (List.range 4).map (fun k => (k, d)) })

theorem witness_BowspritTarget :
    plbRole (bow 0) = 0 ∧ plbRole (bow 1) = 1 ∧ pclkRuns (bow 0) = true ∧ (bow 0).bow.arb = .idle ∧ nextGrant 8 (bow 0) = some 3 ∧ nextGrant 0 (bow 0) = none ∧
    requests 9 (bow 0) 3 = true ∧ (List.range 5).any (fun m => m ≠ 3 && requests 9 (bow 0) m) = true ∧ requests 0 (bow 0) 3 = false ∧
    (bow 0).bow.maxTenure ≤ 256 ∧ inboundWin 0xFFF00FFC (bow 1) = some 0 ∧ inboundWin 0x1FFC (bow 1) = some 1 ∧ inboundWin 0x2000 (bow 1) = none ∧
    plbServed (bow 1) = true ∧ bowRuns (bow 1) = true ∧ plbServed (cold []) = false ∧ bowRuns { bow 1 with host := ready.host } = false ∧
    firstIdx (fun k => let d := Tab.get (delayed { st := .complete, addr := 0x1000 }).bow.dreads k
      !(d.st = .free) && d.addr = 0x1000 && d.be = 0 && d.burst = false && d.owner = none) 0 4 = some 0 ∧
    firstIdx (fun k => (Tab.get (delayed { st := .pending }).bow.dreads k).st = .free) 0 4 = none ∧
    firstIdx (fun k => (Tab.get (bow 1).bow.dreads k).st = .free) 0 4 = some 0 ∧ (bow 1).bow.dreads = [] := by
  and_intros <;> decide +kernel

theorem witness_BowspritFetches :
    let s := delayed { st := .pending, addr := 0x1FFC, win := 1 }
    (Tab.get s.bow.dreads 3).st = .pending ∧ plbRegion 0xFFC 4 (landBefore 0 s) = true ∧ rangeClean 0xFFC 4 (landBefore 0 s) = true ∧
    (Tab.get (landBefore 0 s).bow.inw 1).toLocal (0x1FFC / 4 * 4) = 0xFFC ∧ lanesOf 2 = 4 ∧ (Tab.get (bow 1).bow.routes 7).level = true ∧
    (Tab.get (bow 1 (fun b => { b with routes := [(7, { level := false })] })).bow.routes 7).level = false ∧
    (bow 1 (fun b => { b with low := 0x80 })).bow.low.getLsbD 7 = true ∧ (bow 1).bow.low.getLsbD 7 = false := by
  and_intros <;> decide +kernel

/-- A cycle of one beat, and accesses of it. -/
def cycle1 : PlbCycle := { addr := 0, be := 0, beats := [[(0, 0)]] }

/-- The Bowsprit as master, with a read that has some cycles. -/
def masters (role : Nat) (m : MasterSt) (l : List PlbCycle) (arb : ArbSt := .idle) (retries : Nat := 0) : State :=
  bow role (fun b => { b with accs := [{ ref := some (0, 1), n := 1, cycles := l }], mst := m, arb := arb, retries := retries })

theorem witness_BowspritMaster :
    (Tab.get (bow 1).bow.outw 0).enable = true ∧ 0xFFFFFFC + 4 ≤ (Tab.get (bow 1).bow.outw 0).size ∧ (Tab.get (bow 1).bow.outw 7).enable = false ∧
    (masters 1 .requesting [cycle1]).bow.mst = .requesting ∧ pclkRuns (masters 0 .requesting [cycle1]) = true ∧ plbServed (masters 1 .requesting [cycle1]) = true ∧
    (masters 0 .requesting [cycle1] (.granted 4)).bow.arb = .granted 4 ∧ (masters 0 .requesting [cycle1] (.granted 3)).bow.arb ≠ .granted 4 ∧
    255 ≤ (masters 1 .active [cycle1] .idle 255).bow.retries ∧ (masters 1 .active [cycle1] .idle 254).bow.retries < 255 ∧
    (masters 1 .waiting [cycle1, cycle1]).bow.accs ≠ [] ∧ halted (bow 1) = false := by
  and_intros <;> decide +kernel

/-! ### Management, the rack, the whole machine -/

/-- SMB1 lists address 0x7F; a transfer may be retried. -/
def polls (t : Option (Nat × Nat)) : State :=
  { ready with dev := { ready.dev with stage := 5 }, smb1 := { ready.smb1 with devs := [(0x7F, { listed := true })], retry := t } }

theorem witness_Smb1AndTestPort :
    smb1Runs (polls none) = true ∧ (Tab.get (polls none).smb1.devs 0x7F).listed = true ∧ (polls (some (0x7F, 8))).smb1.retry = some (0x7F, 8) ∧
    ready.pins.por = false ∧ ready.sec.lock ≠ .opened ∧ ({ ready with sec := { ready.sec with lock := .opened } } : State).sec.lock = .opened := by
  and_intros <;> decide +kernel

/-- The time unit disciplines its clock by a source. -/
def timed (src : Nat) (l : List Nat := [0x0A]) : State :=
  let s := run l ready
  { s with
    time := { s.time with
      source := src, syncSeq := 9, syncRx := some 5, syncTx := some 3, delaySeq := 9, delayTx := some 7, ppsInLast := some 1, mono := 500000001, ppsOutEn := true } }

theorem witness_TimeEvents :
    disciplined (timed 2) = true ∧ tclkRuns (timed 2) = true ∧ (timed 2).dev.mode ≠ .safe ∧ (timed 2).time.source = 2 ∧
    (timed 2).rack.view.gmId = 0 ∧ (timed 2).time.ptpDomain = 0 ∧ (timed 2).time.syncSeq = 9 ∧ (timed 2).time.delaySeq = 9 ∧
    disciplined (timed 3 []) = false ∧ (timed 3).time.source = 3 ∧ (timed 3).time.ppsOutEn = true ∧
    ({ ready with time := { ready.time with synced := true } } : State).time.synced = true := by
  and_intros <;> decide +kernel

/-- A Ratline frame: its TYPE, HOP, SEQ and byte 3. -/
def rlFrame' (t hop seq dev : Nat) : List Byte := rlFrame (pay [(1, t), (1, hop), (1, seq), (1, dev), (7, 0)])

/-- A sweep in progress. -/
def sweeps (l : List Nat) : State := { ready with rl := { ready.rl with sweep := some { cmd := (0, 1), seq := 7, fresh := l } } }

/-- A record write in progress at a step. -/
def writes (st : PsStep) (fallen : Bool := false) : State :=
  { ready with
    ps := { ready.ps with writing := some { record := 0xFF, slotB := true, seq := 1, data := [7], step := st } }
    pins := { ready.pins with pwrFallen := fallen } }

theorem witness_RatlineAndPstore :
    rlRuns ready = true ∧ [rlFrame' 0xA5 64 0 0, rlFrame' 0xA5 63 1 71, rlFrame' 0x5A 2 7 0, rlFrame' 0x5A 1 7 71].all rlValid = true ∧
    rlValid [] = false ∧ fieldN (rlFrame' 0xA5 64 0 71) 3 1 ≠ devNum ready ∧ ready.rl.sweep = none ∧
    (List.range (2 - 1)).all (fun i => [1].contains (i + 1)) = true ∧ (List.range (2 - 1)).all (fun i => ([] : List Nat).contains (i + 1)) = false ∧
    (sweeps []).rl.sweep.isSome = true ∧ ready.rl.orphaned = false ∧
    (writes .commit).ps.writing.map psStepNext = some none ∧ (writes .header).ps.writing.map psStepNext = some (some .commit) ∧
    (writes .erase1 true).pins.pwrFallen = true ∧ (writes .erase1).pins.pwrFallen = false := by
  and_intros <;> decide +kernel

/-- An ANNOUNCE and a LEAVE of their lengths (Table 25.7). -/
theorem witness_RackEvents :
    mhRuns racked = true ∧ speaks racked = true ∧
    (let b := pay [(1, 1), (1, 1), (2, 340), (1, 71), (335, 0)];
      b.length = 340 ∧ fieldN b 2 2 = 340 ∧ fieldN b 4 1 = 71 ∧ fieldN b 4 1 ≠ devNum racked) ∧
    (let b := pay [(1, 2), (1, 1), (2, 8), (4, 0)];
      b.length = 8 ∧ fieldN b 0 1 = 2 ∧ fieldN b 2 2 = 8) ∧
    fieldN (pay [(1, 1), (1, 2), (2, 340)]) 1 1 ≠ 1 ∧ ({ racked with rack := { racked.rack with mstate := .grace } } : State).rack.mstate = .grace ∧
    racked.rack.mstate ≠ .unset ∧ ready.rack.mstate = .unset ∧ activeMember 70 racked = false ∧
    (peerOf 70 { racked with rack := { racked.rack with peers := [(70, { sysConn := some 5 })] } }).sysConn = some 5 := by
  and_intros <;> decide +kernel

/-- A device in SAFE with a command waiting. -/
def safe (c : Instr) : State := { ready with dev := { ready.dev with mode := .safe }, pending := [c] }

/-- A step in SAFE answers a next state: it stays, or the cold resets leave it (R618). -/
theorem witness_SafeIsLeftOnlyByColdReset :
    (safe (.hbmRefresh 0)).dev.mode = .safe ∧ (∃ t, step (safe (.hbmRefresh 0)) = .next t) ∧ (safe .powerOnReset).pending.head? = some .powerOnReset ∧
    (safe .sysRstNLow).pending.head? = some .sysRstNLow := by
  refine ⟨rfl, ⟨_, rfl⟩, rfl, rfl⟩

theorem witness_WritesLandAndPoisonHolds :
    (upset 64 .poisoned).mem.wf = true ∧ inHbm 64 = true ∧ 64 % 64 = 0 ∧ Tab.get (upset 64 .poisoned).mem.ecc 64 = .poisoned ∧
    Tab.get (upset 64 .correctable).mem.ecc (wordOf 100) = .correctable ∧ Tab.get ready.mem.ecc (wordOf 0x5FFFFFFFFF) = .clean := by
  and_intros <;> decide +kernel

/-- READY, with what it last announced. -/
def quiet : State := { ready with rack := { ready.rack with said := sayNow ready }, stay := { ready.stay with mapSaid := linkMapData ready } }

theorem witness_QuietEvents :
    nothingWaits quiet = true ∧ acts .debugNonceExpiry quiet { quiet with sec := { quiet.sec with chal := none } } ∧
    nothingWaits { quiet with sec := { quiet.sec with chal := none } } = true := by
  refine ⟨by decide +kernel, rfl, by decide +kernel⟩

theorem witness_StepRunsTheFront : (safe (.hbmRefresh 0)).pending = (.hbmRefresh 0) :: [] ∧ ready.pending = [] := ⟨rfl, rfl⟩

/-! ### Clauses of the statements above, one by one -/

/-- A memory word of each kind that a write-back or the scrubber meets. -/
theorem witness_MemoryWords :
    [0, 0x5FFFFFFFFC0, 0x100000000000, 0x120000000000].all (fun w => w % eccUnit w == 0 && memRuns w ready) = true ∧
    inMast 0 0x100000000000 = true ∧ inStaging 0x120000000000 = true ∧ eccUnit 0x100000000000 = 8 ∧
    memRuns 0 { ready with dev := { ready.dev with lostPlls := 0xFFFF } } = false ∧ rangeRuns 0 4096 ready = true ∧
    rangeClean 64 64 (upset 64 .poisoned) = false ∧ (memRead 64 64 (upset 64 .poisoned)).1 = none ∧ rangeClean 0 64 (upset 64 .poisoned) = true := by
  and_intros <;> decide +kernel

/-- A deadline that finds its SUBMIT still waiting to start. -/
theorem witness_WaitingSubmit :
    let o : Outst := { id := 1, seq := 1, cmd := { cmd 0 [(4, h0), (28, 0), (4, 5)] with op := 0x0401 }, prog := .queued }
    let s : State := { loaded with host := { loaded.host with cmds := [o] } }
    mhRuns s = true ∧ (ctxOf 0 s).req = none ∧
    s.host.cmds.find? (fun o => o.prog = .queued && o.cmd.op = 0x0401 && fieldN (payloadOf o.cmd) 0 2 = 0 && fieldN (payloadOf o.cmd) 32 4 ≠ 0) = some o := by
  and_intros <;> decide +kernel

/-- An entry whose block is lost, builders whose owner is there or not, restores that are asked for. -/
theorem witness_FurlHomeClauses :
    let d := fun e => dirOf 2097151 (home e)
    (d { st := .evicting, lost := true, holders := 1, locDev := 71 }).lost = true ∧ (d { st := .evicting, lost := true, holders := 1, locDev := 71 }).holders ≠ 0 ∧
    (d { st := .evicting, lost := true, locDev := 71 }).holders = 0 ∧ (d { st := .ready, nvme := true }).nvme = true ∧
    (d { st := .moving, locDev := 71, holders := 1 }).holders ≠ 0 ∧ (d { st := .moving, locDev := 71 }).restoring = false ∧
    locUp 71 (home {}) = true ∧ locUp 70 (home {}) = false := by
  and_intros <;> decide +kernel

/-- Lookups of each kind that an answer may find, and slots that an orphan hold or a lost block names. -/
theorem witness_FurlRequesterClauses :
    [0, 1, 2, 3].all (fun m => let a : Asked := { key := top, ctx := 0, blk := 0, offer := 2, mode := m };
      (home {} (fun u => { u with asked := [a] })).furl.asked.find? (fun a => decide (a.key = top)) == some a) = true ∧
    (let a : Asked := { key := top, ctx := 0, blk := 0, offer := 0, mode := 2, dead := true };
      (home {} (fun u => { u with asked := [a] })).furl.asked.find? (fun a => decide (a.key = top)) = some a) ∧
    (let s := home {} (fun u => { u with owed := [top] });
      (s.furl.owed.contains top && !s.furl.asked.any (fun x => decide (x.key = top) && decide (x.mode ≠ 3))) = true) ∧
    (Tab.get (home {}).furl.spilled top).live = false ∧ orphanOfKey top (home {}) = none ∧
    orphanOfKey top (home {} (fun u => { u with pool := [(2, { live := true, key := top, pages := 1, orphaned := true })] })) = some 2 := by
  and_intros <;> decide +kernel

/-- Frames from a camera stream and from memory that can be read or not; snapshots on drives and to peers; retired connections. -/
theorem witness_FrameAndReefClauses :
    (fctxOf 0 (picture { st := .begun } (fun x => { x with source := 2 }))).source ≠ 0 ∧
    (memRead 64 64 (let s := picture { st := .begun, srcLocal := true, srcAddr := 64, len := 64 }
      { s with mem := { s.mem with ecc := [(64, .poisoned)] } })).1 = none ∧
    (fctxOf 0 (picture {} (fun x => { x with lastCapture := some 0 }))).lastCapture = some 0 ∧ (fctxOf 0 (picture {})).lastCapture = none ∧
    (let snap : Snap := { gen := 1, live := true, target := .nvme 0, header := true, ctxs := [] }
      let s : State := { racked with reef := { racked.reef with st := .snapping, snaps := [(0, snap)] } }
      takingSnap s = some 0 ∧ (snapOf 0 s).header = true ∧ clientIdle (.reef 0) s = true) ∧
    (let snap : Snap := { gen := 1, live := true, target := .peer 71, sent := true }
      let s : State := { racked with reef := { racked.reef with st := .snapping, snaps := [(0, snap)] } };
      (snapOf 0 s).sent = true ∧ handleOf 0 (snapOf 0 s).gen = h0) := by
  and_intros <;> decide +kernel

/-- Operations sent again, ports that may not send, links that are too wide, media without a key, buffers of a command. -/
theorem witness_PortClauses :
    (let c := conn { ops := [{ post := sends, opsn := some 1, resend := true }, { post := { sends with id := 5 }, opsn := some 0 }] };
      (((connOf 16383 c).ops.filter (fun o => o.opsn.isSome)).find? (fun o => o.resend)).isSome = true) ∧
    (insertOp 1 { post := sends, opsn := some 3 } [{ post := sends, opsn := some 2 }]).map (·.opsn) = [some 2, some 3] ∧
    (conn { sample := some 5 }).shr.conns ≠ [] ∧ (connOf 16383 (conn { sample := some 5 })).sample = some 5 ∧
    portTakes 13 ready = false ∧ portTakes 1 (queued 1 6 {}) = true ∧ maySend 1 6 (queued 1 6 {}) = true ∧ maySend 1 7 (queued 1 6 {}) = false ∧
    (drive {}).nvme.wiredMode = 1 ∧ (if (drive {}).nvme.wiredMode = 1 then 4 else 8) < 8 ∧
    mediaHeld 1 (drive {}) = true ∧ mediaHeld 1 { drive {} with sec := { (drive {}).sec with media1 := none } } = false ∧
    (let c : NvCmd := { cid := 3, kind := .read, lba := 256, nlb := 1, loc := 4096 };
      (driveOf 1 (drive { cmds := [c] })).cmds.find? (fun c => (c.kind = .read || c.kind = .write) && decide (c.loc ≤ 8128) && decide (8128 + 64 ≤ c.loc + 4096 * c.nlb)) = some c ∧
      ((driveOf 1 (drive { cmds := [c] })).cmds.all (fun c => !((c.kind = .read || c.kind = .write) && decide (c.loc ≤ 8129) && decide (8129 + 64 ≤ c.loc + 4096 * c.nlb)))) = true) := by
  and_intros <;> decide +kernel

/-! ### Well-formedness, decoding, and the spec's worked cases -/

/-- A term of every kind of check that names what the device does not have. -/
theorem test_ill_formed_refused :
    ([.thermalTrip 2, .railOutOfRange 7, .bar0RegisterWrite 16 0 4 0, .bar0RegisterWrite 0 0 3 0, .enable 0 16 0, .funcValidated 32, .mailboxFetch 16 none,
      .commandTimeout 20 0, .sessionOpen { mb := 20 }, .sessionOpen { mb := 0, bus := 2 }, .submitDeadline 4096, .tAdd 128, .cleatWaitRelease true 64,
      .cleatWaitRelease false 128, .hCopy 64, .hbmRefresh 8, .furlUnhold 72 0, .stayLockLost 12, .stayPacketSend 0 4 1 0 [] false, .shrAccept (.stay 72) [],
      .shrAccept (.udp 2 (List.replicate 16 0)) [], .shrAccept (.udp 1 []) [], .shrRead 16384, .trimSelectEv 14, .pfcRepeatEv 1 8, .vfEnableSet 16 [],
      .nvmeCapToExpiry 2, .plbInboundWrite 0 16 false [] {}, .plbDelayedReadDiscard 4, .plbIrqAssert 8, .frameEncodeRecord 256 [], .directPathAssert 448,
      .smb1Poll 128 .nak, .jtagBypass 256, .pcieLinkUp 1 ⟨17, 0, false⟩ true []] : List Instr).all (fun i => !i.wf) = true := by decide

theorem test_well_formed : ([.tAdd 127, .hCopy 63, .commandTimeout 19 0, .shrRead 16383, .shrAccept (.udp 1 (List.replicate 16 0)) []] : List Instr).all Instr.wf = true := by decide

/-- The table gives no row bits. -/
theorem test_no_word_spells_a_command : decodeTableWord 64 0x9000AC0000000A09 = none := rfl

/-- Words 7, 9, 15 and 20 of the inner loop of tile t77 (the worked case of spec/09_instruction_set.md). -/
theorem test_instruction_words :
    fieldsOf 0x90002800_00000A09 = { op := 0x90, pg := 0, d := 0, a := 10, b := 0, c := 0, imm := 0xA09 } ∧
    fieldsOf 0x9000AC00_00000A09 = { op := 0x90, pg := 0, d := 1, a := 11, b := 0, c := 0, imm := 0xA09 } ∧
    fieldsOf 0x28052800_00000840 = { op := 0x28, pg := 0, d := 10, a := 10, b := 0, c := 0, imm := 0x840 } ∧
    fieldsOf 0x05003800_00000006 = { op := 0x05, pg := 0, d := 0, a := 14, b := 0, c := 0, imm := 6 } ∧
    [0xA8000005_00000000, 0x90002800_00000A09, 0xA9000005_00000000, 0xAB000005_00000000, 0x28052800_00000840, 0x05003800_00000006].all
      (fun w => legal (fieldsOf w)) = true := by decide

/-- SHPOPNW g20, 6, 66 with 40 words present: fault 0x03, g20 and the read position unchanged (spec/09_instruction_set.md). -/
theorem test_pop_too_many :
    let s := tile 0xA50A0006_00000042 { }
    let s1 : State := { s with comp := { s.comp with sheets := [(32 * 127 + 6, { st := .opened, depth := 1024, dir := 2, write := 40 })] } }
    (match execTShpopnw 127 s1 with
      | .next t => decide ((tileOf 127 t).st = .faulted) && (tileOf 127 t).fault = 3 && (tileOf 127 t).faultPc = 0 && gReg (tileOf 127 t) 20 = 0 && (sheetOf 127 6 t).read = 0
      | _ => false) = true := by decide +kernel

/-- Table 12.6: the block of eight values four times over, then zeros, quantised by VQ8 with gB 0x3B80_0000, and the same in VF4. -/
def block0 : List W32 := [0x40E9999A, 0xC0200000, 0x3E99999A, 0x3C880000, 0xBC880000, 0x38D1B717, 0, 0x80000000]

theorem test_quantise :
    (quantBytes .vf8 (((List.replicate 4 block0).flatten) ++ List.replicate 32 0) 0x3B800000).take 67 =
      ((List.replicate 4 [0x7F, 0xF2, 0x5A, 0x39, 0xB9, 0x03, 0x00, 0x00]).flatten ++ List.replicate 32 0 ++ [0x48, 0, 0] : List Byte) ∧
    [0x7F, 0xF2, 0x5A, 0x39, 0xB9, 0x03, 0x00].map (fun q => dequantise .vf8 q 0x48 0x3B800000) =
      [0x40F00000, 0xC0200000, 0x3EA00000, 0x3C900000, 0xBC900000, 0x38C00000, 0] ∧
    (quantBytes .vf4 (((List.replicate 4 block0).flatten) ++ List.replicate 32 0) 0x3EA00000).take 2 = [0xC7, 0x00] := by decide +kernel

/-- 0x100 and 0x104 of device 35 after boot (spec/05_registers.md). -/
theorem test_status_and_straps :
    let s : State := { ready with pins := { ready.pins with straps := 0x1A34 } }
    bar0Read 0 0x100 s = 0x00000A02 ∧ bar0Read 0 0x104 s = 0x00231A34 ∧ devNum s = 35 := by decide +kernel

/-- MB_CTL 0x203, and the validation, of a page whose CQ_BASE is not a multiple of 4 KiB: STOPPED with START_INVAL (spec/05_registers.md). -/
theorem test_start_inval :
    let s : State := { fresh with host := { fresh.host with pages := [(0, { sizes := 0x0808, sqBase := 0x4000000000, cqBase := 0x4000004040 })] } }
    (match exec (.enable 0 0 0x203) s with
      | .next t => (match exec (.funcValidated 16) t with | .next u => bar0Read 0 0x10004 u | _ => 0)
      | _ => 0) = 0x10 := by decide +kernel

/-- The key message of the first team block, and the home and set of one key (spec/14_furl.md). -/
theorem test_furl_key :
    let m := keyMessage 0x4C616E7400000038 0x0123 0 ((List.range 32).map (· + 100))
    let key := leNat [0x3A, 0x91, 0xC4, 0xE2, 0x0B, 0x7F, 0x5D, 0x18, 0x6A, 0x02, 0x9C, 0x44, 0xE1, 0x07, 0xB3, 0xD5]
    m.length = 160 ∧ m.take 16 = [0x46, 0x52, 0x4C, 0x31, 0x38, 0, 0, 0, 0x74, 0x6E, 0x61, 0x4C, 0x23, 1, 0, 0] ∧ m.drop 156 = [0x83, 0, 0, 0] ∧
    homeOf key = 10 ∧ setOf key = 618 := by decide +kernel

/-- Check values of the standards that the spec names: CRC-32 of IEEE 802.3 and SHA-256. -/
theorem test_standards :
    crc32 [0x31, 0x32, 0x33, 0x34, 0x35, 0x36, 0x37, 0x38, 0x39] = 0xCBF43926 ∧ (sha256 [0x61, 0x62, 0x63]).take 4 = [0xBA, 0x78, 0x16, 0xBF] := by
  decide +kernel

/-- Queue 3 after the shaper write (Table 17.3): tokens after frame 1, 45 and 46 gains later, in 1/1,600 byte. -/
theorem test_shaper :
    let b := ((Bucket.set 150000 65536).gain).charge 4266
    b.tok = -6675600 ∧ (Nat.repeat Bucket.gain 44 b).tok = -75600 ∧ (Nat.repeat Bucket.gain 45 b).tok = 74400 := by decide +kernel

/-- The areas of a drive of 937,500,000 blocks and the reads of one spilled block (spec/18_host_storage.md). -/
theorem test_drive :
    areasOf 0 937500000 { ready with nvme := { ready.nvme with flags := 0b101 } } = (256, 703124832, 703125088, 234374912) ∧
    lbasOf 1284288 = 314 ∧ (cutCmds .read .none 64 10 0 94456 314 0).map (·.lba) = [94456, 94520, 94584, 94648, 94712] := by decide +kernel

/-- The two cycles of a write through a 16-bit window, and DONE of device 35 read as a master reads it (spec/19_bowsprit.md). -/
theorem test_bowsprit :
    (accCycles 1 false 0x08000104 4 (some [0x11, 0x22, 0x33, 0x44])).map (fun c => (c.addr, c.be, c.words)) =
      [(0x08000104, 0b0011, [0x11220000]), (0x08000106, 0b0011, [0x33440000])] ∧
    laneWord [(0, 0x3C), (1, 0x7F), (2, 0xA1), (3, 0x05)] = 0x3C7FA105 := by decide +kernel

/-- The capture of 2,560 by 1,440 BGRA pixels: sizes and one step of rate control (spec/20_frame_engine.md). -/
theorem test_frame :
    let x : FrameCtx := { width := 2560, height := 1440, pixfmt := 1, patch := 16, kbps := 8000, qp := 30, fullness := 1200000 * 1000000 }
    rawBytes 2560 1440 1 = 14745600 ∧ x.patches 2560 1440 = 14400 ∧ x.slotBytes 2560 1440 = 11075584 ∧ pictBytes 2560 1440 = 5570560 ∧
    x.slotOff 4 = 55508992 ∧ frameHandle 5 2 1 = 0x00010016 ∧ (rateStep x 8000 2500000 100000000).fullness = 2900000 * 1000000 ∧ (rateStep x 8000 2500000 100000000).qp = 31 := by
  decide +kernel

end Sys2Proof.Tests
end

section
/-! PROOFS. The host's accesses to BAR0 (spec/05_registers.md): the block that a 32-bit write goes to, what the block does with it, and how
a write of the host splits into writes of one register. -/

namespace Sys2Proof.Safety

open Sys2Proof.Machine

/-! ### A write that reaches its register -/

section

variable {fn off : Nat} {v r : W32} {s t : State}

theorem reaches_iff :
    reaches fn off s = true ↔ barDecoded fn s = true ∧ writable off s = true ∧ mapped fn off s = true := by
  simp only [reaches, Bool.and_eq_true, and_assoc]

/-- An event that is the write of one register has the effect of that write, when the write reaches its register. -/
theorem acts_of_reaches {i : Instr} (hx : exec i s = .next (settle (hostWrite32 fn off v r s))) (h : reaches fn off s = true)
    (ht : bar0Write32 fn off v r s = t) : acts i s t := by
  have hw : hostWrite32 fn off v r s = bar0Write32 fn off v r s := if_pos (reaches_iff.1 h).1
  exact acts_of (f := hostWrite32 fn off v r) hx (hw.trans ht)

theorem bar0Write32_devStatus (h : reaches fn off s = true) (h1 : 0x100 ≤ off) (h2 : off < 0x140) :
    bar0Write32 fn off v r s = writeDevStatus fn off v r s := by
  obtain ⟨-, hw, hm⟩ := reaches_iff.1 h
  simp [bar0Write32, hw, hm, h2, Nat.not_lt.2 h1]

theorem bar0Write32_telltale (h : reaches fn off s = true) (h1 : 0x140 ≤ off) (h2 : off < 0x2240) :
    bar0Write32 fn off v r s = writeTelltale off v r s := by
  obtain ⟨-, hw, hm⟩ := reaches_iff.1 h
  have h3 : ¬ off < 0x100 := by omega
  simp [bar0Write32, hw, hm, h2, h3, Nat.not_lt.2 h1]

theorem bar0Write32_time (h : reaches fn off s = true) (h1 : 0x2240 ≤ off) (h2 : off < 0x3030) :
    bar0Write32 fn off v r s = writeTime off v r s := by
  obtain ⟨-, hw, hm⟩ := reaches_iff.1 h
  have h3 : ¬ off < 0x100 := by omega
  have h4 : ¬ off < 0x140 := by omega
  simp [bar0Write32, hw, hm, h2, h3, h4, Nat.not_lt.2 h1]

theorem pageOf_pageReg {m k : Nat} (hm : m < 16) (hk : k < 0x30) : pageOf (pageReg m k) = some m := by
  have h1 : 0x10000 ≤ pageReg m k ∧ pageReg m k < 0x20000 ∧ pageReg m k % 0x1000 < 0x30 := by
    unfold pageReg; omega
  have h2 : (pageReg m k - 0x10000) / 0x1000 = m := by unfold pageReg; omega
  rw [pageOf, if_pos h1, h2]

theorem bar0Write32_page {m k : Nat} (hm : m < 16) (hk : k < 0x30) (h : reaches fn (pageReg m k) s = true) :
    bar0Write32 fn (pageReg m k) v r s = writePage fn m k v r s := by
  obtain ⟨-, hw, hd⟩ := reaches_iff.1 h
  have h1 : 0x10000 ≤ pageReg m k := by unfold pageReg; omega
  have h2 : pageReg m k % 0x1000 = k := by unfold pageReg; omega
  have h3 : ¬ pageReg m k < 0x100 ∧ ¬ pageReg m k < 0x140 ∧ ¬ pageReg m k < 0x2240 ∧ ¬ pageReg m k < 0x3030 ∧ ¬ pageReg m k < 0x40C0 := by
    omega
  simp only [bar0Write32, hw, hd, h3, pageOf_pageReg hm hk, h2, Bool.not_true, Bool.false_eq_true, if_false]

/-- A write of TT_STICKY or of TT_WIRING. -/
theorem acts_of_ttStickyWrite (h1 : 0x2100 ≤ off) (h2 : off < 0x2238) (h : reaches fn off s = true)
    (ht : writeTelltale off v r s = t) : acts (.ttStickyWrite fn off v r) s t := by
  have hx : exec (.ttStickyWrite fn off v r) s = act (fun s => if 0x2100 ≤ off && off < 0x2238 then hostWrite32 fn off v r s else s) s := rfl
  simp only [act, h1, h2, decide_true, Bool.and_self, if_true] at hx
  exact acts_of_reaches hx h ((bar0Write32_telltale h (by omega) (by omega)).trans ht)

/-- A doorbell of mailbox m: the write of one register of its page. -/
theorem acts_of_pageReg {i : Instr} {m k : Nat} (hm : m < 16) (hk : k < 0x30)
    (hx : exec i s = act (fun s => if m < 16 then hostWrite32 fn (pageReg m k) v 0 s else s) s) (h : reaches fn (pageReg m k) s = true)
    (ht : writePage fn m k v 0 s = t) : acts i s t := by
  simp only [act, if_pos hm] at hx
  exact acts_of_reaches hx h ((bar0Write32_page hm hk h).trans ht)

end

/-! ### What the blocks do with a write -/

section

variable {k : Nat} (v r : W32) (s : State)

theorem ttClearBits_sticky (m : BitVec 448) :
    ttClearBits m 0 s = recheckMode { s with tt := { s.tt with sticky := s.tt.sticky &&& ~~~m } } := by
  have h : s.tt.wiring &&& ~~~0 = s.tt.wiring := by
    simp only [BitVec.ofNat_eq_ofNat, BitVec.not_zero, BitVec.and_allOnes]
  rw [ttClearBits, h]

theorem ttClearBits_wiring (m : BitVec 448) :
    ttClearBits 0 m s = recheckMode { s with tt := { s.tt with wiring := s.tt.wiring &&& ~~~m } } := by
  have h : s.tt.sticky &&& ~~~0 = s.tt.sticky := by
    simp only [BitVec.ofNat_eq_ofNat, BitVec.not_zero, BitVec.and_allOnes]
  rw [ttClearBits, h]

/-- TT_STICKY (R13, R118): the ones written clear, and the sources that recur occur. -/
theorem writeTelltale_sticky (hk : k < 14) :
    writeTelltale (0x2100 + 4 * k) v r s = occur (wordSources k r)
      (recheckMode { s with tt := { s.tt with sticky := s.tt.sticky &&& ~~~wordMask k (v &&& ~~~r) } }) := by
  have h1 : 0x2100 + 4 * k ≠ 0x200C := by omega
  have h2 : 0x2100 ≤ 0x2100 + 4 * k ∧ 0x2100 + 4 * k < 0x2138 := by omega
  have h3 : (0x2100 + 4 * k - 0x2100) / 4 = k := by omega
  rw [writeTelltale, if_neg h1, if_pos h2, h3, ttClearBits_sticky]

/-- TT_WIRING (R13, R118): the ones written clear, and the bits of the sources that recur are set. -/
theorem writeTelltale_wiring (hk : k < 14) :
    writeTelltale (0x2200 + 4 * k) v r s =
      (let s1 := recheckMode { s with tt := { s.tt with wiring := s.tt.wiring &&& ~~~wordMask k (v &&& ~~~r) } }
       { s1 with tt := { s1.tt with wiring := (wordSources k r).foldl (fun m i => setBit m i true) s1.tt.wiring } }) := by
  have h1 : 0x2200 + 4 * k ≠ 0x200C := by omega
  have h2 : ¬ (0x2100 ≤ 0x2200 + 4 * k ∧ 0x2200 + 4 * k < 0x2138) := by omega
  have h3 : 0x2200 ≤ 0x2200 + 4 * k ∧ 0x2200 + 4 * k < 0x2238 := by omega
  have h4 : (0x2200 + 4 * k - 0x2200) / 4 = k := by omega
  rw [writeTelltale, if_neg h1, if_neg h2, if_pos h3, h4, ttClearBits_wiring]

/-- A time-setting write (R126): while the time discipline is not STOPPED it sets WR_IGN alone. -/
theorem timeWrite_eq_modTime (f : TimeUnit → TimeUnit) :
    timeWrite f s = modTime (fun t => if timeLocked s then { t with wrIgn := true } else f t) s := by
  unfold timeWrite
  split <;> rfl

end

/-! ### How a write of the host splits (R105, R106) -/

section

variable {fn off : Nat} (v : W64) {s : State}

theorem hostPut_register (h : off ≠ 0x4040) (w : W32) : hostPut fn off w s = bar0Write32 fn off w 0 s := if_neg h

theorem hostPut_go (w : W32) : hostPut fn 0x4040 w s = inlineGo fn w {} s := rfl

/-- GO of the inline mailbox (R130) submits the 64 bytes of IBM_CMD. -/
theorem inlineGo_of_reaches (h : reaches fn 0x4040 s = true) (w : W32) (rd : Reads) :
    inlineGo fn w rd s = if w.getLsbD 0 then inlineCmd (cmdOfBytes 19 0 (Tab.getList s.host.inl.cmd 0 64) rd) s else s := by
  obtain ⟨hd, hw, hm⟩ := reaches_iff.1 h
  simp [inlineGo, hd, hw, hm]

theorem hostWrite0_word (hd : barDecoded fn s = true) (ha : off % 4 = 0) :
    hostWrite0 fn off 4 v s = hostPut fn off (v.setWidth 32) s := by
  simp [hostWrite0, hd, bar0Write, ha]

theorem hostWrite0_pair (hd : barDecoded fn s = true) (ha : off % 4 = 0) :
    hostWrite0 fn off 8 v s = hostPut fn (off + 4) ((v >>> 32).setWidth 32) (hostPut fn off (v.setWidth 32) s) := by
  simp [hostWrite0, hd, bar0Write, ha]

theorem hostWrite0_partial {n : Nat} (hd : barDecoded fn s = true) (hn : (n ≠ 4 ∧ n ≠ 8) ∨ off % 4 ≠ 0) :
    hostWrite0 fn off n v s = partialWrite fn off n s := by
  have h4 : ¬ (n = 4 ∧ off % 4 = 0) := by omega
  have h8 : ¬ (n = 8 ∧ off % 4 = 0) := by omega
  simp only [hostWrite0, hd, Bool.not_true, Bool.false_eq_true, if_false, bar0Write, if_neg h4, if_neg h8]

end

/-- Settles O27: each access is brought to the write of the registers it touches, and that write to its block. -/
theorem registerAccessesComplete : Obligations.RegisterAccessesComplete := by
  unfold Obligations.RegisterAccessesComplete
  refine ⟨?word, ?pair, ?go, ?sizes, ?unmapped, ?accStatus, ?timeStatus, ?sticky, ?wiring, ?todRead, ?todSet, ?todStep, ?todAdj,
    ?enable, ?sqTail, ?cqHead, ?inlineGo⟩
  case word =>
    intro fn off v s ha hg h
    refine acts_of (f := hostWrite0 fn off 4 v) rfl ?_
    rw [hostWrite0_word v (reaches_iff.1 h).1 ha, hostPut_register hg]
  case pair =>
    intro fn off v s ha hg hg' h
    have hnext : off + 4 ≠ 0x4040 := by omega
    refine acts_of (f := hostWrite0 fn off 8 v) rfl ?_
    rw [hostWrite0_pair v (reaches_iff.1 h).1 ha, hostPut_register hg, hostPut_register hnext]
  case go =>
    intro fn v s h
    refine acts_of (f := hostWrite0 fn 0x4040 4 v) rfl ?_
    rw [hostWrite0_word v (reaches_iff.1 h).1 rfl, hostPut_go, inlineGo_of_reaches h]
    simp
  case sizes =>
    intro fn off n v s hn hd hw
    refine acts_of (f := hostWrite0 fn off n v) rfl ?_
    rw [hostWrite0_partial v hd hn]
    exact if_pos hw
  case unmapped =>
    intro fn off w s hd hw hc hm
    have ha : (!w || writable off s) = true := by
      cases w with
      | false => rfl
      | true => exact hw rfl
    refine answers_of rfl ?_
    simp [hd, ha, unmappedAccess, hc, hm]
  case accStatus =>
    intro fn v r s h
    exact acts_of_reaches rfl h (bar0Write32_devStatus h (by decide) (by decide))
  case timeStatus =>
    intro fn v r s h
    exact acts_of_reaches rfl h (bar0Write32_time h (by decide) (by decide))
  case sticky =>
    intro fn k v r s hk h
    exact acts_of_ttStickyWrite (by omega) (by omega) h (writeTelltale_sticky v r s hk)
  case wiring =>
    intro fn k v r s hk h
    exact acts_of_ttStickyWrite (by omega) (by omega) h (writeTelltale_wiring v r s hk)
  case todRead =>
    intro fn s hd hr
    have hm : mapped fn 0x3000 s = true := by simp [mapped]
    refine answers_of rfl ?_
    simp [hd, hm, latchSeconds, hr]
  case todSet =>
    intro fn v s h
    have ht := bar0Write32_time (v := v) (r := 0) h (by decide) (by decide)
    exact acts_of_reaches rfl h (ht.trans (timeWrite_eq_modTime s (setTod (v.toNat % 2 ^ 30))))
  case todStep =>
    intro fn v s h
    have ht := bar0Write32_time (v := v) (r := 0) h (by decide) (by decide)
    exact acts_of_reaches rfl h (ht.trans (timeWrite_eq_modTime s (stepTod v.toInt)))
  case todAdj =>
    intro fn v s h
    have ht := bar0Write32_time (v := v) (r := 0) h (by decide) (by decide)
    exact acts_of_reaches rfl h (ht.trans (timeWrite_eq_modTime s (adjTod v.toInt)))
  case enable =>
    intro fn m v s hm h
    exact acts_of_pageReg hm (by decide : 0x00 < 0x30) rfl h rfl
  case sqTail =>
    intro fn m v s hm h
    exact acts_of_pageReg hm (by decide : 0x20 < 0x30) rfl h rfl
  case cqHead =>
    intro fn m v s hm h
    exact acts_of_pageReg hm (by decide : 0x2C < 0x30) rfl h rfl
  case inlineGo =>
    intro fn v rd s h hv
    refine acts_of (f := inlineGo fn v rd) rfl ?_
    rw [inlineGo_of_reaches h, if_pos hv]

end Sys2Proof.Safety
end

section
/-! PROOFS. Writes of memory (spec/13_memory.md, R301, R307 - R310): what a read that goes before a write leaves of a word's check bits,
which bytes of a write land, and what becomes of a poisoned word. -/

namespace Sys2Proof.Safety

open Sys2Proof.Machine

/-- What a table reads where a test drops entries of it. -/
theorem get_dropIf_from {α : Type} [Inhabited α] [DecidableEq α] (p : Nat → α → Bool) (i : Nat) :
    ∀ {t : Tab α} {lo : Nat}, Tab.wfFrom lo t = true → Tab.get (Tab.dropIf t p) i = if p i (Tab.get t i) then default else Tab.get t i
  | [], _, _ => (ite_self _).symm
  | (k, v) :: t, lo, h => by
    simp only [Tab.wfFrom, Bool.and_eq_true] at h
    obtain ⟨-, ht⟩ := h
    rw [Tab.dropIf_cons]
    by_cases hk : k = i
    · subst hk
      have hrest : Tab.get (Tab.dropIf t p) k = default := Tab.get_of_wfFrom (Tab.wfFrom_dropIf p ht) (Nat.lt_succ_self k)
      split <;> simp_all
    · have ih := get_dropIf_from p i ht
      split <;> simp [hk, ih]

theorem get_dropIf {α : Type} [Inhabited α] [DecidableEq α] {t : Tab α} (h : t.wf = true) (p : Nat → α → Bool) (i : Nat) :
    Tab.get (Tab.dropIf t p) i = if p i (Tab.get t i) then default else Tab.get t i :=
  get_dropIf_from p i h

/-! ### The reads that go before a write (R309, R570) -/

/-- Memory m' is memory m after reads: the state of a word is as it was, but that an uncorrectable word may have become poisoned. -/
def EccRead (m m' : Memory) : Prop :=
  ∀ w, Tab.get m'.ecc w = Tab.get m.ecc w ∨ (Tab.get m.ecc w = .uncorrectable ∧ Tab.get m'.ecc w = .poisoned)

section

variable {m m' m'' : Memory} {w : Nat}

theorem EccRead.of_eq (h : m'.ecc = m.ecc) : EccRead m m' := fun w => .inl (by rw [h])

theorem EccRead.trans (h : EccRead m m') (g : EccRead m' m'') : EccRead m m'' := by
  intro w
  obtain hw | ⟨hu, hp⟩ := h w
  · have := g w
    rwa [hw] at this
  · have hp' : Tab.get m''.ecc w = .poisoned := by
      obtain gw | ⟨gu, -⟩ := g w
      · rw [gw, hp]
      · simp [hp] at gu
    exact .inr ⟨hu, hp'⟩

theorem EccRead.get_eq (h : EccRead m m') (hw : Tab.get m.ecc w ≠ .uncorrectable) : Tab.get m'.ecc w = Tab.get m.ecc w :=
  (h w).resolve_right fun g => hw g.1

end

theorem readWord_eccRead (w : Nat) (s : State) : EccRead s.mem (readWord w s).2.mem := by
  obtain ⟨-, -, he | ⟨hu, he⟩⟩ := readWord_mem w s
  · exact .of_eq he
  · intro v
    rw [he]
    by_cases hv : v = w
    · subst hv
      exact .inr ⟨hu, Tab.get_put_self_of_ne _ _ (by decide)⟩
    · exact .inl (Tab.get_put_ne _ _ hv)

theorem readWords_eccRead : ∀ (ws : List Nat) (s : State), EccRead s.mem (readWords ws s).2.mem
  | [], _ => .of_eq rfl
  | w :: ws, s => (readWord_eccRead w s).trans (readWords_eccRead ws (readWord w s).2)

theorem reefRead_eccRead (k : Nat) (s : State) : EccRead s.mem (reefRead k s).mem := by
  unfold reefRead
  split
  · exact .of_eq rfl
  · dsimp only
    split
    · rw [raise_mem]; exact readWords_eccRead _ (modReef _ s)
    · exact readWords_eccRead _ (modReef _ s)

theorem reefReads_eccRead : ∀ (l : List Nat) (s : State), EccRead s.mem (l.foldl (fun s k => reefRead k s) s).mem
  | [], _ => .of_eq rfl
  | k :: l, s => (reefRead_eccRead k s).trans (reefReads_eccRead l (reefRead k s))

theorem reefBefore_eccRead (a n : Nat) (s : State) : EccRead s.mem (reefBefore a n s).mem := reefReads_eccRead _ s

theorem reefBefore_poisoned {s : State} {w : Nat} (hp : Tab.get s.mem.ecc w = .poisoned) (a n : Nat) :
    Tab.get (reefBefore a n s).mem.ecc w = .poisoned := by
  rw [(reefBefore_eccRead a n s).get_eq (by simp [hp]), hp]

/-! ### Which bytes of a write land (R301, R310) -/

/-- A byte written at j lands: j is an address of Table 13.1, and its word is not poisoned or is one that the write fills. -/
def byteLands (e : Tab Ecc) (full : Nat → Bool) (j : Nat) : Bool :=
  inMemory j && (decide (Tab.get e (wordOf j) ≠ .poisoned) || full (wordOf j))

section

variable {m : Memory} {e : Tab Ecc} {full : Nat → Bool} {j : Nat}

theorem byteLands_outside (h : inMemory j = false) : byteLands e full j = false := by simp [byteLands, h]

theorem byteLands_unpoisoned (h : inMemory j = true) (he : Tab.get e (wordOf j) ≠ .poisoned) : byteLands e full j = true := by
  simp [byteLands, h, he]

theorem byteLands_poisoned (h : inMemory j = true) (he : Tab.get e (wordOf j) = .poisoned) : byteLands e full j = full (wordOf j) := by
  simp [byteLands, h, he]

theorem writeByte_eq (m : Memory) (full : Nat → Bool) (a : Nat) (b : Byte) :
    writeByte m full a b = if byteLands m.ecc full a then { m with bytes := Tab.put m.bytes a b } else m := by
  have hn : (!inMemory a || (decide (Tab.get m.ecc (wordOf a) = .poisoned) && !full (wordOf a))) = !byteLands m.ecc full a := by
    simp [byteLands]
  rw [writeByte, hn]
  cases byteLands m.ecc full a <;> rfl

@[simp] theorem writeByte_ecc (m : Memory) (full : Nat → Bool) (a : Nat) (b : Byte) : (writeByte m full a b).ecc = m.ecc := by
  rw [writeByte_eq]; split <;> rfl

theorem get_writeByte (h : m.wf = true) (a : Nat) (b : Byte) (j : Nat) :
    Tab.get (writeByte m full a b).bytes j = if j = a ∧ byteLands m.ecc full j = true then b else Tab.get m.bytes j := by
  have hb : Tab.wf m.bytes = true := ((Memory.wf_iff m).1 h).1
  rw [writeByte_eq]
  by_cases hj : j = a
  · subst hj
    split <;> simp [*, Tab.get_put_self]
  · split <;> simp [hj, Tab.get_put_ne]

@[simp] theorem writeBytes_ecc (full : Nat → Bool) : ∀ (bs : List Byte) (a : Nat) (m : Memory), (writeBytes full bs a m).ecc = m.ecc
  | [], _, _ => rfl
  | b :: bs, a, m => (writeBytes_ecc full bs (a + 1) _).trans (writeByte_ecc m full a b)

/-- Each byte of a list is at its own address, and the bytes that do not land leave the old ones. -/
theorem get_writeBytes (j : Nat) : ∀ (bs : List Byte) (a : Nat) {m : Memory}, m.wf = true →
    Tab.get (writeBytes full bs a m).bytes j =
      if a ≤ j ∧ j < a + bs.length ∧ byteLands m.ecc full j = true then bs.getD (j - a) 0 else Tab.get m.bytes j
  | [], a, m, _ => by
    have : ¬ (a ≤ j ∧ j < a + 0) := by omega
    simp only [writeBytes, List.length_nil, ← and_assoc, this, false_and, if_false]
  | b :: bs, a, m, h => by
    rw [writeBytes, get_writeBytes j bs (a + 1) (writeByte_wf h full a b), get_writeByte h, writeByte_ecc]
    obtain hlt | rfl | hgt := Nat.lt_trichotomy j a
    · simp [Nat.not_le.2 hlt, Nat.ne_of_lt hlt, show ¬ a + 1 ≤ j by omega]
    · simp
    · have hsub : j - a = j - (a + 1) + 1 := by omega
      have hlen : j < a + 1 + bs.length ↔ j < a + (bs.length + 1) := by omega
      simp [hsub, hlen, Nat.le_of_lt hgt, Nat.ne_of_gt hgt, Nat.succ_le_of_lt hgt]

end

/-! ### A write of memory -/

section

variable {s : State}

/-- What memory reads at each address after a write. -/
theorem byteAt_memWrite (h : s.mem.wf = true) (a : Nat) (bs : List Byte) (j : Nat) :
    byteAt j (memWrite a bs s) =
      if a ≤ j ∧ j < a + bs.length ∧ byteLands (reefBefore a bs.length s).mem.ecc (clearsPoison a bs.length) j = true
      then bs.getD (j - a) 0 else byteAt j s := by
  have hw := get_writeBytes (full := clearsPoison a bs.length) j bs a (reefBefore_wf h a bs.length)
  rw [(reefBefore_mem a bs.length s).1] at hw
  simpa only [byteAt, memWrite, rawWrite, modMem_mem, reefDirty_mem] using hw

/-- A poisoned word is clean after a write of the whole aligned 64 bytes that hold it, and poisoned after any other (R310). -/
theorem ecc_memWrite_poisoned (h : s.mem.wf = true) (a : Nat) (bs : List Byte) {w : Nat} (hp : Tab.get s.mem.ecc w = .poisoned) :
    Tab.get (memWrite a bs s).mem.ecc w = if clearsPoison a bs.length w = true then .clean else .poisoned := by
  have hwf : Tab.wf (reefBefore a bs.length s).mem.ecc = true := ((Memory.wf_iff _).1 (reefBefore_wf h a bs.length)).2.1
  have hd : (default : Ecc) = .clean := rfl
  simp [memWrite, rawWrite, get_dropIf hwf, reefBefore_poisoned hp, hd]

theorem clearsPoison_iff {a n w : Nat} : clearsPoison a n w = true ↔ a ≤ w / 64 * 64 ∧ w / 64 * 64 + 64 ≤ a + n := by
  simp [clearsPoison]

end

/-! ### The bytes of a word (Table 13.1, R307) -/

section

variable {w i : Nat}

theorem inMemory_iff {x : Nat} : inMemory x = true ↔ x < 0x6000000000 ∨ (0x100000000000 ≤ x ∧ x < 0x100008000000) ∨
    (0x100010000000 ≤ x ∧ x < 0x100018000000) ∨ (0x120000000000 ≤ x ∧ x < 0x120002000000) ∨
    (0x110000000000 ≤ x ∧ x < 0x110010000000) := by
  have hs : stagingBase = 0x120000000000 := rfl
  simp [inMemory, inHbm, inMast, mastBase, inStaging, hs, inTile, or_assoc]

theorem eccUnit_cases (w : Nat) : (w < 0x6000000000 ∧ eccUnit w = 64) ∨ (0x6000000000 ≤ w ∧ eccUnit w = 8) := by
  unfold eccUnit inHbm
  obtain h | h := Nat.lt_or_ge w 0x6000000000
  · exact .inl ⟨h, by simp [h]⟩
  · exact .inr ⟨h, by simp [Nat.not_lt.2 h]⟩

/-- HBM ends at the end of a word, so the bytes of a word have one unit of protection. -/
theorem eccUnit_add (hw : w % eccUnit w = 0) (hi : i < eccUnit w) : eccUnit (w + i) = eccUnit w := by
  have h1 := eccUnit_cases w
  have h2 := eccUnit_cases (w + i)
  obtain ⟨h, hu⟩ | ⟨h, hu⟩ := h1 <;> rw [hu] at hw hi ⊢ <;> omega

theorem wordOf_add (hw : w % eccUnit w = 0) (hi : i < eccUnit w) : wordOf (w + i) = w := by
  rw [wordOf, eccUnit_add hw hi]
  obtain ⟨-, hu⟩ | ⟨-, hu⟩ := eccUnit_cases w <;> rw [hu] at hw hi ⊢ <;> omega

/-- A word lies in one aligned piece of 64 bytes. -/
theorem word_in_aligned64 (hw : w % eccUnit w = 0) (hi : i < eccUnit w) : w + i < w / 64 * 64 + 64 := by
  obtain ⟨-, hu⟩ | ⟨-, hu⟩ := eccUnit_cases w <;> rw [hu] at hw hi <;> omega

/-- Each memory of Table 13.1 ends at the end of a word. -/
theorem inMemory_add (hm : inMemory w = true) (hw : w % eccUnit w = 0) (hi : i < eccUnit w) : inMemory (w + i) = true := by
  rw [inMemory_iff] at hm ⊢
  obtain ⟨h, hu⟩ | ⟨h, hu⟩ := eccUnit_cases w <;> rw [hu] at hw hi <;> omega

end

/-- Settles O4: Reef's read before a write poisons no word that is clean or correctable and clears no poison, so which bytes land is
decided by the word's state before the write. -/
theorem writesLandAndPoisonHolds : Obligations.WritesLandAndPoisonHolds := by
  unfold Obligations.WritesLandAndPoisonHolds
  intro a bs s h
  refine ⟨memWrite_wf h a bs, ?outside, ?lands, ?unmapped, ?poisoned⟩
  case outside =>
    intro j hj
    rw [byteAt_memWrite h, if_neg (by omega)]
  case lands =>
    intro i hi hm he
    have hl : byteLands (reefBefore a bs.length s).mem.ecc (clearsPoison a bs.length) (a + i) = true := by
      refine byteLands_unpoisoned hm ?_
      obtain he | he := he <;> rw [(reefBefore_eccRead a bs.length s).get_eq (by simp [he]), he] <;> decide
    rw [byteAt_memWrite h, if_pos ⟨by omega, by omega, hl⟩, Nat.add_sub_cancel_left]
  case unmapped =>
    intro i _ hm
    simp [byteAt_memWrite h, byteLands_outside hm]
  case poisoned =>
    intro w hm hw hp
    have hl : ∀ i < eccUnit w, byteLands (reefBefore a bs.length s).mem.ecc (clearsPoison a bs.length) (w + i) = clearsPoison a bs.length w := by
      intro i hi
      have hwi := wordOf_add hw hi
      rw [byteLands_poisoned (inMemory_add hm hw hi) (by rw [hwi, reefBefore_poisoned hp]), hwi]
    rw [← clearsPoison_iff]
    refine ⟨fun hc => ⟨?_, fun i hi => ?_⟩, fun hc => ⟨?_, fun i hi => ?_⟩⟩
    · rw [ecc_memWrite_poisoned h a bs hp, if_pos hc]
    · have hin := word_in_aligned64 hw hi
      obtain ⟨h1, h2⟩ := clearsPoison_iff.1 hc
      rw [byteAt_memWrite h, if_pos ⟨by omega, by omega, (hl i hi).trans hc⟩]
    · rw [ecc_memWrite_poisoned h a bs hp, if_neg hc]
    · rw [byteAt_memWrite h, if_neg fun g => hc ((hl i hi).symm.trans g.2.2)]

end Sys2Proof.Safety
end

section
/-! PROOFS. SAFE holds through every operation that the blocks share (spec/23_telltale.md, R618): one lemma for each function of the
model that changes the state. In SAFE no reaction starts, and the functions that move the device to another mode do nothing. -/

namespace Sys2Proof.Machine

/-- The device is in SAFE (Table 23.4). -/
def InSafe (s : State) : Prop := s.dev.mode = .safe

section
variable {s : State}

theorem InSafe.mode (h : InSafe s) : s.dev.mode = .safe := h

/-- An update that leaves the device block alone leaves SAFE alone. -/
theorem InSafe.upd {t : State} (h : InSafe s) (e : t.dev = s.dev) : InSafe t := by
  rw [InSafe, e]; exact h

/-- The state of a result that a match has taken apart. -/
theorem InSafe.of_snd {α : Type} {p : α × State} {a : α} {t : State} (h : InSafe p.2) (e : p = (a, t)) : InSafe t := by
  rw [e] at h; exact h

theorem ite_safe {c : Prop} [Decidable c] {a b : State} (ha : InSafe a) (hb : InSafe b) : InSafe (if c then a else b) := by
  split
  · exact ha
  · exact hb

theorem ite_snd_safe {α : Type} {c : Prop} [Decidable c] {p q : α × State} (hp : InSafe p.2) (hq : InSafe q.2) :
    InSafe (if c then p else q).2 := by
  split
  · exact hp
  · exact hq

theorem foldl_safe {α : Type} {f : State → α → State} (hf : ∀ {s} x, InSafe s → InSafe (f s x)) :
    ∀ {l : List α} {s : State}, InSafe s → InSafe (l.foldl f s)
  | [], _, h => h
  | x :: l, _, h => foldl_safe hf (l := l) (hf x h)

/-! ### Sending, views and completions -/

theorem emit_safe {o} (h : InSafe s) : InSafe (emit o s) := h.upd rfl

theorem noteAts_safe {fn a} (h : InSafe s) : InSafe (noteAts fn a s) := ite_safe h (h.upd rfl)

theorem writeHost_safe {fn a bs} (h : InSafe s) : InSafe (writeHost fn a bs s) := ite_safe (emit_safe (noteAts_safe h)) h

theorem msixRaw_safe {fn vec} (h : InSafe s) : InSafe (msixRaw fn vec s) := ite_safe (ite_safe (emit_safe h) h) (h.upd rfl)

theorem sendMsix_safe {fn vec} (h : InSafe s) : InSafe (sendMsix fn vec s) := ite_safe h (msixRaw_safe h)

theorem modView_safe {fn f} (h : InSafe s) : InSafe (modView fn f s) := h.upd rfl

theorem devEvt_safe {func fn} (h : InSafe s) : InSafe (devEvt func fn s) :=
  ite_safe (sendMsix_safe (modView_safe h)) (modView_safe h)

theorem devEvtAll_safe {func} (h : InSafe s) : InSafe (devEvtAll func s) := foldl_safe (fun _ h => devEvt_safe h) h

theorem setFn_safe {f st} (h : InSafe s) : InSafe (setFn f st s) :=
  ite_safe h (ite_safe (devEvtAll_safe (h.upd rfl)) (devEvtAll_safe (h.upd rfl)))

theorem modMbx_safe {m f} (h : InSafe s) : InSafe (modMbx m f s) := h.upd rfl

theorem rbufWrite_safe {o c} (h : InSafe s) : InSafe (rbufWrite o c s).2 := ite_snd_safe (ite_snd_safe (writeHost_safe h) h) h

theorem finish_safe {r st d bs} (h : InSafe s) : InSafe (finish r st d bs s) := by
  unfold finish
  split
  · exact modMbx_safe (h.upd rfl)
  · split
    · split
      · exact h
      · exact (rbufWrite_safe h).upd rfl
    · exact h

/-! ### Telltale -/

theorem setSticky_safe {src} (h : InSafe s) : InSafe (setSticky src s) := ite_safe (msixRaw_safe (h.upd rfl)) (h.upd rfl)

/-- Nothing enters SAFE a second time (R612). -/
theorem safeEntry_of_safe (h : InSafe s) : safeEntry s = s := if_pos (by simp [h.mode])

/-- No reaction starts in SAFE (R615). -/
theorem react_of_safe {v} (h : InSafe s) : react v s = s := if_neg (by simp [reactionArmed, h.mode])

theorem recheckMode_of_safe (h : InSafe s) : recheckMode s = s := if_neg (by simp [h.mode])

theorem safeEntry_safe (h : InSafe s) : InSafe (safeEntry s) := by
  rw [safeEntry_of_safe h]; exact h

theorem react_safe {v} (h : InSafe s) : InSafe (react v s) := by
  rw [react_of_safe h]; exact h

theorem recheckMode_safe (h : InSafe s) : InSafe (recheckMode s) := by
  rw [recheckMode_of_safe h]; exact h

theorem occur_safe {l} (h : InSafe s) : InSafe (occur l s) :=
  ite_safe (ite_safe h (react_safe (foldl_safe (fun _ h => setSticky_safe h) h))) h

theorem reefNote_safe {l} (h : InSafe s) : InSafe (reefNote l s) := ite_safe h (h.upd rfl)

theorem raise_safe {src} (h : InSafe s) : InSafe (raise src s) := occur_safe (reefNote_safe h)

/-- An event that raises its source under a condition. -/
theorem raise_if_safe {c : Prop} [Decidable c] {src} (h : InSafe s) : InSafe (if c then raise src s else s) :=
  ite_safe (raise_safe h) h

theorem directLatch_safe {src} (h : InSafe s) : InSafe (directLatch src s) := ite_safe (setSticky_safe (h.upd rfl)) (h.upd rfl)

theorem directSafe_safe (h : InSafe s) : InSafe (directSafe s) := safeEntry_safe (h.upd rfl)

theorem directAssert_safe {src} (h : InSafe s) : InSafe (directAssert src s) := ite_safe h (directSafe_safe (directLatch_safe h))

theorem samplePair_safe {p} (h : InSafe s) : InSafe (samplePair p s).2 := ite_snd_safe h (h.upd rfl)

theorem samplePairs_safe : ∀ {ps : List Pair} {s : State}, InSafe s → InSafe (samplePairs ps s).2
  | [], _, h => h
  | _ :: ps, _, h => samplePairs_safe (ps := ps) (samplePair_safe h)

theorem ttSample_safe {ps} (h : InSafe s) : InSafe (ttSample ps s) :=
  have h1 := occur_safe (foldl_safe (fun _ h => directLatch_safe h) (reefNote_safe (samplePairs_safe h)))
  ite_safe (ite_safe h1 (directSafe_safe h1)) h

theorem ttAck_safe (h : InSafe s) : InSafe (ttAck s) := ite_safe (h.upd rfl) h

theorem ttWatchdog_safe (h : InSafe s) : InSafe (ttWatchdog s) := raise_if_safe h

theorem ttClearBits_safe {st wi} (h : InSafe s) : InSafe (ttClearBits st wi s) := recheckMode_safe (h.upd rfl)

/-! ### Memories (spec/13_memory.md) -/

theorem modReef_safe {f} (h : InSafe s) : InSafe (modReef f s) := h.upd rfl

theorem modMem_safe {f} (h : InSafe s) : InSafe (modMem f s) := h.upd rfl

theorem readWord_safe {w} (h : InSafe s) : InSafe (readWord w s).2 := by
  unfold readWord
  split
  · exact h
  · exact ite_snd_safe h (raise_safe (modMem_safe h))
  · exact raise_safe (modMem_safe h)
  · exact raise_if_safe h

theorem readWords_safe : ∀ {ws : List Nat} {s : State}, InSafe s → InSafe (readWords ws s).2
  | [], _, h => h
  | _ :: ws, _, h => readWords_safe (ws := ws) (readWord_safe h)

theorem memRead_safe {a n} (h : InSafe s) : InSafe (memRead a n s).2 := readWords_safe h

theorem reefRead_safe {k} (h : InSafe s) : InSafe (reefRead k s) :=
  have hr := readWords_safe (modReef_safe h)
  ite_safe h (ite_safe (raise_safe (modReef_safe hr)) (modReef_safe hr))

theorem reefBefore_safe {a n} (h : InSafe s) : InSafe (reefBefore a n s) := foldl_safe (fun _ h => reefRead_safe h) h

theorem reefDirty_safe {a n} (h : InSafe s) : InSafe (reefDirty a n s) := ite_safe h (modReef_safe h)

theorem rawWrite_safe {a bs} (h : InSafe s) : InSafe (rawWrite a bs s) := modMem_safe h

theorem memWrite_safe {a bs} (h : InSafe s) : InSafe (memWrite a bs s) := rawWrite_safe (reefDirty_safe (reefBefore_safe h))

theorem strikeWord_safe {w e} (h : InSafe s) : InSafe (strikeWord w e s) := ite_safe (modMem_safe h) h

theorem strike_safe {ups} (h : InSafe s) : InSafe (strike ups s) := foldl_safe (fun _ h => strikeWord_safe h) h

theorem modPageAttr_safe {p f} (h : InSafe s) : InSafe (modPageAttr p f s) := modMem_safe h

theorem dropPage_safe {p} (h : InSafe s) : InSafe (dropPage p s) :=
  have h1 := reefBefore_safe h
  ite_safe (ite_safe (modPageAttr_safe h1) (raise_safe (modPageAttr_safe h1))) (modPageAttr_safe h1)

/-! ### Sheets, Cleats and tiles (spec/08, spec/09) -/

theorem modTile_safe {t f} (h : InSafe s) : InSafe (modTile t f s) := h.upd rfl

theorem modHal_safe {k f} (h : InSafe s) : InSafe (modHal k f s) := h.upd rfl

theorem modSheet_safe {t n f} (h : InSafe s) : InSafe (modSheet t n f s) := h.upd rfl

theorem modCleat_safe {g i f} (h : InSafe s) : InSafe (modCleat g i f s) := ite_safe (h.upd rfl) (h.upd rfl)

theorem sendSig_safe {m} (h : InSafe s) : InSafe (sendSig m s) := h.upd rfl

theorem signalGlobal_safe {i v} (h : InSafe s) : InSafe (signalGlobal i v s) := sendSig_safe h

theorem cleatAdd_safe {g i v} (h : InSafe s) : InSafe (cleatAdd g i v s) :=
  ite_safe h (ite_safe (modCleat_safe h) (raise_safe (modCleat_safe h)))

theorem cleatSet_safe {g i v} (h : InSafe s) : InSafe (cleatSet g i v s) := ite_safe h (modCleat_safe h)

theorem dropWaits_safe {w} (h : InSafe s) : InSafe (dropWaits w s) := h.upd rfl

theorem fireFill_safe {t x} (h : InSafe s) : InSafe (fireFill t x s) :=
  ite_safe (ite_safe (signalGlobal_safe h) (cleatAdd_safe h)) h

theorem storeWords_safe {t x} : ∀ {ws : List (List Byte)} {p : Nat} {s : State}, InSafe s → InSafe (storeWords t x ws p s)
  | [], _, _, h => h
  | _ :: ws, p, _, h => storeWords_safe (ws := ws) (p := p + 1) (memWrite_safe h)

theorem sheetPush_safe {t n ws} (h : InSafe s) : InSafe (sheetPush t n ws s) :=
  have h1 := modSheet_safe (storeWords_safe h)
  ite_safe (fireFill_safe h1) h1

theorem holdSheets_safe {d} (h : InSafe s) : InSafe (holdSheets d s) := ite_safe h (h.upd rfl)

theorem tileFault_safe {t c pc} (h : InSafe s) : InSafe (tileFault t c pc s) :=
  ite_safe h (raise_safe (holdSheets_safe (dropWaits_safe (modTile_safe h))))

theorem halFault_safe {k c a} (h : InSafe s) : InSafe (halFault k c a s) :=
  ite_safe h (raise_safe (holdSheets_safe (dropWaits_safe (modHal_safe h))))

theorem clsigArrive_safe {m t pc d} (h : InSafe s) : InSafe (clsigArrive m t pc d s) :=
  ite_safe h (ite_safe (modCleat_safe h) (ite_safe (tileFault_safe h) h))

theorem sigArrive_safe {m} (h : InSafe s) : InSafe (sigArrive m s) := by
  unfold sigArrive
  split
  · exact cleatSet_safe h
  · split
    · exact clsigArrive_safe h
    · exact cleatAdd_safe h

theorem sigsArrive_safe {n} (h : InSafe s) : InSafe (sigsArrive n s) :=
  foldl_safe (fun _ h => sigArrive_safe h) (foldl_safe (fun _ h => sigArrive_safe h) (h.upd rfl))

theorem drainEnd_safe {t d} (h : InSafe s) : InSafe (drainEnd t d s) := modTile_safe h

theorem drainStep_safe {t} (h : InSafe s) : InSafe (drainStep t s) := by
  unfold drainStep
  dsimp only
  split
  · exact h
  · split
    · exact drainEnd_safe (memWrite_safe h)
    · exact ite_safe h (ite_safe (drainEnd_safe (sheetPush_safe h)) (modTile_safe (sheetPush_safe h)))

theorem sailDone_safe {t} (h : InSafe s) : InSafe (sailDone t s) := by
  unfold sailDone
  split
  · exact ite_safe (modTile_safe h) h
  · exact h

/-- The Sail executes nothing in SAFE (Table 23.4). -/
theorem sailExecute_safe {t} (h : InSafe s) : InSafe (sailExecute t s) := by
  unfold sailExecute
  dsimp only
  split
  · exact h
  · rw [if_pos (by simp [h.mode])]
    exact h

theorem sailFinish_safe {t} : ∀ {n : Nat} {s : State}, InSafe s → InSafe (sailFinish t n s)
  | 0, _, h => modTile_safe h
  | _ + 1, s, h => by
    have h2 : InSafe (modTile t (fun u => { u with drain := none }) (drainStep t s)) := modTile_safe (drainStep_safe h)
    unfold sailFinish
    dsimp only
    split
    · exact h2
    · exact sailFinish_safe (modTile_safe (sailExecute_safe h2))

theorem programEnd_safe {t} (h : InSafe s) : InSafe (programEnd t s) := ite_safe (modTile_safe h) h

theorem watchdog_safe {t} (h : InSafe s) : InSafe (watchdog t s) := ite_safe (tileFault_safe h) h

theorem reservedHere_safe {t} (h : InSafe s) : InSafe (reservedHere t s) := ite_safe (tileFault_safe h) h

/-- No tile issues in SAFE (Table 23.4). -/
theorem tileIssues_of_safe {t} (h : InSafe s) : tileIssues t s = false := by
  simp [tileIssues, h.mode]

theorem issue_safe {op body t} (h : InSafe s) : InSafe (issue op body t s) := by
  rw [issue, if_pos (by simp [tileIssues_of_safe h])]
  exact h

theorem tileWaitRelease_safe {t} (h : InSafe s) : InSafe (tileWaitRelease t s) := ite_safe (issue_safe h) h

/-! ### Halyards and dispatches (spec/10) -/

/-- No Halyard runs in SAFE (Table 23.4). -/
theorem halRuns_of_safe {k} (h : InSafe s) : halRuns k s = false := by
  simp [halRuns, h.mode]

theorem halIssue_safe {op body k} (h : InSafe s) : InSafe (halIssue op body k s) := by
  rw [halIssue, if_pos (by simp [halRuns_of_safe h])]
  exact h

theorem moveWord_safe {k i} (h : InSafe s) : InSafe (moveWord k i s) := by
  rw [moveWord, if_pos (by simp [halRuns_of_safe h])]
  exact h

theorem retire_safe {k} : ∀ {n : Nat} {s : State}, InSafe s → InSafe (retire k n s)
  | 0, _, h => h
  | _ + 1, _, h => by
    unfold retire
    dsimp only
    split
    · exact ite_safe (ite_safe (retire_safe (modHal_safe (modHal_safe h)))
        (retire_safe (ite_safe (sendSig_safe (modHal_safe h)) (modHal_safe h)))) h
    · exact ite_safe (modHal_safe h) h

theorem retireAll_safe {k} (h : InSafe s) : InSafe (retireAll k s) := retire_safe h

theorem flightDone_safe {k i} (h : InSafe s) : InSafe (flightDone k i s) := by
  unfold flightDone
  split
  · exact h
  · exact ite_safe h (retireAll_safe (modHal_safe h))

theorem halGo_safe {k n f} (h : InSafe s) : InSafe (halGo k n f s) := retireAll_safe (modHal_safe h)

theorem halWaitRelease_safe {k} (h : InSafe s) : InSafe (halWaitRelease k s) :=
  ite_safe (halGo_safe (modHal_safe (dropWaits_safe h))) h

theorem halStop_safe {k} (h : InSafe s) : InSafe (halStop k s) :=
  ite_safe (retireAll_safe (modHal_safe (dropWaits_safe h))) h

theorem outReleased_safe {f} (h : InSafe s) : InSafe (outReleased f s) := ite_safe (modSheet_safe h) h

theorem halAnswer_safe {k q w wr c bs} (h : InSafe s) : InSafe (halAnswer k q w wr c bs s) := by
  unfold halAnswer
  split
  · exact h
  · exact ite_safe (modHal_safe h) (ite_safe (halFault_safe h) (outReleased_safe (modHal_safe h)))

theorem modSrv_safe {f} (h : InSafe s) : InSafe (modSrv f s) := h.upd rfl

theorem freeDispatch_safe {d} (h : InSafe s) : InSafe (freeDispatch d s) := by
  refine modSrv_safe (foldl_safe ?cleats (foldl_safe ?halyards (foldl_safe ?tiles h)))
  case cleats => exact fun _ h => modCleat_safe h
  case halyards => exact fun _ h => modHal_safe (dropWaits_safe h)
  case tiles => exact fun _ h => h.upd rfl

theorem endIfDrained_safe {d} (h : InSafe s) : InSafe (endIfDrained d s) := ite_safe (freeDispatch_safe h) h

theorem endDispatches_safe (h : InSafe s) : InSafe (endDispatches s) := foldl_safe (fun _ h => ite_safe (endIfDrained_safe h) h) h

theorem stopDispatch_safe {d} (h : InSafe s) : InSafe (stopDispatch d s) :=
  ite_safe h (endIfDrained_safe (modSrv_safe (foldl_safe (fun _ h => halStop_safe h)
    (foldl_safe (fun _ h => modTile_safe (dropWaits_safe (ite_safe (sailFinish_safe h) h))) (holdSheets_safe h)))))

end
end Sys2Proof.Machine
end

section
/-! PROOFS. SAFE holds through the supplies, the host control page, Trim, the Ethernet ports and the Stay links (R618). -/

namespace Sys2Proof.Machine

section
variable {s : State}

/-! ### Supplies (spec/03) -/

theorem setRail_safe {d r} (h : InSafe s) : InSafe (setRail d r s) := h.upd rfl

/-- No rail is commanded in SAFE (Table 23.4). -/
theorem railsActive_of_safe (h : InSafe s) : railsActive s = false := by
  simp [railsActive, h.mode]

theorem reform_safe {d} (h : InSafe s) : InSafe (reform d s) := by
  rw [reform, if_pos (by simp [railsActive_of_safe h])]
  exact h

theorem reformAll_safe (h : InSafe s) : InSafe (reformAll s) := reform_safe (reform_safe h)

theorem pwrFall_safe {n} (h : InSafe s) : InSafe (pwrFall n s) :=
  ite_safe (h.upd rfl) (reformAll_safe (setRail_safe (setRail_safe (h.upd rfl))))

theorem pwrRecover_safe (h : InSafe s) : InSafe (pwrRecover s) := ite_safe (h.upd rfl) h

theorem limiterPeriod_safe (h : InSafe s) : InSafe (limiterPeriod s) := by
  rw [limiterPeriod, if_pos (by simp [railsActive_of_safe h])]
  exact h

/-! ### The host control page (spec/05) -/

theorem unmappedAccess_safe {fn off} (h : InSafe s) : InSafe (unmappedAccess fn off s) := ite_safe h (modView_safe h)

theorem latchSeconds_safe {fn} (h : InSafe s) : InSafe (latchSeconds fn s) := ite_safe (modView_safe h) h

theorem modPage_safe {m f} (h : InSafe s) : InSafe (modPage m f s) := h.upd rfl

theorem writeSqTail_safe {m v} (h : InSafe s) : InSafe (writeSqTail m v s) := h.upd rfl

theorem writeCqHead_safe {m v} (h : InSafe s) : InSafe (writeCqHead m v s) := h.upd rfl

theorem enableWrite_safe {m on} (h : InSafe s) : InSafe (enableWrite m on s) := by
  unfold enableWrite
  split
  · exact setFn_safe h
  · exact setFn_safe h
  · exact modPage_safe h
  · exact modPage_safe h
  · exact h

theorem liveCheck_safe {fn m} (h : InSafe s) : InSafe (liveCheck fn m s) := ite_safe h (modView_safe h)

theorem writePage_safe {fn m off v r} (h : InSafe s) : InSafe (writePage fn m off v r s) :=
  have hl {f} := modPage_safe (m := m) (f := f) (liveCheck_safe (fn := fn) (m := m) h)
  ite_safe (enableWrite_safe (modPage_safe h)) (ite_safe (modPage_safe h) (ite_safe hl (ite_safe hl (ite_safe hl
    (ite_safe (writeSqTail_safe h) (ite_safe (writeCqHead_safe h) h))))))

theorem modTime_safe {f} (h : InSafe s) : InSafe (modTime f s) := h.upd rfl

theorem timeWrite_safe {f} (h : InSafe s) : InSafe (timeWrite f s) := ite_safe (modTime_safe h) (modTime_safe h)

theorem writeTime_safe {off v r} (h : InSafe s) : InSafe (writeTime off v r s) :=
  ite_safe (timeWrite_safe h) (ite_safe (timeWrite_safe h) (ite_safe (timeWrite_safe h) (ite_safe (timeWrite_safe h)
    (ite_safe (timeWrite_safe h) (ite_safe (modTime_safe h) h)))))

theorem writeTelltale_safe {off v r} (h : InSafe s) : InSafe (writeTelltale off v r s) :=
  have hc {st wi} := ttClearBits_safe (st := st) (wi := wi) h
  ite_safe (h.upd rfl) (ite_safe (occur_safe hc) (ite_safe (hc.upd rfl) h))

theorem writeDevStatus_safe {fn off v r} (h : InSafe s) : InSafe (writeDevStatus fn off v r s) :=
  ite_safe (modView_safe h) (ite_safe (modView_safe h) (ite_safe (modView_safe h) h))

theorem writeInline_safe {fn off v r} (h : InSafe s) : InSafe (writeInline fn off v r s) :=
  ite_safe (ite_safe (modView_safe h) (h.upd rfl)) (ite_safe (h.upd rfl) h)

theorem bar0Write32_safe {fn off v r} (h : InSafe s) : InSafe (bar0Write32 fn off v r s) := by
  refine ite_safe h (ite_safe (modView_safe h) (ite_safe h (ite_safe (writeDevStatus_safe h) (ite_safe (writeTelltale_safe h)
    (ite_safe (writeTime_safe h) (ite_safe (writeInline_safe h) ?page))))))
  case page =>
    split
    · exact writePage_safe h
    · exact h

theorem partialWrite_safe {fn off n} (h : InSafe s) : InSafe (partialWrite fn off n s) := ite_safe (modView_safe h) h

theorem bar0Write_safe {put : Nat → W32 → State → State} {fn off n v} (hp : ∀ {o v s}, InSafe s → InSafe (put o v s))
    (h : InSafe s) : InSafe (bar0Write put fn off n v s) :=
  ite_safe (hp h) (ite_safe (hp (hp h)) (partialWrite_safe h))

theorem hostWrite32_safe {fn off v r} (h : InSafe s) : InSafe (hostWrite32 fn off v r s) := ite_safe (bar0Write32_safe h) h

/-! ### Trim and the Ethernet ports (spec/17) -/

theorem modTrim_safe {f} (h : InSafe s) : InSafe (modTrim f s) := h.upd rfl

theorem modQ_safe {p q f} (h : InSafe s) : InSafe (modQ p q f s) := modTrim_safe h

theorem offer_safe {p q k} (h : InSafe s) : InSafe (offer p q k s) := ite_safe (modQ_safe h) (modTrim_safe h)

theorem holdCount_safe {n} (h : InSafe s) : InSafe (holdCount n s) := ite_safe h (modTrim_safe h)

theorem modEth_safe {p f} (h : InSafe s) : InSafe (modEth p f s) := h.upd rfl

theorem ethSend_safe {p q b} (h : InSafe s) : InSafe (ethSend p q b s) := ite_safe (offer_safe h) h

theorem ethLinkChange_safe {p up} (h : InSafe s) : InSafe (ethLinkChange p up s) :=
  ite_safe h (ite_safe (ite_safe h (modEth_safe h)) (ite_safe (raise_safe (modEth_safe h)) h))

/-! ### The Stay links (spec/15) -/

theorem modLink_safe {k f} (h : InSafe s) : InSafe (modLink k f s) := h.upd rfl

theorem linkCount_safe {k c n} (h : InSafe s) : InSafe (linkCount k c n s) := modLink_safe h

theorem frameFlit_safe {k b} (h : InSafe s) : InSafe (frameFlit k b s) :=
  ite_safe (modLink_safe (emit_safe h)) (emit_safe (modLink_safe (emit_safe h)))

theorem sendFlit_safe {k kind q vc sop eop b n} (h : InSafe s) : InSafe (sendFlit k kind q vc sop eop b n s) :=
  frameFlit_safe (modLink_safe h)

theorem sendIdle_safe {k} : ∀ {n nack} {s : State}, InSafe s → InSafe (sendIdle k nack n s)
  | 0, _, _, h => h
  | _ + 1, _, _, h => ite_safe (sendIdle_safe (sendFlit_safe h)) (sendFlit_safe h)

theorem ackNow_safe {k} (h : InSafe s) : InSafe (ackNow k s) := sendIdle_safe h

theorem sendCtl_safe {k t} (h : InSafe s) : InSafe (sendCtl k t s) := sendFlit_safe h

theorem grantCredits_safe {k} (h : InSafe s) : InSafe (grantCredits k s) := ite_safe (ackNow_safe (modLink_safe h)) h

theorem cutPackets_safe {k} (h : InSafe s) : InSafe (cutPackets k s) :=
  foldl_safe (fun _ h => ite_safe (modQ_safe h) h) (modLink_safe (linkCount_safe h))

theorem linkUp_safe {k} (h : InSafe s) : InSafe (linkUp k s) :=
  grantCredits_safe (ite_safe (modLink_safe h) (raise_safe (modLink_safe h)))

theorem retrain_safe {k} (h : InSafe s) : InSafe (retrain k s) := modLink_safe (raise_safe (linkCount_safe (cutPackets_safe h)))

theorem linkFail_safe {k} (h : InSafe s) : InSafe (linkFail k s) := retrain_safe (linkCount_safe (raise_safe h))

theorem startResync_safe {k} (h : InSafe s) : InSafe (startResync k s) :=
  ite_safe (sendCtl_safe (linkCount_safe (modLink_safe (cutPackets_safe h)))) h

theorem linksDown_safe (h : InSafe s) : InSafe (linksDown s) := foldl_safe (fun _ h => modLink_safe (cutPackets_safe h)) h

theorem trainDown_safe {k} (h : InSafe s) : InSafe (trainDown k s) := ite_safe (modLink_safe h) h

theorem retryInterval_safe {k} (h : InSafe s) : InSafe (retryInterval k s) :=
  ite_safe h (ite_safe (modLink_safe h) (trainDown_safe h))

theorem rxInit_safe {k a b c} (h : InSafe s) : InSafe (rxInit k a b c s) :=
  ite_safe h (ite_safe (sendCtl_safe h) (ite_safe h (ite_safe (modLink_safe h)
    (ite_safe (linkUp_safe (sendCtl_safe (modLink_safe h))) (raise_safe (modLink_safe (modLink_safe h)))))))

theorem phaseDone_safe {k inv} (h : InSafe s) : InSafe (phaseDone k inv s) := by
  refine ite_safe h ?_
  dsimp only
  have h1 := modLink_safe (k := k) (f := fun l => { l with rxInv := l.rxInv ||| inv }) h
  split
  · exact modLink_safe h1
  · exact modLink_safe h1
  · exact sendCtl_safe (modLink_safe h1)
  · exact ite_safe (linkUp_safe h1) h1

theorem phaseTimeout_safe {k} (h : InSafe s) : InSafe (phaseTimeout k s) := ite_safe h (modLink_safe h)

theorem lockLost_safe {k} (h : InSafe s) : InSafe (lockLost k s) := ite_safe h (retrain_safe (linkCount_safe h))

theorem rxResync_safe {k} (h : InSafe s) : InSafe (rxResync k s) := by
  refine ite_safe h ?_
  split
  · exact linkUp_safe (sendCtl_safe (linkCount_safe (modLink_safe (cutPackets_safe h))))
  · exact sendCtl_safe h
  · exact h

theorem rxResyncAck_safe {k} (h : InSafe s) : InSafe (rxResyncAck k s) := ite_safe h (linkUp_safe h)

theorem resyncTimeout_safe {k} (h : InSafe s) : InSafe (resyncTimeout k s) := ite_safe h (linkFail_safe h)

theorem ctlRepeat_safe {k} (h : InSafe s) : InSafe (ctlRepeat k s) := by
  refine ite_safe h ?_
  split
  · exact ite_safe (sendCtl_safe h) h
  · exact sendCtl_safe h
  · exact sendCtl_safe h
  · exact h

theorem startReplay_safe {k} (h : InSafe s) : InSafe (startReplay k s) :=
  ite_safe h (ite_safe (linkFail_safe h) (foldl_safe (fun _ h => sendFlit_safe h)
    (raise_if_safe (raise_safe (linkCount_safe (modLink_safe h))))))

theorem budgetExpiry_safe {k} (h : InSafe s) : InSafe (budgetExpiry k s) := ite_safe h (linkFail_safe h)

theorem ackReplay_safe {k q} (h : InSafe s) : InSafe (ackReplay k q s) := by
  unfold ackReplay
  dsimp only
  split
  · exact modLink_safe h
  · exact h

theorem sendNack_safe {k} (h : InSafe s) : InSafe (sendNack k s) := ite_safe h (sendIdle_safe (modLink_safe h))

theorem noRoute_safe {k vc bs} (h : InSafe s) : InSafe (noRoute k vc bs s) := emit_safe (linkCount_safe h)

theorem staySend_safe {d vc p f b sys} (h : InSafe s) : InSafe (staySend d vc p f b sys s) := by
  unfold staySend
  dsimp only
  split
  · exact noRoute_safe h
  · exact offer_safe h

theorem holdSweep_safe (h : InSafe s) : InSafe (holdSweep s) :=
  ite_safe (modTrim_safe (foldl_safe (fun _ h => noRoute_safe h) h)) h

theorem sendLinkMap_safe (h : InSafe s) : InSafe (sendLinkMap s) := by
  unfold sendLinkMap
  dsimp only
  split
  · exact h.upd rfl
  · exact foldl_safe (fun _ h => offer_safe h) (h.upd rfl)

theorem linkMapSweep_safe (h : InSafe s) : InSafe (linkMapSweep s) := ite_safe h (sendLinkMap_safe h)

theorem rxLinkMap_safe {src d} (h : InSafe s) : InSafe (rxLinkMap src d s) := ite_safe h (h.upd rfl)

theorem packetEnd_safe {k vc bs} (h : InSafe s) : InSafe (packetEnd k vc bs s).2 := by
  unfold packetEnd
  dsimp only
  split
  · exact linkCount_safe (modLink_safe h)
  · exact ite_snd_safe (modLink_safe h) (linkCount_safe (modLink_safe h))

theorem dataFlit_safe {k vc sop eop b} (h : InSafe s) : InSafe (dataFlit k vc sop eop b s).2 := by
  unfold dataFlit
  dsimp only
  split
  · exact linkCount_safe (modLink_safe h)
  · exact ite_snd_safe (packetEnd_safe (linkCount_safe (modLink_safe h))) (modLink_safe (linkCount_safe (modLink_safe h)))
  · exact ite_snd_safe (packetEnd_safe h) (modLink_safe h)
  · exact ite_snd_safe (linkCount_safe (modLink_safe h)) (ite_snd_safe (packetEnd_safe h) (modLink_safe h))

theorem rxCtl_safe {k b} (h : InSafe s) : InSafe (rxCtl k b s) :=
  ite_safe (rxInit_safe h) (ite_safe (rxResync_safe h) (ite_safe (rxResyncAck_safe h) h))

theorem fecCount_safe {k a b c} (h : InSafe s) : InSafe (fecCount k a b c s) :=
  raise_if_safe (modLink_safe (linkCount_safe (linkCount_safe h)))

theorem flitRx_safe {k b bad x y z} (h : InSafe s) : InSafe (flitRx k b bad x y z s).2 := by
  unfold flitRx
  extract_lets s1 up sBad hd kind body s2 s3 s4 s5
  have h1 : InSafe s1 := fecCount_safe h
  have hBad : InSafe sBad := ite_safe h1 (linkCount_safe h1)
  have h2 : InSafe s2 := ite_safe (ackReplay_safe h1) h1
  have h3 : InSafe s3 := modLink_safe h2
  have h4 : InSafe s4 := ite_safe (startReplay_safe h3) h3
  have h5 : InSafe s5 := linkCount_safe (modLink_safe h4)
  clear_value s1 sBad s2 s3 s4 s5
  refine ite_snd_safe h (ite_snd_safe (ite_safe (sendNack_safe hBad) hBad) (ite_snd_safe (startResync_safe (linkCount_safe h1))
    (ite_snd_safe (ite_safe (rxCtl_safe h1) h1) (ite_snd_safe (rxCtl_safe h4) (ite_snd_safe h4 (ite_snd_safe (sendNack_safe h4) ?data))))))
  case data =>
    split
    next e => exact ackNow_safe ((dataFlit_safe h5).of_snd e)

end
end Sys2Proof.Machine
end

section
/-! PROOFS. SAFE holds through Shroud, the drives and Furl (R618). -/

namespace Sys2Proof.Machine

section
variable {s : State}

/-! ### Objects -/

theorem modModel_safe {i f} (h : InSafe s) : InSafe (modModel i f s) := modSrv_safe h

theorem dropModel_safe {i} (h : InSafe s) : InSafe (dropModel i s) := modModel_safe h

theorem modCtx_safe {i f} (h : InSafe s) : InSafe (modCtx i f s) := modSrv_safe h

theorem modBatch_safe {i f} (h : InSafe s) : InSafe (modBatch i f s) := modSrv_safe h

theorem modBlk_safe {c i f} (h : InSafe s) : InSafe (modBlk c i f s) := modCtx_safe h

theorem modReq_safe {c f} (h : InSafe s) : InSafe (modReq c f s) := modCtx_safe h

theorem setPriv_safe {c i n} (h : InSafe s) : InSafe (setPriv c i n s) := modBlk_safe h

theorem dropBatch_safe {b} (h : InSafe s) : InSafe (dropBatch b s) := by
  refine modBatch_safe (foldl_safe (fun _ h => modCtx_safe h) ?cur)
  case cur =>
    split
    · exact stopDispatch_safe h
    · exact h

theorem dropBatches_safe {l} (h : InSafe s) : InSafe (List.foldl (fun s k => dropBatch k s) s l) :=
  foldl_safe (fun _ h => dropBatch_safe h) h

theorem rerunStep_safe {b} (h : InSafe s) : InSafe (rerunStep b s) := by
  refine modBatch_safe ?cur
  case cur =>
    split
    · exact stopDispatch_safe h
    · exact h

theorem dropPages_safe {p n} (h : InSafe s) : InSafe (dropPages p n s) := foldl_safe (fun _ h => dropPage_safe h) h

theorem dropRegion_safe {i} (h : InSafe s) : InSafe (dropRegion i s) := foldl_safe (fun _ h => dropPage_safe h) (modSrv_safe h)

/-! ### Shroud (spec/16) -/

theorem modShr_safe {f} (h : InSafe s) : InSafe (modShr f s) := h.upd rfl

theorem modConn_safe {i f} (h : InSafe s) : InSafe (modConn i f s) := modShr_safe h

theorem connCount_safe {i k} (h : InSafe s) : InSafe (connCount i k s) := modConn_safe h

theorem sendPkt_safe {i t g} (h : InSafe s) : InSafe (sendPkt i t g s) := by
  unfold sendPkt
  extract_lets
  split
  · exact staySend_safe (modConn_safe h)
  · exact ethSend_safe (modConn_safe h)

theorem sendPlain_safe {i t} (h : InSafe s) : InSafe (sendPlain i t s) := sendPkt_safe h

theorem loadAnswer_safe {r e} (h : InSafe s) : InSafe (loadAnswer r e s) := modShr_safe h

theorem copyAnswer_safe {k e} (h : InSafe s) : InSafe (copyAnswer k e s) := h.upd rfl

theorem messageAnswer_safe {k e} (h : InSafe s) : InSafe (messageAnswer k e s) := by
  unfold messageAnswer
  split
  · exact ite_safe h (h.upd rfl)
  · exact h

theorem tellClient_safe {i o e n} (h : InSafe s) : InSafe (tellClient i o e n s) := by
  unfold tellClient
  split
  · exact emit_safe h
  · exact halAnswer_safe h
  · exact loadAnswer_safe h
  · exact copyAnswer_safe h
  · exact messageAnswer_safe h

theorem opEnd_safe {i o e n} (h : InSafe s) : InSafe (opEnd i o e n s) := by
  unfold opEnd
  extract_lets s1 s2 s3 s4
  have h3 : InSafe s3 := raise_if_safe (connCount_safe (modConn_safe h))
  refine tellClient_safe ?_
  subst s4
  split
  · exact ite_safe (signalGlobal_safe h3) h3
  · exact h3

theorem opsEnd_safe {i e} (h : InSafe s) : InSafe (opsEnd i e s) := foldl_safe (fun _ h => opEnd_safe h) h

theorem connFree_safe {i} (h : InSafe s) : InSafe (connFree i s) := by
  unfold connFree
  extract_lets t c s1 src s2 s3
  have h2 : InSafe s2 := (modShr_safe (opsEnd_safe h) : InSafe s1).upd rfl
  have h3 : InSafe s3 := by
    refine foldl_safe (fun m h => ?_) h2
    split
    · exact ite_safe (finish_safe h) h
    · exact h
  split
  · exact finish_safe h3
  · exact h3

theorem closeStep_safe {i} (h : InSafe s) : InSafe (closeStep i s) := ite_safe (sendPlain_safe (modConn_safe h)) h

theorem opData_safe {p} (h : InSafe s) : InSafe (opData p s).2 := ite_snd_safe (memRead_safe h) h

theorem opLeave_safe {i o} (h : InSafe s) : InSafe (opLeave i o s) := by
  refine ite_safe (opEnd_safe h) ?_
  split
  next e => exact opEnd_safe ((opData_safe h).of_snd e)
  next e => exact modConn_safe ((opData_safe h).of_snd e)

theorem release_safe {i} (h : InSafe s) : InSafe (release i s) :=
  ite_safe (closeStep_safe (foldl_safe (fun _ h => opLeave_safe h) h)) h

theorem opPostAs_safe {cl i p} (h : InSafe s) : InSafe (opPostAs cl i p s) :=
  have h1 := connCount_safe h
  ite_safe h (ite_safe (opEnd_safe h1) (ite_safe (opEnd_safe h1) (ite_safe (opEnd_safe h1) (ite_safe (opEnd_safe h1)
    (release_safe (modConn_safe h1))))))

theorem clientPost_safe {cl i p} (h : InSafe s) : InSafe (clientPost cl i p s) :=
  ite_safe (tellClient_safe h) (opPostAs_safe (modShr_safe h))

theorem postReads_safe {cl i} : ∀ {k a loc n} {s : State}, InSafe s → InSafe (postReads cl i a loc n k s)
  | 0, _, _, _, _, h => h
  | k + 1, _, _, _, _, h => postReads_safe (k := k) (clientPost_safe h)

theorem sysMessage_safe {k d b} (h : InSafe s) : InSafe (sysMessage k d b s) := by
  unfold sysMessage
  split
  · exact clientPost_safe h
  · exact messageAnswer_safe h

theorem dropTriggered_safe {i} (h : InSafe s) : InSafe (dropTriggered i s) := ite_safe (foldl_safe (fun _ h => opEnd_safe h) h) h

theorem connClose_safe {i abort r} (h : InSafe s) : InSafe (connClose i abort r s) :=
  ite_safe (connFree_safe (modConn_safe h))
    (closeStep_safe (ite_safe (opsEnd_safe (modConn_safe (modConn_safe h))) (dropTriggered_safe (modConn_safe (modConn_safe h)))))

/-! ### The drives (spec/18) -/

theorem modDrive_safe {d f} (h : InSafe s) : InSafe (modDrive d f s) := h.upd rfl

theorem nvSubmit_safe {d k cl a n l} (h : InSafe s) : InSafe (nvSubmit d k cl a n l s) :=
  modDrive_safe (foldl_safe (fun _ h => emit_safe h) h)

theorem takeRun_safe {d k a n} (h : InSafe s) : InSafe (takeRun d k a n s) := modDrive_safe h

theorem dropRun_safe {d k} (h : InSafe s) : InSafe (dropRun d k s) := by
  unfold dropRun
  split
  · exact ite_safe (nvSubmit_safe (modDrive_safe h)) (modDrive_safe h)
  · exact h

theorem dropClient_safe {cl} (h : InSafe s) : InSafe (dropClient cl s) := modDrive_safe (modDrive_safe h)

/-! ### Furl: the home (spec/14) -/

theorem modFurl_safe {f} (h : InSafe s) : InSafe (modFurl f s) := h.upd rfl

theorem countFurl_safe {i} (h : InSafe s) : InSafe (countFurl i s) := modFurl_safe h

theorem furlSend_safe {d m} (h : InSafe s) : InSafe (furlSend d m s) :=
  ite_safe (modFurl_safe h) (ite_safe (sysMessage_safe (emit_safe h)) h)

theorem modDir_safe {e f} (h : InSafe s) : InSafe (modDir e f s) := modFurl_safe h

theorem zeroRange_safe {a n} (h : InSafe s) : InSafe (zeroRange a n s) := modMem_safe h

theorem rekey_safe {p k} (h : InSafe s) : InSafe (rekey p k s) := modMem_safe h

theorem takePage_safe {u t z p} (h : InSafe s) : InSafe (takePage u t z p s) :=
  modPageAttr_safe (ite_safe (zeroRange_safe h) (ite_safe h (rekey_safe h)))

theorem takePages_safe {u t z p n} (h : InSafe s) : InSafe (takePages u t z p n s) := foldl_safe (fun _ h => takePage_safe h) h

/-- The definition is unfolded as a function: at its arguments the kernel would evaluate the search for free pages. -/
theorem reserveSlot_safe {a b c} (h : InSafe s) : InSafe (reserveSlot a b c s).2 := by
  generalize hp : reserveSlot a b c s = p
  have e : reserveSlot = reserveSlot := rfl
  conv at e => rhs; delta reserveSlot
  rw [e] at hp
  dsimp only at hp
  split at hp
  · exact hp ▸ modFurl_safe (takePages_safe h)
  · exact hp ▸ h

theorem freeSlot_safe {p} (h : InSafe s) : InSafe (freeSlot p s) := ite_safe (modFurl_safe (dropPages_safe h)) h

theorem modSlot_safe {p f} (h : InSafe s) : InSafe (modSlot p f s) := modFurl_safe h

theorem modSpilled_safe {k f} (h : InSafe s) : InSafe (modSpilled k f s) := modFurl_safe h

theorem dropSpilled_safe {k} (h : InSafe s) : InSafe (dropSpilled k s) := ite_safe (dropRun_safe (modFurl_safe h)) h

theorem dropWaitersOf_safe {e} (h : InSafe s) : InSafe (dropWaitersOf e s) := modFurl_safe h

theorem freeEntry_safe {e} (h : InSafe s) : InSafe (freeEntry e s) := furlSend_safe (dropWaitersOf_safe (modDir_safe h))

theorem passClaim_safe {e} (h : InSafe s) : InSafe (passClaim e s) := by
  unfold passClaim
  dsimp only
  split
  · exact furlSend_safe (modDir_safe (countFurl_safe (modFurl_safe h)))
  · exact freeEntry_safe h

theorem useSlot_safe {k} (h : InSafe s) : InSafe (useSlot k s) := by
  unfold useSlot
  split
  · exact modSlot_safe h
  · exact modSpilled_safe h

theorem sayAnswer_safe {a k c d n} (h : InSafe s) : InSafe (sayAnswer a k c d n s) := furlSend_safe h

theorem homeLookup_safe {src key parent tag pdom toks ctx off mode} (h : InSafe s) :
    InSafe (homeLookup src key parent tag pdom toks ctx off mode s) := by
  unfold homeLookup
  split
  · dsimp only
    have hs {c d n} : InSafe (sayAnswer src key c d n s) := sayAnswer_safe h
    have hu {e f} : InSafe (useSlot key (modDir e f s)) := useSlot_safe (modDir_safe h)
    exact ite_safe (ite_safe (sayAnswer_safe hu) hs) (ite_safe hs (ite_safe hs (ite_safe (sayAnswer_safe hu) (ite_safe hs
      (ite_safe hs (ite_safe hs (sayAnswer_safe (modFurl_safe (modDir_safe h)))))))))
  · refine ite_safe (sayAnswer_safe h) ?_
    dsimp only
    split
    · exact sayAnswer_safe (modDir_safe h)
    · split
      · exact sayAnswer_safe (modDir_safe (freeEntry_safe h))
      · exact sayAnswer_safe h

theorem clearHolder_safe {e d} (h : InSafe s) : InSafe (clearHolder e d s) := ite_safe (furlSend_safe (modDir_safe h)) (modDir_safe h)

theorem homeUnhold_safe {d k} (h : InSafe s) : InSafe (homeUnhold d k s) := by
  unfold homeUnhold
  split
  · exact clearHolder_safe h
  · exact h

theorem homeAbandon_safe {d k c} (h : InSafe s) : InSafe (homeAbandon d k c s) := by
  unfold homeAbandon
  split
  · extract_lets d' s1
    have h1 : InSafe s1 := ite_safe (passClaim_safe h) (modFurl_safe h)
    exact ite_safe (clearHolder_safe h1) h1
  · exact h

theorem homeRenew_safe {d ks} (h : InSafe s) : InSafe (homeRenew d ks s) := by
  refine foldl_safe (fun _ h => ?_) h
  split
  · exact modDir_safe h
  · exact h

theorem sendEach_safe {m ds} (h : InSafe s) : InSafe (sendEach m ds s) := foldl_safe (fun _ h => furlSend_safe h) h

theorem homePublish_safe {d k} (h : InSafe s) : InSafe (homePublish d k s) := by
  unfold homePublish
  split
  · extract_lets d' ws s1 s2
    have h2 : InSafe s2 := sendEach_safe (dropWaitersOf_safe (modDir_safe h))
    exact ite_safe (ite_safe h2 (furlSend_safe h2)) h
  · exact h

theorem homeChild_safe {p k} (h : InSafe s) : InSafe (homeChild p k s) := by
  unfold homeChild
  split
  · exact modDir_safe h
  · exact h

theorem homeEvict_safe {d k op} (h : InSafe s) : InSafe (homeEvict d k op s) := by
  unfold homeEvict
  split
  · extract_lets d' ws s1 s2
    have h2 : InSafe s2 := sendEach_safe (dropWaitersOf_safe (modDir_safe h))
    exact ite_safe (ite_safe (ite_safe (furlSend_safe h2) h2) h) (ite_safe (furlSend_safe (modDir_safe h)) (furlSend_safe h))
  · exact furlSend_safe h

theorem homeRestore_safe {d k} (h : InSafe s) : InSafe (homeRestore d k s) := by
  unfold homeRestore
  split
  · exact ite_safe (furlSend_safe (modDir_safe h)) (ite_safe (modDir_safe h) (ite_safe (furlSend_safe h) (furlSend_safe h)))
  · exact furlSend_safe h

theorem homeMoved_safe {d k n l} (h : InSafe s) : InSafe (homeMoved d k n l s) := by
  unfold homeMoved
  split
  · have hm {e f} : InSafe (modDir e f s) := modDir_safe h
    exact ite_safe (ite_safe (sendEach_safe hm) (ite_safe (ite_safe (furlSend_safe hm) (furlSend_safe hm)) hm))
      (ite_safe hm (ite_safe (sendEach_safe hm) h))
  · exact h

/-! ### Furl: the owner -/

theorem endEviction_safe (h : InSafe s) : InSafe (endEviction s) := modFurl_safe h

theorem evictStep_safe (h : InSafe s) : InSafe (evictStep s).2 := by
  refine ite_snd_safe h (ite_snd_safe (endEviction_safe h) ?_)
  split
  · exact endEviction_safe h
  · extract_lets n room mark ask
    have hm : InSafe (mark s) := modSlot_safe h
    have ha {op} : InSafe (ask op).2 := furlSend_safe hm
    refine ite_snd_safe (ite_safe (freeSlot_safe h) hm) (ite_snd_safe ha (ite_snd_safe ha ?_))
    split
    · exact furlSend_safe (modSpilled_safe h)
    · exact ha

theorem evictRun_safe : ∀ {n} {s : State}, InSafe s → InSafe (evictRun n s)
  | 0, _, h => h
  | n + 1, _, h => by
    unfold evictRun
    split
    next e => exact evictRun_safe ((evictStep_safe h).of_snd e)
    next e => exact (evictStep_safe h).of_snd e

theorem evictNext_safe (h : InSafe s) : InSafe (evictNext s) := evictRun_safe h

theorem reportLost_safe {k} (h : InSafe s) : InSafe (reportLost k s) := furlSend_safe h

theorem dropCopies_safe {k} (h : InSafe s) : InSafe (dropCopies k s) := by
  refine dropSpilled_safe ?slot
  case slot =>
    split
    · exact freeSlot_safe h
    · exact h

theorem startSpill_safe {k} (h : InSafe s) : InSafe (startSpill k s) := by
  unfold startSpill
  split
  · exact h
  · dsimp only
    split
    next e => exact evictNext_safe (reportLost_safe (modSlot_safe ((memRead_safe h).of_snd e)))
    next e =>
      have h1 := (memRead_safe h).of_snd e
      split
      · exact nvSubmit_safe (takeRun_safe (modSlot_safe h1))
      · exact evictNext_safe (furlSend_safe h1)

theorem ownerAck_safe {d k op g} (h : InSafe s) : InSafe (ownerAck d k op g s) := by
  refine ite_safe (dropCopies_safe h) (ite_safe (ite_safe ?freed (evictNext_safe (dropSpilled_safe ?kept)))
    (ite_safe (evictNext_safe h) (ite_safe (startSpill_safe h) (evictNext_safe (furlSend_safe (countFurl_safe (dropCopies_safe h)))))))
  case freed =>
    split
    · exact evictNext_safe (freeSlot_safe h)
    · exact h
  case kept =>
    split
    · exact modSlot_safe h
    · exact h

theorem restoreTold_safe {k o m e a} (h : InSafe s) : InSafe (restoreTold k o m e a s) := ite_safe (furlSend_safe h) (furlSend_safe h)

theorem restoreFailed_safe {k} (h : InSafe s) : InSafe (restoreFailed k s) := by
  refine restoreTold_safe (raise_safe (modSpilled_safe ?slot))
  case slot =>
    split
    · exact freeSlot_safe h
    · exact h

theorem ownerRestore_safe {k} (h : InSafe s) : InSafe (ownerRestore k s) := by
  refine ite_safe ?gone (ite_safe h (ite_safe (restoreFailed_safe h) ?read))
  case gone =>
    split
    · exact furlSend_safe h
    · exact ite_safe (reportLost_safe h) (furlSend_safe h)
  case read =>
    split
    next e => exact nvSubmit_safe (modSpilled_safe ((reserveSlot_safe h).of_snd e))
    next e => exact restoreFailed_safe ((reserveSlot_safe h).of_snd e)

theorem ownerOrphan_safe {d k hold} (h : InSafe s) : InSafe (ownerOrphan d k hold s) := by
  unfold ownerOrphan
  split
  · exact ite_safe (freeSlot_safe (modSlot_safe h)) (modSlot_safe h)
  · exact ite_safe (ite_safe (dropSpilled_safe (modSpilled_safe h)) (modSpilled_safe h)) h

/-! ### Furl: the requester -/

theorem holdRef_safe {k} (h : InSafe s) : InSafe (holdRef k s) := modFurl_safe h

theorem freeReadyCleat_safe {k} (h : InSafe s) : InSafe (freeReadyCleat k s) := by
  unfold freeReadyCleat
  split
  · exact h
  · exact modFurl_safe (modCleat_safe h)

theorem sendUnhold_safe {k} (h : InSafe s) : InSafe (sendUnhold k s) := by
  unfold sendUnhold
  extract_lets s1
  have h1 : InSafe s1 := by
    subst s1
    split
    · exact furlSend_safe (modFurl_safe h)
    · exact h
  exact ite_safe (modFurl_safe h1) (furlSend_safe h1)

theorem unholdIfNone_safe {k} (h : InSafe s) : InSafe (unholdIfNone k s) := ite_safe (sendUnhold_safe h) h

theorem payOwed_safe {k} (h : InSafe s) : InSafe (payOwed k s) := ite_safe (unholdIfNone_safe (modFurl_safe h)) h

theorem dropRef_safe {k} (h : InSafe s) : InSafe (dropRef k s) := by
  unfold dropRef
  split
  · exact h
  · exact sendUnhold_safe (freeReadyCleat_safe (modFurl_safe h))
  · exact modFurl_safe h

theorem sendAbandon_safe {k c} (h : InSafe s) : InSafe (sendAbandon k c s) := furlSend_safe (countFurl_safe h)

theorem readyCleat_safe {k} (h : InSafe s) : InSafe (readyCleat k s).2 := by
  unfold readyCleat
  split
  · exact h
  · split
    · exact h
    · exact modFurl_safe (modCleat_safe h)

theorem signalReady_safe {k} (h : InSafe s) : InSafe (signalReady k s) := by
  unfold signalReady
  split
  · exact h
  · exact signalGlobal_safe h

theorem privatise_safe {c i} (h : InSafe s) : InSafe (privatise c i s) := by
  refine ite_safe ?_ (setPriv_safe h)
  split
  next e => exact setPriv_safe (memWrite_safe ((memRead_safe h).of_snd e))
  next e => exact setPriv_safe ((memRead_safe h).of_snd e)

theorem unmap_safe {c i} (h : InSafe s) : InSafe (unmap c i s) := dropBatches_safe (modReq_safe (modBlk_safe (dropRef_safe h)))

theorem sendLookup_safe {c i k p ts cl m} (h : InSafe s) : InSafe (sendLookup c i k p ts cl m s) := by
  unfold sendLookup
  extract_lets x md s0
  have h0 : InSafe s0 := countFurl_safe h
  refine ite_safe (countFurl_safe h0) ?_
  split
  next e =>
    have h1 := (ite_snd_safe (reserveSlot_safe h0) h0).of_snd e
    exact furlSend_safe (ite_safe (modFurl_safe h1) (modBlk_safe (modFurl_safe h1)))

theorem compareChild_safe {c i k} (h : InSafe s) : InSafe (compareChild c i k s) := by
  unfold compareChild
  dsimp only
  split
  · exact ite_safe (sendLookup_safe h) h
  · exact h

theorem publishBlk_safe {c i} (h : InSafe s) : InSafe (publishBlk c i s) :=
  modReq_safe (modBlk_safe (furlSend_safe (countFurl_safe h)))

theorem abandonBlk_safe {c i} (h : InSafe s) : InSafe (abandonBlk c i s) := dropRef_safe (sendAbandon_safe (privatise_safe h))

theorem publishPass_safe {c} : ∀ {n i ok} {s : State}, InSafe s → InSafe (publishPass c n i ok s)
  | 0, _, _, _, h => h
  | _ + 1, _, _, _, h => by
    unfold publishPass
    dsimp only
    split
    · exact h
    · split
      · exact publishPass_safe h
      · exact publishPass_safe h
      · exact ite_safe h (ite_safe (publishPass_safe (publishBlk_safe h)) (publishPass_safe (abandonBlk_safe h)))
      · exact h

theorem publishAll_safe {c} (h : InSafe s) : InSafe (publishAll c s) := publishPass_safe h

theorem countAnswer_safe {c} (h : InSafe s) : InSafe (countAnswer c s) := raise_if_safe (countFurl_safe h)

theorem answerLookup_safe {a r} (h : InSafe s) : InSafe (answerLookup a r s) := by
  unfold answerLookup
  extract_lets c i s1 s2
  have h1 : InSafe s1 := modReq_safe (modBlk_safe (holdRef_safe h))
  refine ite_safe (compareChild_safe (ite_safe (furlSend_safe (readyCleat_safe h1)) h1))
    (ite_safe ?wait (ite_safe (modBlk_safe (holdRef_safe h)) (setPriv_safe h)))
  case wait =>
    split
    next e => exact modBlk_safe (holdRef_safe ((readyCleat_safe h).of_snd e))
    next e => exact unholdIfNone_safe (sendAbandon_safe (setPriv_safe ((readyCleat_safe h).of_snd e)))

theorem cowWrite_safe {c i n o bs} (h : InSafe s) : InSafe (cowWrite c i n o bs s) := foldl_safe (fun _ h => ite_safe (memWrite_safe h) h) h

theorem cowEnd_safe {y ok} (h : InSafe s) : InSafe (cowEnd y ok s) :=
  dropRef_safe (ite_safe (countFurl_safe (modCtx_safe (setPriv_safe (modFurl_safe h)))) (setPriv_safe (modFurl_safe h)))

theorem cowStart_safe {y d a} (h : InSafe s) : InSafe (cowStart y d a s) := by
  refine ite_safe ?here ?away
  case here =>
    split
    next e => exact cowEnd_safe (cowWrite_safe ((memRead_safe h).of_snd e))
    next e => exact cowEnd_safe ((memRead_safe h).of_snd e)
  case away =>
    split
    · exact cowEnd_safe h
    · exact postReads_safe (modFurl_safe h)

theorem cowDrop_safe {f} (h : InSafe s) : InSafe (cowDrop f s) := foldl_safe (fun _ h => cowEnd_safe h) h

theorem answerCompare_safe {a r} (h : InSafe s) : InSafe (answerCompare a r s) :=
  ite_safe (ite_safe (furlSend_safe (holdRef_safe (modFurl_safe h))) (cowStart_safe (holdRef_safe (modFurl_safe h))))
    (ite_safe (unholdIfNone_safe (setPriv_safe h)) (setPriv_safe h))

theorem answerDecode_safe {a r} (h : InSafe s) : InSafe (answerDecode a r s) := by
  unfold answerDecode
  extract_lets x giveUp
  have hg {t} (h : InSafe t) : InSafe (giveUp t) := unholdIfNone_safe (sendAbandon_safe h)
  refine ite_safe (ite_safe (hg h) ?copy) (ite_safe (hg h) (ite_safe (unholdIfNone_safe h) h))
  case copy =>
    split
    next e => exact hg ((memRead_safe h).of_snd e)
    next e => exact publishBlk_safe (modBlk_safe (holdRef_safe (memWrite_safe ((memRead_safe h).of_snd e))))

theorem answerProbe_safe {a r} (h : InSafe s) : InSafe (answerProbe a r s) := modFurl_safe h

theorem reqAnswer_safe {k r} (h : InSafe s) : InSafe (reqAnswer k r s) := by
  unfold reqAnswer
  split
  · exact h
  · extract_lets s1 s2 s3
    have h2 : InSafe s2 := ite_safe (modFurl_safe h) (countAnswer_safe (modFurl_safe h))
    have h3 : InSafe s3 := ite_safe h2 (ite_safe (modSlot_safe h2) (freeSlot_safe h2))
    exact payOwed_safe (ite_safe (answerProbe_safe h3) (ite_safe (ite_safe (unholdIfNone_safe h3) h3)
      (ite_safe (answerCompare_safe h3) (ite_safe (answerDecode_safe h3) (answerLookup_safe h3)))))

theorem answerFilter_safe {k r} (h : InSafe s) : InSafe (answerFilter k r s).2 := by
  refine ite_snd_safe ?_ h
  split
  · exact unholdIfNone_safe (furlSend_safe h)
  · exact h

theorem notifyReady_safe {k d a} (h : InSafe s) : InSafe (notifyReady k d a s) := by
  refine foldl_safe (fun _ h => publishAll_safe h) (foldl_safe (fun _ h => cowStart_safe h) (signalReady_safe ?_))
  exact foldl_safe (fun _ h => modBlk_safe h) (foldl_safe (fun _ h => modReq_safe (modBlk_safe h)) h)

theorem notifyClaim_safe {k d a c} (h : InSafe s) : InSafe (notifyClaim k d a c s) := by
  unfold notifyClaim
  extract_lets c' x s1 m
  have h1 : InSafe s1 := dropBatches_safe h
  split
  · exact sendAbandon_safe h
  · refine ite_safe (sendAbandon_safe h) ?_
    extract_lets build
    have hb {d a t} (h : InSafe t) : InSafe (build d a t) := modBlk_safe h
    refine ite_safe (hb h1) ?_
    split
    next e => exact furlSend_safe (hb (modSlot_safe ((reserveSlot_safe h1).of_snd e)))
    next e => exact dropRef_safe (sendAbandon_safe (setPriv_safe ((reserveSlot_safe h1).of_snd e)))

theorem notifyRelocate_safe {k d a} (h : InSafe s) : InSafe (notifyRelocate k d a s) :=
  foldl_safe (fun _ h => rerunStep_safe h) (foldl_safe (fun _ h => modBlk_safe h) h)

theorem dropWait_safe {c i} (h : InSafe s) : InSafe (dropWait c i s) := dropBatches_safe (dropRef_safe (setPriv_safe h))

theorem notifyFailed_safe {k} (h : InSafe s) : InSafe (notifyFailed k s) :=
  cowDrop_safe (foldl_safe (fun _ h => dropWait_safe h) (foldl_safe (fun _ h => ite_safe (unmap_safe h) h) h))

theorem reqNotify_safe {k e d a c} (h : InSafe s) : InSafe (reqNotify k e d a c s) :=
  ite_safe (notifyReady_safe h) (ite_safe (notifyClaim_safe h) (ite_safe (notifyRelocate_safe h) (notifyFailed_safe h)))

theorem furlDeliver_safe {d m} (h : InSafe s) : InSafe (furlDeliver d m s) := by
  unfold furlDeliver
  split
  · exact homeLookup_safe h
  · exact reqAnswer_safe (answerFilter_safe h)
  · exact homeUnhold_safe h
  · exact homeAbandon_safe h
  · exact homeRenew_safe h
  · exact homePublish_safe h
  · exact homeChild_safe h
  · exact reqNotify_safe h
  · exact homeEvict_safe h
  · exact ownerAck_safe h
  · exact homeRestore_safe h
  · exact ownerRestore_safe h
  · exact homeMoved_safe h
  · exact ownerOrphan_safe h

theorem furlRun_safe : ∀ {n} {s : State}, InSafe s → InSafe (furlRun n s)
  | 0, _, h => h
  | _ + 1, _, h => by
    unfold furlRun
    split
    · exact h
    · exact furlRun_safe (furlDeliver_safe (modFurl_safe h))

theorem furlSettle_safe (h : InSafe s) : InSafe (furlSettle s) := furlRun_safe h

end
end Sys2Proof.Machine
end

section
/-! PROOFS. SAFE holds through Reef, the end of sessions, functions and resets, the clocks and the management buses (R618). -/

namespace Sys2Proof.Machine

section
variable {s : State}

/-! ### Reef (spec/22) -/

theorem modSnap_safe {i f} (h : InSafe s) : InSafe (modSnap i f s) := modReef_safe h

theorem reefSend_safe {d m} (h : InSafe s) : InSafe (reefSend d m s) := ite_safe (sysMessage_safe (emit_safe h)) h

theorem writePieces_safe {i} : ∀ {n a bs} {s : State}, InSafe s → InSafe (writePieces i n a bs s)
  | 0, _, _, _, h => h
  | _ + 1, _, _, _, h => ite_safe h (writePieces_safe (clientPost_safe h))

theorem imageSend_safe {d k bs} (h : InSafe s) : InSafe (imageSend d k bs s) := by
  unfold imageSend
  split
  · exact writePieces_safe h
  · exact h

theorem reefWrite_safe {i a b c d} (h : InSafe s) : InSafe (reefWrite i a b c d s) := foldl_safe (fun _ h => nvSubmit_safe h) h

theorem dropRefs_safe {l} (h : InSafe s) : InSafe (List.foldl (fun s k => dropRef k s) s l) := foldl_safe (fun _ h => dropRef_safe h) h

theorem dropSnapRefs_safe {i} (h : InSafe s) : InSafe (dropSnapRefs i s) := modSnap_safe (dropRefs_safe h)

theorem reefRest_safe (h : InSafe s) : InSafe (reefRest s) := modReef_safe h

theorem endCopy_safe {i} (h : InSafe s) : InSafe (endCopy i s) := foldl_safe (fun _ h => ite_safe (modCtx_safe h) h) (modReef_safe h)

theorem freeSnap_safe {i} (h : InSafe s) : InSafe (freeSnap i s) := by
  refine modReef_safe (dropClient_safe ?media)
  case media =>
    split
    · exact modReef_safe (dropSnapRefs_safe h)
    · exact dropSnapRefs_safe h

theorem drawFree_safe (h : InSafe s) : InSafe (drawFree s).2 := h.upd rfl

theorem snapFailed_safe {i} (h : InSafe s) : InSafe (snapFailed i s) := by
  unfold snapFailed
  extract_lets x
  split
  next e =>
    have h2 := raise_safe (src := 0x163) (reefRest_safe (freeSnap_safe (i := i) (endCopy_safe (i := i) ((drawFree_safe h).of_snd e))))
    dsimp only
    split
    · exact finish_safe h2
    · exact h2

theorem readQueue_safe (h : InSafe s) : InSafe (readQueue s) := foldl_safe (fun _ h => reefRead_safe h) h

theorem reefHeader_safe {i} (h : InSafe s) : InSafe (reefHeader i s) := by
  unfold reefHeader
  dsimp only
  split
  · exact ite_safe (reefWrite_safe (modSnap_safe (readQueue_safe h))) h
  · exact h

theorem cutCtx_safe {i c} (h : InSafe s) : InSafe (cutCtx i c s) := by
  unfold cutCtx
  split
  · exact h
  · extract_lets x parts ks g y new s1 s2 s3
    have h3 : InSafe s3 := modReef_safe (modCtx_safe (modSnap_safe (foldl_safe (fun _ h => holdRef_safe h) h)))
    split
    · exact ite_safe (snapFailed_safe h3) (reefWrite_safe h3)
    · exact h3

theorem noteReplicas_safe {d rs} (h : InSafe s) : InSafe (noteReplicas d rs s) := modReef_safe h

theorem freezeCtx_safe {c} (h : InSafe s) : InSafe (freezeCtx c s) := by
  unfold freezeCtx
  split
  · exact h
  · split
    · exact h
    · exact reefSend_safe (imageSend_safe (noteReplicas_safe (modSnap_safe (modCtx_safe h))))

theorem reefBoundary_safe {c} (h : InSafe s) : InSafe (reefBoundary c s) := by
  refine ite_safe h (freezeCtx_safe ?cut)
  case cut =>
    split
    · exact reefHeader_safe (cutCtx_safe h)
    · exact h

theorem reefDropCtx_safe {c} (h : InSafe s) : InSafe (reefDropCtx c s) := modReef_safe (raise_if_safe h)

/-! ### The end of requests and contexts (spec/13, spec/14) -/

theorem dropBlocks_safe {c} (h : InSafe s) : InSafe (dropBlocks c s) := modCtx_safe (foldl_safe (fun _ h => ite_safe (dropRef_safe h) h) h)

theorem trimSeq_safe {c} (h : InSafe s) : InSafe (trimSeq c s) :=
  ite_safe h (modCtx_safe (foldl_safe (fun _ h => ite_safe (dropRef_safe h) h) h))

theorem dropPriv_safe {c} (h : InSafe s) : InSafe (dropPriv c s) := modCtx_safe (dropPages_safe h)

theorem freeCtx_safe {c} (h : InSafe s) : InSafe (freeCtx c s) :=
  furlSettle_safe (modCtx_safe (dropPriv_safe (dropBlocks_safe (reefDropCtx_safe h))))

theorem endBlocks_safe {c} (h : InSafe s) : InSafe (endBlocks c s) := by
  refine foldl_safe (fun i h => ?block) (foldl_safe (fun _ h => unholdIfNone_safe (sendAbandon_safe h)) (modFurl_safe (cowDrop_safe h)))
  case block =>
    dsimp only
    split
    · exact modBlk_safe h
    · exact dropRef_safe (sendAbandon_safe (modBlk_safe h))
    · exact dropRef_safe (sendAbandon_safe (modBlk_safe h))
    · exact h

theorem tellSource_safe {c r st d e} (h : InSafe s) : InSafe (tellSource c r st d e s) := by
  unfold tellSource
  split
  · exact reefSend_safe h
  · exact h

theorem endReq_safe {c st d e} (h : InSafe s) : InSafe (endReq c st d e s) := by
  unfold endReq
  split
  · exact h
  · extract_lets s1 s2 res s3 s4
    have h2 : InSafe s2 := furlSettle_safe (trimSeq_safe (endBlocks_safe (dropBatches_safe h)))
    have h3 : InSafe s3 := ite_safe h2 (finish_safe (tellSource_safe h2))
    have h4 : InSafe s4 := foldl_safe (fun _ h => finish_safe h) (modCtx_safe h3)
    split
    · exact finish_safe (freeCtx_safe h4)
    · exact ite_safe (freeCtx_safe h4) h4

theorem boundaryEnd_safe {c} (h : InSafe s) : InSafe (boundaryEnd c s) := by
  unfold boundaryEnd
  split
  · exact h
  · exact ite_safe h (ite_safe (endReq_safe h) (ite_safe (endReq_safe h) (ite_safe (ite_safe (endReq_safe h) (endReq_safe h)) h)))

theorem boundary_safe {c} (h : InSafe s) : InSafe (boundary c s) := reefBoundary_safe (boundaryEnd_safe h)

theorem dropPin_safe {i} (h : InSafe s) : InSafe (dropPin i s) := furlSettle_safe (foldl_safe (fun _ h => dropRef_safe h) (modFurl_safe h))

/-! ### Mailboxes and sessions (spec/06) -/

theorem dropCmds_safe {p} (h : InSafe s) : InSafe (dropCmds p s) := h.upd rfl

theorem discardCmds_safe {p} (h : InSafe s) : InSafe (discardCmds p s) := foldl_safe (fun _ h => modMbx_safe h) (dropCmds_safe h)

theorem countPosted_safe {m n} (h : InSafe s) : InSafe (countPosted m n s) := modMbx_safe h

theorem postOne_safe {m c} (h : InSafe s) : InSafe (postOne m c s) := modPage_safe (writeHost_safe h)

theorem ringFault_safe {m} (h : InSafe s) : InSafe (ringFault m s) := ite_safe (setFn_safe (modPage_safe h)) (modPage_safe h)

theorem noteFull_safe {m b} (h : InSafe s) : InSafe (noteFull m b s) := modPage_safe (ite_safe (modMbx_safe h) h)

theorem postRing_safe {m n ok} (h : InSafe s) : InSafe (postRing m n ok s) := by
  unfold postRing
  extract_lets p fn ks now full s1 s2
  have h1 : InSafe s1 := by
    refine foldl_safe (fun o h => ?_) h
    split
    · exact postOne_safe h
    · exact h
  have h2 : InSafe s2 := noteFull_safe (countPosted_safe (dropCmds_safe h1))
  exact ite_safe h (ite_safe (noteFull_safe h) (ite_safe (noteFull_safe (ringFault_safe (discardCmds_safe h)))
    (ite_safe (sendMsix_safe h2) h2)))

theorem postRingAll_safe {m} (h : InSafe s) : InSafe (postRingAll m s) := foldl_safe (fun _ h => postRing_safe h) h

theorem cancelReqs_safe {m} (h : InSafe s) : InSafe (cancelReqs m s) := by
  refine foldl_safe (fun c h => ?_) h
  split
  · exact ite_safe (boundary_safe (modReq_safe h)) h
  · exact h

theorem endSession_safe {m} (h : InSafe s) : InSafe (endSession m s) := modMbx_safe h

theorem cancelSession_safe {m} (h : InSafe s) : InSafe (cancelSession m s) := endSession_safe (cancelReqs_safe (discardCmds_safe h))

theorem forceStale_safe {m b} (h : InSafe s) : InSafe (forceStale m b s) := cancelReqs_safe (h.upd rfl)

theorem forceEnd_safe {m} (h : InSafe s) : InSafe (forceEnd m s) :=
  endSession_safe (discardCmds_safe (postRingAll_safe (forceStale_safe h)))

theorem lateResult_safe {m q} (h : InSafe s) : InSafe (lateResult m q s) := by
  unfold lateResult
  split
  · exact modMbx_safe (h.upd rfl)
  · exact h

/-! ### Frame contexts (spec/20) -/

theorem modFctx_safe {i f} (h : InSafe s) : InSafe (modFctx i f s) := h.upd rfl

theorem modFslot_safe {i n f} (h : InSafe s) : InSafe (modFslot i n f s) := modFctx_safe h

theorem freeFctx_safe {i} (h : InSafe s) : InSafe (freeFctx i s) := modCleat_safe (modFctx_safe h)

/-- The Frame engine takes no frame in SAFE (Table 23.4). -/
theorem unitTake_safe (h : InSafe s) : InSafe (unitTake s) := by
  rw [unitTake, if_pos (by simp [frameRuns, h.mode])]
  exact h

theorem dyingFctx_safe {i} (h : InSafe s) : InSafe (dyingFctx i s) := by
  unfold dyingFctx
  extract_lets s1
  have h1 : InSafe s1 := by
    refine foldl_safe (fun n h => ite_safe ?_ h) h
    split
    · exact finish_safe (modFslot_safe h)
    · exact modFslot_safe h
  exact ite_safe h1 (freeFctx_safe h1)

/-! ### The end of a function's objects (R110, R162) -/

theorem dyingSweep_safe (h : InSafe s) : InSafe (dyingSweep s) :=
  ite_safe h (foldl_safe (fun _ h => ite_safe h (dropRegion_safe h)) (foldl_safe (fun _ h => ite_safe h (dropModel_safe h))
    (foldl_safe (fun _ h => dyingFctx_safe h) (foldl_safe (fun _ h => dropPin_safe h) (h.upd rfl)))))

theorem condemn_safe {fn} (h : InSafe s) : InSafe (condemn fn s) := by
  refine foldl_safe (fun c h => ?ctx) (foldl_safe (fun _ h => connClose_safe h) (h.upd rfl))
  case ctx =>
    split
    · exact boundary_safe (modReq_safe h)
    · exact freeCtx_safe h

/-! ### The PCIe endpoint (spec/18) -/

theorem modPcieFn_safe {i f} (h : InSafe s) : InSafe (modPcieFn i f s) := h.upd rfl

theorem sendPending_safe {fn} (h : InSafe s) : InSafe (sendPending fn s) :=
  foldl_safe (fun _ h => ite_safe (msixRaw_safe (modPcieFn_safe h)) h) h

theorem hostConfigure_safe {cs} (h : InSafe s) : InSafe (hostConfigure cs s) :=
  ite_safe (h.upd rfl) (foldl_safe (fun _ h => ite_safe (sendPending_safe (modPcieFn_safe h)) h) h)

theorem resetPage_safe {m} (h : InSafe s) : InSafe (resetPage m s) := modPage_safe (setFn_safe h)

theorem resetFnRegs_safe {fn} (h : InSafe s) : InSafe (resetFnRegs fn s) := modPcieFn_safe (h.upd rfl)

theorem endVf_safe {m} (h : InSafe s) : InSafe (endVf m s) :=
  dyingSweep_safe (condemn_safe (resetFnRegs_safe (resetPage_safe (cancelSession_safe h))))

theorem vfClear_safe (h : InSafe s) : InSafe (vfClear s) := by
  unfold vfClear
  extract_lets s1
  have h1 : InSafe s1 := foldl_safe (fun _ h => ite_safe h (endVf_safe h)) h
  exact ite_safe h (h1.upd rfl)

theorem endpointReset_safe (h : InSafe s) : InSafe (endpointReset s) := by
  unfold endpointReset
  extract_lets s1 s2 s3
  have h3 : InSafe s3 := cancelSession_safe (foldl_safe (fun _ h => resetPage_safe (cancelSession_safe h)) (vfClear_safe h))
  clear_value s3
  exact dyingSweep_safe (condemn_safe (resetFnRegs_safe (h3.upd rfl)))

theorem linkLost_safe (h : InSafe s) : InSafe (linkLost s) := ite_safe (raise_safe (h.upd rfl)) h

theorem pcieReset_safe {c} (h : InSafe s) : InSafe (pcieReset c s) := by
  have h1 : InSafe (if c = .perst then { s with pins := { s.pins with perstN := false } } else s) := ite_safe (h.upd rfl) h
  exact ite_safe h1 (endpointReset_safe (linkLost_safe h1))

theorem perstRelease_safe (h : InSafe s) : InSafe (perstRelease s) := h.upd rfl

theorem pcieLinkUp_safe {r w f i v cs} (h : InSafe s) : InSafe (pcieLinkUp r w f i v cs s) := ite_safe h (hostConfigure_safe (h.upd rfl))

theorem flrFn_safe {fn cs} (h : InSafe s) : InSafe (flrFn fn cs s) :=
  ite_safe h (hostConfigure_safe (ite_safe (endpointReset_safe h) (endVf_safe h)))

theorem vfSet_safe {n cs} (h : InSafe s) : InSafe (vfSet n cs s) := by
  unfold vfSet
  extract_lets s1
  have h1 : InSafe s1 := foldl_safe (fun _ h => resetPage_safe (forceEnd_safe h)) h
  exact ite_safe h (hostConfigure_safe (h1.upd rfl))

theorem d3Entry_safe {fn} (h : InSafe s) : InSafe (d3Entry fn s) := ite_safe (modPcieFn_safe h) h

theorem d0Back_safe {fn} (h : InSafe s) : InSafe (d0Back fn s) := ite_safe (modPcieFn_safe h) h

theorem atsDrop_safe {fn ps} (h : InSafe s) : InSafe (atsDrop fn ps s) := ite_safe h (emit_safe (modPcieFn_safe h))

theorem msixUnmaskVec_safe {fn v} (h : InSafe s) : InSafe (msixUnmaskVec fn v s) := ite_safe h (sendPending_safe (modPcieFn_safe h))

theorem poisonedWrite_safe {fn b} (h : InSafe s) : InSafe (poisonedWrite fn b s) := ite_safe (raise_safe (modPcieFn_safe h)) h

theorem bar2Read_safe {fn o n} (h : InSafe s) : InSafe (bar2Read fn o n s) := by
  refine ite_safe h (ite_safe (emit_safe h) (ite_safe (emit_safe (modView_safe h)) ?read))
  case read =>
    split
    next e => exact emit_safe ((memRead_safe h).of_snd e)
    next e => exact emit_safe ((memRead_safe h).of_snd e)

theorem bar2Write_safe {fn o bs} (h : InSafe s) : InSafe (bar2Write fn o bs s) :=
  ite_safe h (ite_safe (modView_safe h) (memWrite_safe (occur_safe h)))

theorem flrSweep_safe (h : InSafe s) : InSafe (flrSweep s) := ite_safe (h.upd rfl) h

/-! ### The Bowsprit (spec/19) -/

theorem modBow_safe {f} (h : InSafe s) : InSafe (modBow f s) := h.upd rfl

/-- The Bowsprit serves no access in SAFE (Table 23.4). -/
theorem plbServed_of_safe (h : InSafe s) : plbServed s = false := by
  simp [plbServed, h.mode]

theorem plbReply_safe {r} (h : InSafe s) : InSafe (plbReply r s) := by
  refine emit_safe ?_
  split
  · exact raise_safe h
  · exact h

theorem inboundRead_safe {a be b n o} (h : InSafe s) : InSafe (inboundRead a be b n o s) := by
  refine ite_safe h ?_
  split
  · exact h
  · dsimp only
    rw [if_pos (by simp [plbServed_of_safe h])]
    exact plbReply_safe h

theorem inboundWrite_safe {a be b ws r} (h : InSafe s) : InSafe (inboundWrite a be b ws r s).2 := by
  refine ite_snd_safe h ?_
  split
  · exact h
  · dsimp only
    rw [if_pos (by simp [plbServed_of_safe h])]
    exact plbReply_safe h

theorem driveReq_safe {w} (h : InSafe s) : InSafe (driveReq w s) := modBow_safe h

theorem accEnd_safe {d} (h : InSafe s) : InSafe (accEnd d s) := by
  unfold accEnd
  split
  · exact h
  · extract_lets s1 s2
    have h1 : InSafe s1 := driveReq_safe (modBow_safe h)
    have h2 : InSafe s2 := raise_safe h1
    split
    · exact finish_safe h2
    · exact finish_safe h1
    · exact ite_safe (emit_safe h2) h2
    · exact ite_safe (emit_safe h1) h1

theorem cycleDone_safe {ws} (h : InSafe s) : InSafe (cycleDone ws s) := by
  unfold cycleDone
  split
  · exact h
  · split
    · exact h
    · exact ite_safe (accEnd_safe (modBow_safe h)) (modBow_safe (modBow_safe h))

theorem targetResponse_safe {r} (h : InSafe s) : InSafe (targetResponse r s) := by
  refine ite_safe h ?_
  split
  · exact cycleDone_safe h
  · exact accEnd_safe h
  · exact ite_safe (accEnd_safe h) (driveReq_safe (modBow_safe h))

theorem arbitrate_safe {a b c d e} (h : InSafe s) : InSafe (arbitrate a b c d e s) := by
  refine ite_safe h ?_
  extract_lets s0 s1 s2
  have h1 : InSafe s1 := modBow_safe (raise_if_safe h)
  have h2 : InSafe s2 := raise_if_safe h1
  clear_value s1 s2
  split
  · refine ite_safe ?_ h2
    split
    · exact modBow_safe h2
    · exact h2
  · extract_lets s3
    have h3 : InSafe s3 := raise_if_safe h1
    exact ite_safe (modBow_safe h3) (ite_safe (modBow_safe h3) h3)
  · exact ite_safe (modBow_safe (raise_if_safe h1)) (raise_if_safe h1)

theorem noResponse_safe (h : InSafe s) : InSafe (noResponse s) := ite_safe (accEnd_safe h) h

theorem lineAct_safe {n} (h : InSafe s) : InSafe (lineAct n s) := ite_safe (raise_safe h) (ite_safe (sendMsix_safe h) h)

theorem irqAssert_safe {n} (h : InSafe s) : InSafe (irqAssert n s) := ite_safe h (lineAct_safe (modBow_safe h))

theorem irqRepeat_safe {n} (h : InSafe s) : InSafe (irqRepeat n s) := ite_safe (lineAct_safe h) h

theorem irqDeassert_safe {n} (h : InSafe s) : InSafe (irqDeassert n s) := ite_safe (modBow_safe h) h

/-! ### Pins, clocks and supplies (spec/03, spec/04) -/

theorem modSec_safe {f} (h : InSafe s) : InSafe (modSec f s) := h.upd rfl

theorem nonceExpiry_safe (h : InSafe s) : InSafe (nonceExpiry s) := modSec_safe h

theorem sysRstRise_safe (h : InSafe s) : InSafe (sysRstRise s) := h.upd rfl

theorem porRelease_safe (h : InSafe s) : InSafe (porRelease s) := h.upd rfl

/-- The events of COLD do nothing in SAFE. -/
theorem strapSampled_safe {l} (h : InSafe s) : InSafe (strapSampled l s) := by
  rw [strapSampled, if_pos (by simp [h.mode])]
  exact h

theorem coldRelease_safe {l} (h : InSafe s) : InSafe (coldRelease l s) := by
  rw [coldRelease, if_pos (by simp [h.mode])]
  exact h

theorem pllTimeout_safe (h : InSafe s) : InSafe (pllTimeout s) := by
  rw [pllTimeout, if_neg (by simp [h.mode])]
  exact h

/-- The stages of boot do nothing in SAFE (R618). -/
theorem stageDone_safe {r} (h : InSafe s) : InSafe (stageDone r s) := by
  rw [stageDone]
  dsimp only
  rw [if_pos (by simp [h.mode])]
  exact h

theorem stageTimeout_safe {a} (h : InSafe s) : InSafe (stageTimeout a s) := by
  rw [stageTimeout, if_pos (by simp [h.mode])]
  exact h

theorem heartbeatTick_safe (h : InSafe s) : InSafe (heartbeatTick s) := by
  rw [heartbeatTick, if_pos (by simp [h.mode])]
  exact h

theorem clockLoss_safe {d} (h : InSafe s) : InSafe (clockLoss d s) := ite_safe h (ite_safe (directAssert_safe h) (raise_safe h))

theorem clocksStopped_safe {ds} (h : InSafe s) : InSafe (clocksStopped ds s) := by
  unfold clocksStopped
  extract_lets s1 s2
  have h1 : InSafe s1 := ite_safe (linksDown_safe h) h
  have h2 : InSafe s2 := ite_safe (ethLinkChange_safe (ethLinkChange_safe h1)) h1
  exact ite_safe (endpointReset_safe (linkLost_safe h2)) h2

theorem markClock_safe {c l} (h : InSafe s) : InSafe (markClock c l s) := by
  unfold markClock
  split
  · exact h
  · exact h

theorem clockLost_safe {c} (h : InSafe s) : InSafe (clockLost c s) :=
  ite_safe (markClock_safe h) (clocksStopped_safe (foldl_safe (fun _ h => clockLoss_safe h) (markClock_safe h)))

theorem latchedSticky_safe (h : InSafe s) : InSafe (latchedSticky s) := ite_safe (foldl_safe (fun _ h => setSticky_safe h) h) h

theorem clockBack_safe {c} (h : InSafe s) : InSafe (clockBack c s) := by
  unfold clockBack
  extract_lets s1 s2
  have h2 : InSafe s2 := ite_safe (latchedSticky_safe (markClock_safe h)) (markClock_safe h)
  exact ite_safe (markClock_safe h) (ite_safe (foldl_safe (fun _ h => trainDown_safe h) h2) h2)

theorem thermalTripped_safe {d} (h : InSafe s) : InSafe (thermalTripped d s) := ite_safe h (directAssert_safe (h.upd rfl))

theorem railOut_safe {k} (h : InSafe s) : InSafe (railOut k s) := ite_safe h (raise_safe h)

/-! ### Management buses, the time unit and the Ratline (spec/24) -/

theorem smb1Poll_safe {a r} (h : InSafe s) : InSafe (smb1Poll a r s) := by
  rw [smb1Poll, if_neg (by simp [smb1Runs, h.mode])]
  exact h

theorem smb1Retry_safe {a r} (h : InSafe s) : InSafe (smb1Retry a r s) := by
  unfold smb1Retry
  split
  · rw [if_neg (by simp [smb1Runs, h.mode])]
    exact h
  · exact h

theorem loadIr_safe {i l} (h : InSafe s) : InSafe (loadIr i l s) := ite_safe h (h.upd rfl)

theorem tapReset_safe (h : InSafe s) : InSafe (tapReset s) := h.upd rfl

theorem tclkEdge_safe (h : InSafe s) : InSafe (tclkEdge s) := ite_safe (modTime_safe h) h

theorem servo_safe {o} (h : InSafe s) : InSafe (servo o s) := ite_safe (raise_safe (modTime_safe h)) (modTime_safe h)

theorem ptpSync_safe {m} (h : InSafe s) : InSafe (ptpSync m s) := ite_safe (modTime_safe h) h

theorem ptpFollowUp_safe {m} (h : InSafe s) : InSafe (ptpFollowUp m s) := ite_safe (modTime_safe h) h

theorem ptpDelayResp_safe {m} (h : InSafe s) : InSafe (ptpDelayResp m s) := by
  refine ite_safe ?_ h
  split
  · exact servo_safe (modTime_safe h)
  · exact h

theorem delayReq_safe (h : InSafe s) : InSafe (delayReq s) := ite_safe (ite_safe (offer_safe (modTime_safe h)) (modTime_safe h)) h

theorem ppsIn_safe {n} (h : InSafe s) : InSafe (ppsIn n s) :=
  ite_safe h (ite_safe (modTime_safe h) (ite_safe (servo_safe (modTime_safe h)) (modTime_safe h)))

theorem ppsRise_safe (h : InSafe s) : InSafe (ppsRise s) := ite_safe (modTime_safe h) h

theorem ppsFall_safe (h : InSafe s) : InSafe (ppsFall s) := modTime_safe h

theorem syncedStale_safe (h : InSafe s) : InSafe (syncedStale s) := ite_safe (raise_safe (modTime_safe h)) h

theorem rlSendEntry_safe {q t} (h : InSafe s) : InSafe (rlSendEntry q t s) := emit_safe (h.upd rfl)

theorem rlPeriodic_safe {t} (h : InSafe s) : InSafe (rlPeriodic t s) := ite_safe (rlSendEntry_safe h) h

theorem rlForward_safe {f} (h : InSafe s) : InSafe (rlForward f s) := ite_safe (emit_safe h) h

theorem rlCheckDone_safe (h : InSafe s) : InSafe (rlCheckDone s) := by
  unfold rlCheckDone
  split
  · split
    · exact ite_safe (finish_safe (h.upd rfl)) h
    · exact h
  · exact h

theorem rlRxEntry_safe {f} (h : InSafe s) : InSafe (rlRxEntry f s) :=
  ite_safe (ite_safe (h.upd rfl) (rlCheckDone_safe (rlForward_safe (h.upd rfl)))) h

theorem rlRxSweep_safe {f t} (h : InSafe s) : InSafe (rlRxSweep f t s) :=
  ite_safe (ite_safe (rlCheckDone_safe (h.upd rfl)) (rlSendEntry_safe (rlForward_safe h))) h

theorem rlOrphan_safe (h : InSafe s) : InSafe (rlOrphan s) := ite_safe (raise_safe (h.upd rfl)) h

theorem psLastOp_safe {ok} (h : InSafe s) : InSafe (psLastOp ok s) := by
  unfold psLastOp
  split
  · exact h
  · exact h.upd rfl

theorem idleTick_safe (h : InSafe s) : InSafe (idleTick s) := holdCount_safe (tclkEdge_safe h)

/-! ### Packets for Masthead: nothing speaks in SAFE -/

theorem shrRx_safe {p b} (h : InSafe s) : InSafe (shrRx p b s) := by
  rw [shrRx, if_pos (by simp [h.mode])]
  exact h

theorem rackMsg_safe {a b} (h : InSafe s) : InSafe (rackMsg a b s) := by
  rw [rackMsg, if_pos (by simp [speaks, h.mode])]
  exact h

theorem deliver_safe {p b} (h : InSafe s) : InSafe (deliver p b s) := by
  unfold deliver
  split
  · exact shrRx_safe h
  · exact rxLinkMap_safe h
  · exact rackMsg_safe h

/-! ### What follows a step -/

/-- Masthead does not run in SAFE (Table 23.4). -/
theorem mhRuns_of_safe (h : InSafe s) : mhRuns s = false := by
  simp [mhRuns, serving, h.mode]

theorem mastheadSettles_safe (h : InSafe s) : InSafe (mastheadSettles s) := by
  rw [mastheadSettles, if_neg (by simp [mhRuns_of_safe h])]
  exact flrSweep_safe (dyingSweep_safe h)

theorem settle_safe (h : InSafe s) : InSafe (settle s) := linkMapSweep_safe (holdSweep_safe (mastheadSettles_safe h))

/-! ### Commands: Masthead takes none in SAFE -/

theorem canFetch_of_safe {m} (h : InSafe s) : canFetch m s = false := by
  simp [canFetch, mhRuns_of_safe h]

theorem mailboxFetch_safe {m es} (h : InSafe s) : InSafe (mailboxFetch m es s) := by
  unfold mailboxFetch
  dsimp only
  rw [if_pos (by simp [canFetch_of_safe h])]
  exact h

theorem ringCmd_safe {c} (h : InSafe s) : InSafe (ringCmd c s) := by
  rw [ringCmd, if_neg (by simp [canFetch_of_safe h])]
  exact h

theorem plbCmd_safe {c} (h : InSafe s) : InSafe (plbCmd c s) := by
  rw [plbCmd, if_pos (by simp [mhRuns_of_safe h])]
  exact h

theorem consoleCmd_safe {c} (h : InSafe s) : InSafe (consoleCmd c s) := by
  rw [consoleCmd, if_pos (by simp [mhRuns_of_safe h])]
  exact h

theorem inlineCmd_safe {c} (h : InSafe s) : InSafe (inlineCmd c s) := by
  refine ite_safe h ?_
  rw [if_neg (by simp [h.mode]), if_neg (by simp [mhRuns_of_safe h])]
  exact h

theorem mcpRespond_safe {b d t m} (h : InSafe s) : InSafe (mcpRespond b d t m s) := ite_safe (h.upd rfl) (h.upd rfl)

theorem alwaysOn_safe {c} (h : InSafe s) : InSafe (alwaysOn c s) := mcpRespond_safe (drawFree_safe h)

theorem smbCmd_safe {c} (h : InSafe s) : InSafe (smbCmd c s) := by
  rw [smbCmd, if_pos (c := (!mhRuns s) = true) (by simp [mhRuns_of_safe h])]
  exact ite_safe h (ite_safe (alwaysOn_safe h) (emit_safe h))

theorem arrive_safe {c} (h : InSafe s) : InSafe (arrive c s) := by
  refine ite_safe (ringCmd_safe h) ?_
  split
  · exact smbCmd_safe h
  · exact plbCmd_safe h
  · exact consoleCmd_safe h
  · exact inlineCmd_safe h
  · exact h

theorem commandTimeout_safe {m q} (h : InSafe s) : InSafe (commandTimeout m q s) := by
  unfold commandTimeout
  split
  · exact h
  · rw [if_pos (by simp [mhRuns_of_safe h])]
    exact h

/-! ### The transports (spec/06) -/

theorem inlineGo_safe {fn v rd} (h : InSafe s) : InSafe (inlineGo fn v rd s) :=
  ite_safe h (ite_safe (modView_safe h) (ite_safe (inlineCmd_safe h) h))

theorem hostPut_safe {fn o v} (h : InSafe s) : InSafe (hostPut fn o v s) := ite_safe (inlineGo_safe h) (bar0Write32_safe h)

theorem hostWrite0_safe {fn o n v} (h : InSafe s) : InSafe (hostWrite0 fn o n v s) := ite_safe h (bar0Write_safe hostPut_safe h)

theorem plbGo_safe {v rd} (h : InSafe s) : InSafe (plbGo v rd s) := ite_safe (plbCmd_safe h) h

theorem plbWrite_safe {a be b ws rd} (h : InSafe s) : InSafe (plbWrite a be b ws rd s) := by
  unfold plbWrite
  split
  next e =>
    have h1 := (inboundWrite_safe h).of_snd e
    exact ite_safe (plbGo_safe h1) h1

theorem controlReply_safe {w a b c} (h : InSafe s) : InSafe (controlReply w a b c s) := mcpRespond_safe h

theorem getEndpoint_safe {w} (h : InSafe s) : InSafe (getEndpoint w s) := ite_safe h (controlReply_safe h)

theorem getTypes_safe {w} (h : InSafe s) : InSafe (getTypes w s) := ite_safe h (controlReply_safe h)

theorem getVersion_safe {w t} (h : InSafe s) : InSafe (getVersion w t s) :=
  ite_safe h (ite_safe (controlReply_safe h) (controlReply_safe h))

theorem smbReset_safe (h : InSafe s) : InSafe (smbReset s) := cancelSession_safe (h.upd rfl)

theorem setEndpoint_safe {w e} (h : InSafe s) : InSafe (setEndpoint w e s) := by
  unfold setEndpoint
  extract_lets s1
  have h1 : InSafe s1 := ite_safe h (smbReset_safe h)
  exact ite_safe h (ite_safe (controlReply_safe h) (controlReply_safe (h1.upd rfl)))

theorem controlMsg_safe {w b} (h : InSafe s) : InSafe (controlMsg w b s) := by
  unfold controlMsg
  dsimp only
  split
  · exact setEndpoint_safe h
  · exact getEndpoint_safe h
  · exact getVersion_safe h
  · exact getTypes_safe h
  · exact controlReply_safe h

theorem smbDiscard_safe (h : InSafe s) : InSafe (smbDiscard s) := h.upd rfl

theorem mcpMessage_safe {w b rd} (h : InSafe s) : InSafe (mcpMessage w b rd s) :=
  ite_safe (controlMsg_safe h) (ite_safe (ite_safe (smbDiscard_safe h) (smbCmd_safe h)) h)

theorem smbPacket_safe {bus p ok rd} (h : InSafe s) : InSafe (smbPacket bus p ok rd s) := by
  unfold smbPacket
  extract_lets dest joins src put bs
  have hp {a b} : InSafe (put a b) := h.upd rfl
  exact ite_safe h (ite_safe (smbDiscard_safe h) (ite_safe h (ite_safe (emit_safe hp) (ite_safe hp (ite_safe (mcpMessage_safe hp) hp)))))

theorem smbRead_safe {bus} (h : InSafe s) : InSafe (smbRead bus s) := by
  refine ite_safe h (ite_safe ?one ?zero)
  case one =>
    split
    · exact emit_safe (h.upd rfl)
    · exact h
  case zero =>
    split
    · exact emit_safe (h.upd rfl)
    · exact h

theorem alertResponse_safe (h : InSafe s) : InSafe (alertResponse s) := ite_safe h (emit_safe (h.upd rfl))

theorem targetReset_safe (h : InSafe s) : InSafe (targetReset s) := ite_safe h (smbReset_safe (h.upd rfl))

theorem consoleLine_safe {l rd} (h : InSafe s) : InSafe (consoleLine l rd s) := by
  rw [consoleLine, if_pos (c := (!mhRuns s) = true) (by simp [mhRuns_of_safe h])]
  exact ite_safe h (h.upd rfl)

theorem consoleChar_safe {b rd} (h : InSafe s) : InSafe (consoleChar b rd s) := by
  unfold consoleChar
  extract_lets src put
  have hp {b c} : InSafe (put b c) := h.upd rfl
  exact ite_safe hp (ite_safe (consoleLine_safe hp) hp)

theorem uartRx_safe {bs n rd} (h : InSafe s) : InSafe (uartRx bs n rd s) :=
  ite_safe h (ite_safe (ite_safe (h.upd rfl) (h.upd rfl)) (ite_safe (h.upd rfl) (consoleChar_safe h)))

end
end Sys2Proof.Machine
end

section
/-! PROOFS. SAFE is left only by a cold reset (spec/23_telltale.md, R618): every other command and event keeps it. -/

namespace Sys2Proof.Machine

/-- The next state that a command leads to is in SAFE. -/
def NextSafe : Host.Outcome State Fault Refusal → Prop
  | .next t => InSafe t
  | _ => True

section
variable {s : State}

theorem NextSafe.next {r : Host.Outcome State Fault Refusal} {t : State} (h : NextSafe r) (e : r = .next t) : InSafe t := by
  rw [e] at h; exact h

/-! ### The shapes of an event -/

theorem next_safe {t : State} (h : InSafe t) : NextSafe (.next t) := h

theorem act_next {f : State → State} (h : InSafe (f s)) : NextSafe (act f s) := settle_safe h

/-- An event whose block is halted, or not served, in SAFE. -/
theorem gated_next {c : Prop} [Decidable c] {t : State} (hc : ¬ c) (h : InSafe s) : NextSafe (.next (if c then t else s)) := by
  rw [if_neg hc]; exact h

theorem actLive_next {f} (h : InSafe s) : NextSafe (actLive f s) := by
  rw [actLive, if_pos (by simp [halted, h.mode])]
  exact h

theorem actServe_next {f} (h : InSafe s) : NextSafe (actServe f s) := gated_next (by simp [mhRuns_of_safe h]) h

theorem actDrive_next {d f} (h : InSafe s) : NextSafe (actDrive d f s) := gated_next (by simp [halted, h.mode]) h

theorem actRail_next {d f} (h : InSafe s) : NextSafe (actRail d f s) := gated_next (by simp [railsActive_of_safe h]) h

theorem actAvs_next {d f} (h : InSafe s) : NextSafe (actAvs d f s) := gated_next (by simp [avsReads, h.mode]) h

theorem actLink_next {k} {f : State → State} (h : InSafe s) (hf : InSafe (f s)) : NextSafe (actLink k f s) :=
  ite_safe (settle_safe hf) h

/-! ### Events with a shape of their own -/

/-- What a flit completes is delivered. -/
theorem execStayFlitRx_next {k f a b c} (h : InSafe s) : NextSafe (execStayFlitRx k f a b c s) := by
  refine actLink_next h ?_
  split
  next e => exact deliver_safe ((flitRx_safe h).of_snd e)
  next e => exact (flitRx_safe h).of_snd e

theorem execPstoreFlashOpDone_next {ok} (h : InSafe s) : NextSafe (execPstoreFlashOpDone ok s) := by
  rw [execPstoreFlashOpDone, if_pos h.mode]
  exact psLastOp_safe h

theorem execAvsFrameError_next {d} (h : InSafe s) : NextSafe (execAvsFrameError d s) := gated_next (by simp [halted, h.mode]) h

/-! ### Every command -/

/-- Every command but the two cold resets keeps SAFE. -/
theorem exec_next {i : Instr} (h : InSafe s) (hpor : i ≠ .powerOnReset) (hrst : i ≠ .sysRstNLow) : NextSafe (exec i s) := by
  cases i with
  | powerOnReset => exact absurd rfl hpor
  | sysRstNLow => exact absurd rfl hrst
  -- The instructions of a tile and of a Halyard: none issues.
  | tNop | tEnd | tBr | tBeq | tBne | tBlt | tBge | tBltu | tBgeu | tJal | tJr | tBpany | tBpnone | tAdd | tSub | tMul | tMulhu | tMulh
    | tDiv | tDivu | tRem | tRemu | tAnd | tOr | tXor | tSll | tSrl | tSra | tSlt | tSltu | tMin | tMax | tMinu | tMaxu | tLi | tLih
    | tAddi | tSlti | tAndi | tOri | tXori | tSlli | tSrli | tSrai | tLb | tLbu | tLh | tLhu | tLw | tLwu | tLd | tSb | tSh | tSw | tSd
    | tVfadd | tVfsub | tVfmul | tVfma | tVfmin | tVfmax | tVfabs | tVfneg | tVrcp | tVrsq | tVexp2 | tVlog2 | tVfceq | tVfclt | tVfcle
    | tVadd | tVsub | tVmul | tVand | tVor | tVxor | tVsll | tVsrl | tVsra | tVmin | tVmax | tVcmp | tVbadd | tVbmul | tVbfma | tVsel
    | tVld | tVst | tVbcst | tVmov | tVext | tVins | tViota | tVperm | tVrsum | tVrmax | tVrmin | tPlog | tPnot | tPmovg | tPmovp
    | tPset | tVcvtfb | tVcvtbf | tVcvtfi | tVcvtif | tVq8 | tVq4 | tVdq8 | tVdq4 | tSmma | tSscl | tSzero | tSdrain | tShpop | tShpopnw
    | tShpush | tShpushnw | tShmark | tShrwd | tShrel | tShrelr | tShlvl | tShcrd | tShfill | tShce | tClsig | tClwait | tClrd | tClset
    | tCsrr | tCsrw => exact next_safe (issue_safe h)
  | hHalyardEnd | hStreamIn | hStreamOut | hTileIn | hTileOut | hCopy | hSignal | hWait | hLoop => exact next_safe (halIssue_safe h)
  -- The commands: Masthead takes none, and what the always-on domain answers leaves the mode.
  | readiness | identity | sessionOpen | sessionClose | vfBind | deviceReset | funcStart | funcStop | statsRead | powerPolicy
    | powerStatus | hostLoad | ctxAlloc | ctxFree | ctxQuery | memAlloc | memFree | memCopy | apertureSet | nvmeCfg | modelLoad
    | modelUnload | weightsLoad | submit | submitCancel | furlDomainCfg | furlPin | furlUnpin | furlEvictCfg | furlPurge | furlProbe
    | shrConnOpen | shrConnClose | shrConnTimeout | shrMap | shrUnmap | shrCcCfg | trimMode | trimShaper | trimPolicer | frameCtxCfg
    | frameCtxFree | frameRc | frameRoi | frameSubmit | reefCfg | reefSnapshot | reefEvacuate | reefRestore | reefStatus | ttSeverity
    | ttRead | ttClear | timeSource | timeStatus | secKeySet | secKeyDestroy | fwUpdate | measure | debugChallenge | debugUnlock
    | debugLock | plbWindow | plbAccess | plbIrqRoute | plbArbCfg | sensorRead | ratlineSweep | gpioCfg | consoleCfg | pstoreRead
    | pstoreWrite | rackEpoch | rackStatus => exact next_safe (arrive_safe h)
  -- The events of the blocks that SAFE halts, or that Masthead, the drives or the rails do not serve there.
  | funcValidated | funcDrained | hbmWriteBack | hbmScrub | stayPacketSend | linkMap | linkMapTimer | linkMapSilenceEv | shrConnect
    | shrAccept | shrReq | shrResp | shrAck | shrClose | shrCloseAck | shrRead | shrWrite | shrWriteSig | shrFadd | shrMsg
    | shrOperationPost | shrGateRelease | shrPagePresent | shrResendDelay | shrRetransmitTimer | shrAckTimer | shrBrokenTimeout
    | shrOpTimeout | shrConnectRetry | shrCloseRetry | shrCcPeriod | trimSelectEv | trimBucketGain | pfcFrameRx | ethFrameRxEv
    | pfcRepeatEv | hostTransferFailure | nvmeLinkUp | plbDelayedFetchDone | plbDelayedReadDiscard | plbOutboundAccess | plbRetryWait
    | plbGrantTimeout | frameEnd | frameEncodeRecord | ratlineSweepTimeout | ethernetLinkChange | shrPacedSend | plbGrantReceived
    | pfcPauseExpiry => apply actLive_next h
  | submitDeadline | stepBoundary | decodeStart | dispatchBind | dispatchEnd | dispatchHalt | halyardDrainLimit | furlLookup
    | furlAnswer | furlUnhold | furlAbandon | furlRenew | furlRenewTimer | furlPublish | furlChild | furlNotify | furlLeaseExpiry
    | furlEvict | furlEvictAck | furlRestore | furlMoved | furlOrphanHold | furlEvictionStart | reefTriggerEval | reefProtectedWrite
    | reefCopyDone | reefPark | reefTargetFail | reefConfirm | reefRefuse | reefOutputToken | reefPeerLoss | reefHostedExpiry | announce
    | leave | announceTimerEv | graceExpiryEv | activeMemberExpiry | systemConnExpiry | rmuLostTimeout | oldEpochWindowExpiry =>
    apply actServe_next h
  | nvmeCstsRdy | nvmeCapToExpiry | nvmeCommandCompletion | nvmeRetryDelay | nvmeCommandTimeout | nvmeControllerFatal | nvmeLinkDown
    | nvmeDmaRequest | nvmeAsyncEvent => apply actDrive_next h
  | desiredPointChange | yclkSwitchDone | avsSlewTimeout | settleTimer | adaptiveLoopPeriod => apply actRail_next h
  | avsStatusRead | avsPoll => apply actAvs_next h
  -- The test port.
  | jtagIdcode | jtagSamplePreload | jtagExtest | jtagExtestPulse | jtagExtestTrain | jtagClamp | jtagHighz | jtagDbgStatus
    | jtagPrivateDebugAccess | jtagBypass => exact next_safe (loadIr_safe h)
  -- The other events: what each does in SAFE leaves the mode.
  | strapSample => exact next_safe (strapSampled_safe h)
  | coldResetRelease => exact next_safe (coldRelease_safe h)
  | pllLockTimeout => exact next_safe (pllTimeout_safe h)
  | bootStageDone => exact act_next (stageDone_safe h)
  | bootStageTimeout => exact next_safe (stageTimeout_safe h)
  | pcieReset => exact act_next (pcieReset_safe h)
  | perstNRelease => exact next_safe (perstRelease_safe h)
  | pwrFailNFall => exact act_next (pwrFall_safe h)
  | pwrFailNRecovery => exact act_next (pwrRecover_safe h)
  | referenceLoss => exact act_next (clockLost_safe h)
  | referenceReturn => exact act_next (clockBack_safe h)
  | thermalTrip => exact act_next (thermalTripped_safe h)
  | railOutOfRange => exact act_next (railOut_safe h)
  | avsFrameError => exact execAvsFrameError_next h
  | limiterPeriod => exact act_next (limiterPeriod_safe h)
  | heartbeatTick => exact next_safe (heartbeatTick_safe h)
  | bar0RegisterWrite => exact act_next (hostWrite0_safe h)
  | bar0UnmappedAccess => exact next_safe (ite_safe (unmappedAccess_safe h) h)
  | w1cWrite | todSetNs | todStep | todAdjPpb => exact act_next (hostWrite32_safe h)
  | ttStickyWrite | enable | sqTail | cqHead => exact act_next (ite_safe (hostWrite32_safe h) h)
  | todNsRead => exact next_safe (ite_safe (latchSeconds_safe h) h)
  | inlineGo => exact act_next (inlineGo_safe h)
  | mailboxFetch => exact act_next (mailboxFetch_safe h)
  | completionPost => exact act_next (ite_safe (postRing_safe h) h)
  | commandTimeout => exact act_next (commandTimeout_safe h)
  | lateResult => exact act_next (lateResult_safe h)
  | smb0BlockWrite | smb1BlockWrite => exact act_next (smbPacket_safe h)
  | smb0BlockRead | smb1BlockRead => exact next_safe (smbRead_safe h)
  | alertResponseAddress => exact next_safe (alertResponse_safe h)
  | smb0TargetReset => exact act_next (targetReset_safe h)
  | setEndpointId => exact act_next (setEndpoint_safe h)
  | getEndpointId => exact next_safe (getEndpoint_safe h)
  | getMctpVersionSupport => exact next_safe (getVersion_safe h)
  | getMessageTypeSupport => exact next_safe (getTypes_safe h)
  | pmbGo => exact act_next (plbGo_safe h)
  | consoleLine => exact act_next (consoleLine_safe h)
  | uartCharacterRx => exact act_next (uartRx_safe h)
  | tileProgramEnd => exact next_safe (programEnd_safe h)
  | stallWatchdog => exact next_safe (watchdog_safe h)
  | tileReservedOpcode => exact next_safe (reservedHere_safe h)
  | sailExecute => exact next_safe (sailExecute_safe (strike_safe h))
  | sailDrainDone => exact next_safe (drainStep_safe h)
  | cleatSignal => exact next_safe (sigsArrive_safe h)
  | cleatWaitRelease => exact next_safe (ite_safe (halWaitRelease_safe h) (tileWaitRelease_safe h))
  | halyardReadData => exact next_safe (endDispatches_safe (moveWord_safe (strike_safe h)))
  | descriptorComplete => exact next_safe (endDispatches_safe (flightDone_safe h))
  | hbmRefresh | pwrFailNRise => exact next_safe h
  | bar2Read => exact act_next (bar2Read_safe (strike_safe h))
  | bar2Write => exact act_next (bar2Write_safe h)
  | poisonedWriteRx => exact act_next (poisonedWrite_safe h)
  | stayFlitRx => exact execStayFlitRx_next h
  | stayReplayTimeout => exact actLink_next h (startReplay_safe h)
  | stayRetryBudgetExpiry => exact actLink_next h (budgetExpiry_safe h)
  | stayInit => exact actLink_next h (rxInit_safe h)
  | stayResync => exact actLink_next h (rxResync_safe h)
  | stayResyncAck => exact actLink_next h (rxResyncAck_safe h)
  | stayResyncTimeout => exact actLink_next h (resyncTimeout_safe h)
  | stayTrainingPhaseDone => exact actLink_next h (phaseDone_safe h)
  | stayTrainingTimeout => exact actLink_next h (phaseTimeout_safe h)
  | stayRetryInterval => exact actLink_next h (retryInterval_safe h)
  | stayCreditGrant => exact actLink_next h (grantCredits_safe h)
  | flr => exact act_next (flrFn_safe h)
  | vfEnableClear => exact act_next (vfClear_safe h)
  | vfEnableSet => exact act_next (vfSet_safe h)
  | d3hotEntry => exact act_next (d3Entry_safe h)
  | d0Return => exact act_next (d0Back_safe h)
  | atsInvalidate => exact next_safe (atsDrop_safe h)
  | msixUnmask => exact next_safe (msixUnmaskVec_safe h)
  | plbInboundRead => exact act_next (inboundRead_safe h)
  | plbInboundWrite => exact act_next (plbWrite_safe h)
  | plbArbitrate => exact act_next (arbitrate_safe h)
  | plbTargetResponse => exact act_next (targetResponse_safe h)
  | plbNoResponse => exact act_next (noResponse_safe h)
  | plbIrqAssert => exact act_next (irqAssert_safe h)
  | plbIrqLevelRepeat => exact act_next (irqRepeat_safe h)
  | frameUnitTake => exact next_safe (unitTake_safe h)
  | debugNonceExpiry => exact act_next (nonceExpiry_safe h)
  | ttOccurrence => exact act_next (ttSample_safe h)
  | ttAcknowledge => exact act_next (ttAck_safe h)
  | ttWatchdog => exact act_next (ttWatchdog_safe h)
  | directPathAssert => exact act_next (directAssert_safe h)
  | ttParityScan => exact act_next (ite_safe (directAssert_safe h) h)
  | smb1Poll => exact act_next (smb1Poll_safe h)
  | smb1ArbRetry => exact act_next (smb1Retry_safe h)
  | jtagTapReset => exact next_safe (tapReset_safe h)
  | ptpSync => exact act_next (ptpSync_safe h)
  | ptpFollowUp => exact act_next (ptpFollowUp_safe h)
  | ptpDelayResp => exact act_next (ptpDelayResp_safe h)
  | delayReqTimer => exact act_next (delayReq_safe h)
  | ppsInEdge => exact act_next (ppsIn_safe h)
  | ppsOutPulse => exact next_safe (ppsRise_safe h)
  | ppsOutEnd => exact next_safe (ppsFall_safe h)
  | syncedStale => exact act_next (syncedStale_safe h)
  | ratlinePeriodicEntry => exact act_next (rlPeriodic_safe h)
  | ratlineEntry => exact act_next (rlRxEntry_safe h)
  | ratlineSweepFrame => exact act_next (rlRxSweep_safe h)
  | ratlineOrphanTimeout => exact act_next (rlOrphan_safe h)
  | pstoreFlashOpDone => exact execPstoreFlashOpDone_next h
  | sysRstNRise => exact next_safe (sysRstRise_safe h)
  | powerOnResetRelease => exact next_safe (porRelease_safe h)
  | stayLockLost => exact actLink_next h (lockLost_safe h)
  | stayCtlRepeat => exact actLink_next h (ctlRepeat_safe h)
  | pcieLinkUp => exact act_next (pcieLinkUp_safe h)
  | sailInstructionDone => exact next_safe (sailDone_safe h)
  | plbIrqDeassert => exact act_next (irqDeassert_safe h)

end
end Sys2Proof.Machine

namespace Sys2Proof.Safety
open Sys2Proof.Machine

/-- Settles O3: in SAFE no step moves the device to another mode, since no reaction starts, boot and Masthead do not run, and the blocks
that Table 23.4 halts take nothing; the two cold resets leave COLD. -/
theorem safeIsLeftOnlyByColdReset : Obligations.SafeIsLeftOnlyByColdReset := by
  unfold Obligations.SafeIsLeftOnlyByColdReset
  intro s s' h hs
  have hsafe : InSafe s := h
  cases hp : s.pending with
  | nil =>
    have hn : NextSafe (step s) := by
      rw [step, hp]; exact next_safe (idleTick_safe hsafe)
    exact .inl (hn.next hs)
  | cons c rest =>
    have hs : exec c { s with pending := rest } = .next s' := by simpa [step, hp] using hs
    have ht : InSafe { s with pending := rest } := hsafe
    by_cases hpor : c = .powerOnReset
    · subst hpor
      injection hs with hs
      exact .inr ⟨hs ▸ rfl, .inl rfl⟩
    by_cases hrst : c = .sysRstNLow
    · subst hrst
      injection hs with hs
      exact .inr ⟨hs ▸ rfl, .inr rfl⟩
    exact .inl ((exec_next ht hpor hrst).next hs)

end Sys2Proof.Safety
end

section
/-! PROOFS. The events of the fault collector (spec/23_telltale.md, R595 - R597, R608, R609, R613, R614, R709). -/

namespace Sys2Proof.Safety
open Sys2Proof.Machine

/-- Settles O26: each event's guard holds where its clause speaks, and the event is then the operation that the clause names. -/
theorem telltaleEventsComplete : Obligations.TelltaleEventsComplete := by
  unfold Obligations.TelltaleEventsComplete
  refine ⟨?occurrence, ?degraded, ?direct, ?parity⟩
  case occurrence =>
    intro ps s hf hm
    have hg : (fclkRuns s && !decide (s.dev.mode = .cold)) = true := by simp [hf, hm]
    exact acts_of (f := ttSample ps) rfl (if_pos hg)
  case degraded =>
    intro s h
    exact ⟨acts_of (f := ttAck) rfl (if_pos h), acts_of (f := ttWatchdog) rfl (if_pos h)⟩
  case direct => exact fun i _ => acts_of (f := directAssert i) rfl rfl
  case parity =>
    intro s hf
    constructor
    · exact acts_of rfl (if_pos hf)
    · exact acts_of rfl (if_neg Bool.false_ne_true)

end Sys2Proof.Safety
end

section
/-! PROOFS. The events of SMB1, the test port and the time unit (spec/24_management.md, R625, R627, R628, R636 - R647): when each event
acts, and what it then does. -/

namespace Sys2Proof.Safety
open Sys2Proof.Machine

/-! ### SMB1 (R625, R627, R628) -/

section

variable {a t : Nat} {r : Smb1Result} {s : State}

theorem smb1Poll_eq_outcome (hr : smb1Runs s = true) (hd : (Tab.get s.smb1.devs a).listed = true) (hn : s.smb1.retry = none) :
    smb1Poll a r s = smb1Outcome a r 0 (emit (.smb1Read a) s) := by
  simp [smb1Poll, hr, hd, hn]

theorem smb1Retry_eq_outcome (hr : smb1Runs s = true) (hn : s.smb1.retry = some (a, t)) :
    smb1Retry a r s = smb1Outcome a r t (emit (.smb1Read a) s) := by
  simp [smb1Retry, hr, hn]

/-- Forgetting a retry changes nothing where none waits. -/
theorem clearRetry_eq_self (hn : s.smb1.retry = none) : { s with smb1 := { s.smb1 with retry := none } } = s := by
  rw [← hn]

theorem smb1Outcome_word_of_noRetry (w : Nat) (hn : s.smb1.retry = none) :
    smb1Outcome a (.word w) t s =
      modSmb1 a (fun d => { d with word := w, status := 0, readAt := s.time.mono, naks := 0, absent := false }) s :=
  clearRetry_eq_self (s := modSmb1 a _ s) hn

/-- R627: the third NAK in a row marks the address absent. -/
theorem smb1Outcome_nak_of_noRetry (hn : s.smb1.retry = none) :
    smb1Outcome a .nak t s =
      modSmb1 a (fun d => { d with status := 1, naks := min 3 (d.naks + 1), absent := d.absent || decide (2 ≤ d.naks) }) s := by
  have hthird (d : Smb1Dev) : decide (3 ≤ d.naks + 1) = decide (2 ≤ d.naks) := decide_eq_decide.2 (by omega)
  simp only [smb1Outcome, hthird]
  exact clearRetry_eq_self (s := modSmb1 a _ s) hn

theorem smb1Outcome_lost_of_lt (ht : t < 8) :
    smb1Outcome a .lost t s = { s with smb1 := { s.smb1 with arbLost := s.smb1.arbLost + 1, retry := some (a, t + 1) } } :=
  if_neg (by omega)

/-- R628: the ninth try that loses arbitration is the last. -/
theorem smb1Outcome_lost_of_le (ht : 8 ≤ t) :
    smb1Outcome a .lost t s = raise 0x183 (modSmb1 a (fun d => { d with status := 2 })
      { s with smb1 := { s.smb1 with arbLost := s.smb1.arbLost + 1, retry := none } }) :=
  if_pos (by omega)

end

/-! ### The test port (R557, R636) -/

/-- The register that an instruction selects (Table 24.3). -/
def irReg (ir : Nat) (lockOpen : Bool) : JtagReg :=
  if ir = 1 then .idcode else if 2 ≤ ir ∧ ir ≤ 5 then .boundary else if ir = 0x10 then .dbgStatus
  else if 0x20 ≤ ir ∧ ir ≤ 0x27 ∧ lockOpen then .privateDebug else .bypass

section

variable {c : Instr} {ir : Nat} {lockOpen : Bool} {s : State}

theorem loadIr_cold (hm : s.dev.mode = .cold) : loadIr ir lockOpen s = s := if_pos hm

theorem loadIr_irReg (hm : s.dev.mode ≠ .cold) (hir : ir < 256) :
    loadIr ir lockOpen s = { s with jtag := { ir := ir, reg := irReg ir lockOpen } } := by
  have hmod : ir % 256 = ir := Nat.mod_eq_of_lt hir
  simp only [loadIr, hm, hmod, irReg, if_false]

theorem irReg_debugCode (h1 : 0x20 ≤ ir) (h2 : ir ≤ 0x27) : irReg ir lockOpen = if lockOpen then .privateDebug else .bypass := by
  have h3 : ¬ ir = 1 := by omega
  have h4 : ¬ (2 ≤ ir ∧ ir ≤ 5) := by omega
  have h5 : ¬ ir = 0x10 := by omega
  simp only [irReg, h1, h2, h3, h4, h5, if_false, true_and]

theorem irReg_bypass (h : ir = 0 ∨ (6 ≤ ir ∧ ir ≠ 0x10)) : irReg ir false = .bypass := by
  have h1 : ¬ ir = 1 := by omega
  have h2 : ¬ (2 ≤ ir ∧ ir ≤ 5) := by omega
  have h3 : ¬ ir = 0x10 := by omega
  simp [irReg, h1, h2, h3]

/-- Outside COLD an instruction of the test port loads its code and selects its register. -/
theorem answers_of_loadIr {r : JtagReg} (hx : exec c s = .next (loadIr ir lockOpen s)) (hm : s.dev.mode ≠ .cold) (hir : ir < 256)
    (hr : irReg ir lockOpen = r) : answers c s { s with jtag := { ir := ir, reg := r } } :=
  answers_of hx (by rw [loadIr_irReg hm hir, hr])

theorem answers_of_loadIr_cold (hx : exec c s = .next (loadIr ir lockOpen s)) (hm : s.dev.mode = .cold) : answers c s s :=
  answers_of hx (loadIr_cold hm)

end

/-! ### The time unit (R644 - R647) -/

section

variable {m : PtpMsg} {low : Nat} {s : State}

theorem ptpOk_iff : ptpOk m s = true ↔ disciplined s = true ∧ tclkRuns s = true ∧ (s.time.source = 1 ∨ s.time.source = 2) ∧
    m.port + 1 = s.time.source ∧ m.gmId = s.rack.view.gmId ∧ m.domain = s.time.ptpDomain ∧ s.dev.mode ≠ .safe := by
  simp [ptpOk, and_assoc]

theorem ptpOk_eq_false (h : m.gmId ≠ s.rack.view.gmId ∨ m.domain ≠ s.time.ptpDomain ∨ disciplined s = false) : ptpOk m s = false := by
  refine Bool.eq_false_iff.2 fun hok => ?_
  obtain ⟨hdisc, -, -, -, hgm, hdom, -⟩ := ptpOk_iff.1 hok
  rcases h with h | h | h
  · exact h hgm
  · exact h hdom
  · exact Bool.false_ne_true (h.symm.trans hdisc)

theorem ptpSync_of_ok (h : ptpOk m s = true) : ptpSync m s =
    modTime (fun t => { t with syncSeq := m.seqId, syncRx := some (todNs t), syncTx := if m.twoStep then none else some m.stamp }) s :=
  if_pos h

theorem ptpFollowUp_of_ok (h : ptpOk m s = true) (hrx : s.time.syncRx.isSome = true) (hseq : s.time.syncSeq = m.seqId) :
    ptpFollowUp m s = modTime (fun t => { t with syncTx := some m.stamp }) s := by
  simp [ptpFollowUp, h, hrx, hseq]

/-- R644: the exchange is complete, and the servo takes its offset. -/
theorem ptpDelayResp_of_ok {t1 t2 t3 : Int} (h : ptpOk m s = true) (hseq : s.time.delaySeq = m.seqId) (h2 : s.time.syncRx = some t2)
    (h1 : s.time.syncTx = some t1) (h3 : s.time.delayTx = some t3) :
    ptpDelayResp m s = servo (((t2 - t1) - (m.stamp - t3)) / 2) (dropSync s) := by
  simp [ptpDelayResp, dropSync, h, hseq, h2, h1, h3]

theorem ptpSync_of_not_ok (h : ptpOk m s = false) : ptpSync m s = s := by simp [ptpSync, h]

theorem ptpFollowUp_of_not_ok (h : ptpOk m s = false) : ptpFollowUp m s = s := by simp [ptpFollowUp, h]

theorem ptpDelayResp_of_not_ok (h : ptpOk m s = false) : ptpDelayResp m s = s := by simp [ptpDelayResp, h]

/-- R424: where the discipline follows PTP, the next Delay_Req is offered to its port if that port runs. -/
theorem delayReq_of_ptp (hdisc : disciplined s = true) (ht : tclkRuns s = true) (hsrc : s.time.source = 1 ∨ s.time.source = 2)
    (hm : s.dev.mode ≠ .safe) :
    delayReq s =
      let p := s.time.source - 1
      let q := wrapInc 16 s.time.delaySeq
      let s1 := modTime (fun t => { t with delaySeq := q, delayTx := none }) s
      if fnRunning p s then offer p 7 { frame := Config.delayReqFrame p q, delayReq := some q } s1 else s1 := by
  simp [delayReq, hdisc, ht, hsrc, hm]

theorem ppsIn_of_short (h : low < 100) : ppsIn low s = s := by simp [ppsIn, h]

/-- R646: an edge less than 0.5 s after the last accepted edge is counted alone. -/
theorem ppsIn_of_early {a : Nat} (ht : tclkRuns s = true) (hl : 100 ≤ low) (ha : s.time.ppsInLast = some a)
    (he : s.time.mono < a + 500000000) : ppsIn low s = modTime (fun t => { t with ppsIgnored := t.ppsIgnored + 1 }) s := by
  have hl : ¬ low < 100 := by omega
  simp [ppsIn, ht, hl, ha, he]

/-- R642, R646: an edge that is accepted, and the offset that the servo takes of it where PPS is the source. -/
theorem ppsIn_of_late (ht : tclkRuns s = true) (hl : 100 ≤ low)
    (hlate : ∀ a, s.time.ppsInLast = some a → a + 500000000 ≤ s.time.mono) :
    ppsIn low s =
      let taken := modTime (fun t => { t with ppsInLast := some t.mono }) s
      let x := (todNs s.time - s.time.ppsDelay) % 1000000000
      if disciplined s && s.time.source = 3 then servo (if 500000000 ≤ x then x - 1000000000 else x) taken else taken := by
  have hl : ¬ low < 100 := by omega
  cases ha : s.time.ppsInLast with
  | none => simp [ppsIn, ht, hl, ha]
  | some a =>
    have he : ¬ s.time.mono < a + 500000000 := Nat.not_lt.2 (hlate a ha)
    simp [ppsIn, ht, hl, ha, he]

end

/-- Settles O59: where its guard holds each event is the operation that the clause names, and elsewhere it changes nothing. -/
theorem managementEventsComplete : Obligations.ManagementEventsComplete := by
  unfold Obligations.ManagementEventsComplete
  refine ⟨?nonce, ?poll, ?retry, ?loads, ?cold, ?selected, ?ptp, ?ptpRefused, ?ppsIn, ?ppsShort, ?ppsRise, ?ppsNoRise, ?ppsFall, ?stale⟩
  case nonce => exact fun s => acts_of (f := nonceExpiry) rfl rfl
  case poll =>
    intro a s hr hd hn
    have hpoll {r : Smb1Result} {u : State} (h : smb1Outcome a r 0 (emit (.smb1Read a) s) = u) : acts (.smb1Poll a r) s u :=
      acts_of (f := smb1Poll a r) rfl ((smb1Poll_eq_outcome hr hd hn).trans h)
    exact ⟨fun w => hpoll (smb1Outcome_word_of_noRetry w hn), hpoll (smb1Outcome_nak_of_noRetry hn),
      hpoll (smb1Outcome_lost_of_lt (by decide))⟩
  case retry =>
    intro a t s hr hn
    have hretry {r : Smb1Result} {u : State} (h : smb1Outcome a r t (emit (.smb1Read a) s) = u) : acts (.smb1ArbRetry a r) s u :=
      acts_of (f := smb1Retry a r) rfl ((smb1Retry_eq_outcome hr hn).trans h)
    exact ⟨fun w => hretry rfl, fun ht => hretry (smb1Outcome_lost_of_lt ht), fun ht => hretry (smb1Outcome_lost_of_le ht)⟩
  case loads =>
    intro s hm
    have hlisted {c : Instr} {ir : Nat} {r : JtagReg} (hx : exec c s = .next (loadIr ir false s)) (hir : ir < 256)
        (hr : irReg ir false = r) : answers c s { s with jtag := { ir := ir, reg := r } } := answers_of_loadIr hx hm hir hr
    refine ⟨answers_of (u := tapReset s) rfl rfl, hlisted rfl (by decide) rfl, hlisted rfl (by decide) rfl, hlisted rfl (by decide) rfl,
      hlisted rfl (by decide) rfl, hlisted rfl (by decide) rfl, hlisted rfl (by decide) rfl, hlisted rfl (by decide) rfl,
      hlisted rfl (by decide) rfl, ?privateCodes, fun ir hir hb => hlisted rfl hir (irReg_bypass hb)⟩
    case privateCodes =>
      intro ir h1 h2
      have hir : ir < 256 := by omega
      constructor
      · exact fun ho => answers_of_loadIr rfl hm hir (by simp [irReg_debugCode h1 h2, ho])
      · exact fun hc => answers_of_loadIr rfl hm hir (by simp [irReg_debugCode h1 h2, hc])
  case cold =>
    intro s hm
    exact ⟨answers_of_loadIr_cold rfl hm, answers_of_loadIr_cold rfl hm, fun ir => answers_of_loadIr_cold rfl hm⟩
  case selected => intro s; simp [tapReg]
  case ptp =>
    intro m s hdisc ht hm hsrc hport hgm hdom
    have hok : ptpOk m s = true := ptpOk_iff.2 ⟨hdisc, ht, hsrc, hport, hgm, hdom, hm⟩
    refine ⟨acts_of (f := ptpSync m) rfl (ptpSync_of_ok hok), ?followUp, ?delayResp, ?portRuns, ?portStopped⟩
    case followUp => exact fun hrx hseq => acts_of (f := ptpFollowUp m) rfl (ptpFollowUp_of_ok hok hrx hseq)
    case delayResp =>
      exact fun t2 t1 t3 hseq h2 h1 h3 => acts_of (f := ptpDelayResp m) rfl (ptpDelayResp_of_ok hok hseq h2 h1 h3)
    case portRuns => exact fun hp => acts_of (f := delayReq) rfl ((delayReq_of_ptp hdisc ht hsrc hm).trans (if_pos hp))
    case portStopped =>
      exact fun hp => acts_of (f := delayReq) rfl
        ((delayReq_of_ptp hdisc ht hsrc hm).trans (if_neg (Bool.eq_false_iff.1 hp)))
  case ptpRefused =>
    intro m s h
    have hno := ptpOk_eq_false h
    exact ⟨acts_of (f := ptpSync m) rfl (ptpSync_of_not_ok hno), acts_of (f := ptpFollowUp m) rfl (ptpFollowUp_of_not_ok hno),
      acts_of (f := ptpDelayResp m) rfl (ptpDelayResp_of_not_ok hno)⟩
  case ppsIn =>
    intro low s ht hl late taken x
    have hin {u : State} (h : ppsIn low s = u) : acts (.ppsInEdge low) s u := acts_of (f := ppsIn low) rfl h
    have hlate (h : late) (a : Nat) (ha : s.time.ppsInLast = some a) : a + 500000000 ≤ s.time.mono := by simpa [late, ha] using h
    refine ⟨fun h => ?early, fun h hdisc hsrc => ?measured, fun h hoff => ?unmeasured⟩
    case early =>
      cases ha : s.time.ppsInLast with
      | none => exact absurd (by simp [late, ha]) h
      | some a => exact hin (ppsIn_of_early ht hl ha (by simpa [late, ha] using h))
    case measured => exact hin ((ppsIn_of_late ht hl (hlate h)).trans (if_pos (by simp [hdisc, hsrc])))
    case unmeasured => exact hin ((ppsIn_of_late ht hl (hlate h)).trans (if_neg (by rcases hoff with hd | hs <;> simp [*])))
  case ppsShort => exact fun low s h => acts_of (f := ppsIn low) rfl (ppsIn_of_short h)
  case ppsRise => exact fun s ht hen hdisc => answers_of (u := ppsRise s) rfl (if_pos (by simp [ht, hen, hdisc]))
  case ppsNoRise => exact fun s h => answers_of (u := ppsRise s) rfl (if_neg (by rcases h with h | h <;> simp [h]))
  case ppsFall => exact fun s => answers_of (u := ppsFall s) rfl rfl
  case stale =>
    intro s
    constructor
    · exact fun h => acts_of (f := syncedStale) rfl (if_pos h)
    · exact fun h => acts_of (f := syncedStale) rfl (if_neg (Bool.eq_false_iff.1 h))

end Sys2Proof.Safety
end

section
/-! PROOFS. One step of the block (spec/95_what_each_step_holds.md, spec/98_reader.md). -/

namespace Sys2Proof.Safety

open Sys2Proof.Machine

/-- Every arm of the table answers a next state. -/
theorem exec_answers (c : Instr) (s : State) : ∃ t, exec c s = .next t := by
  cases c <;> exact ⟨_, rfl⟩

/-- Settles O1: a step is the command of the queue or one edge of TCLK, by the definition, and each arm of `exec` answers a next state. -/
theorem stepRunsTheFront : Obligations.StepRunsTheFront := by
  unfold Obligations.StepRunsTheFront
  refine ⟨?front, ?idle, ?fetch⟩
  case front =>
    intro c rest s hp
    have hs : step s = exec c { s with pending := rest } := by rw [step, hp]
    exact ⟨hs, hs ▸ exec_answers c _⟩
  case idle =>
    intro s hp
    rw [step, hp]
  case fetch => exact fun nbits w s => ⟨rfl, rfl⟩

end Sys2Proof.Safety
end

section
/-! PROOFS. Resets and straps (spec/04_clocks_reset_bringup.md Tables 4.1, 4.3, spec/02_signals_board.md): what reset leaves, the latch of the straps and
the release of cold reset. -/

namespace Sys2Proof.Safety

open Sys2Proof.Machine

/-- Settles O2: the values stand in the reset state, whose tables list nothing but what Tables 17.2 and 19.5 give. -/
theorem resetLeaves : Obligations.ResetLeaves := by
  unfold Obligations.ResetLeaves
  have hfn (f : Nat) : fnState f State.reset = .stopped := by unfold fnState; split <;> rfl
  refine ⟨by and_intros <;> rfl, by and_intros <;> rfl, by and_intros <;> rfl, hfn, fun _ => rfl, fun _ => ⟨rfl, rfl, rfl⟩,
    by and_intros <;> rfl, rfl, rfl, rfl, by and_intros <;> rfl, fun _ => ⟨rfl, rfl, rfl⟩, ?ports, fun _ => rfl, by and_intros <;> rfl,
    by and_intros <;> rfl, fun _ => rfl, fun _ => rfl, ?drives, rfl, rfl, memory_reset_wf, rfl⟩
  case ports => decide
  case drives => decide

/-- Settles O18: each cold reset is the cold state of the state with its pins, whatever free value tells of the flash operation. -/
theorem coldResetsLeave : Obligations.ColdResetsLeave := by
  unfold Obligations.ColdResetsLeave
  intro cold s
  exact ⟨answers_of (u := powerOn s) rfl rfl, answers_of (u := sysRstLow s) rfl rfl, answers_of (u := sysRstRise s) rfl rfl,
    answers_of (u := porRelease s) rfl rfl⟩

/-! ### The straps (R36, R38) -/

theorem getLsbD_setBit {w : Nat} (v : BitVec w) (i j : Nat) (b : Bool) (hi : i < w) :
    (setBit v i b).getLsbD j = if j = i then b else v.getLsbD j := by
  have hbit : (BitVec.ofNat w (2 ^ i)).getLsbD j = decide (j = i) := by
    rw [BitVec.getLsbD_ofNat, Nat.testBit_two_pow]
    grind
  have hge : w ≤ j → v.getLsbD j = false := BitVec.getLsbD_of_ge v j
  cases b <;> by_cases hj : j = i <;> by_cases hw : j < w <;> simp_all [setBit]

/-- What the first n straps have latched: `latchStraps` takes all 14. -/
def latchUpTo (a b c : BitVec 14) (n : Nat) : BitVec 14 × BitVec 6 :=
  (List.range n).foldl (fun (v, d) i =>
    (setBit v i (maj3 (a.getLsbD i) (b.getLsbD i) (c.getLsbD i)),
      if a.getLsbD i == b.getLsbD i && b.getLsbD i == c.getLsbD i then d else setBit d (strapOf i) true)) (0, 0)

section
variable (a b c : BitVec 14)

theorem latchStraps_eq_latchUpTo : latchStraps a b c = latchUpTo a b c 14 := rfl

theorem latchUpTo_succ (n : Nat) : latchUpTo a b c (n + 1) =
    (setBit (latchUpTo a b c n).1 n (maj3 (a.getLsbD n) (b.getLsbD n) (c.getLsbD n)),
      if a.getLsbD n = b.getLsbD n ∧ b.getLsbD n = c.getLsbD n then (latchUpTo a b c n).2
      else setBit (latchUpTo a b c n).2 (strapOf n) true) := by
  simp only [latchUpTo, List.range_succ, List.foldl_append, List.foldl_cons, List.foldl_nil, Bool.and_eq_true, beq_iff_eq]

theorem latchUpTo_straps : ∀ n ≤ 14, ∀ i < n,
    (latchUpTo a b c n).1.getLsbD i = maj3 (a.getLsbD i) (b.getLsbD i) (c.getLsbD i)
  | 0, _, i, hi => absurd hi (Nat.not_lt_zero i)
  | n + 1, hn, i, hi => by
    rw [latchUpTo_succ, getLsbD_setBit _ _ _ _ (by omega)]
    by_cases h : i = n
    · rw [if_pos h, h]
    · rw [if_neg h, latchUpTo_straps n (by omega) i (by omega)]

theorem strapOf_lt (i : Nat) : strapOf i < 6 := by unfold strapOf; grind

theorem latchUpTo_disagree (k : Nat) : ∀ n ≤ 14, ((latchUpTo a b c n).2.getLsbD k = true ↔
    ∃ i < n, strapOf i = k ∧ ¬ (a.getLsbD i = b.getLsbD i ∧ b.getLsbD i = c.getLsbD i))
  | 0, _ => by simp [latchUpTo]
  | n + 1, hn => by
    have ih := latchUpTo_disagree k n (by omega)
    rw [latchUpTo_succ]
    simp only [Nat.lt_succ_iff_lt_or_eq, or_and_right, exists_or, exists_eq_left, ← ih]
    by_cases h : a.getLsbD n = b.getLsbD n ∧ b.getLsbD n = c.getLsbD n
    · simp [h]
    · rw [if_neg h, getLsbD_setBit _ _ _ _ (strapOf_lt n)]
      by_cases hk : k = strapOf n
      · simp [hk, h]
      · simp [hk, Ne.symm hk]

end

section
variable {s : State}

/-- While cold reset holds after the reset events, a sample is taken. -/
theorem strapSampled_of_lt (hm : s.dev.mode = .cold) (hp : s.pins.por = false) (hr : s.pins.sysRstN = true) (l : BitVec 14)
    (hn : s.pins.samples.length < 2) :
    strapSampled l s = { s with pins := { s.pins with samples := s.pins.samples ++ [l] } } := by
  have h3 : ¬ 3 ≤ s.pins.samples.length := by omega
  simp only [strapSampled, hm, hp, hr, h3, decide_true, decide_false, Bool.not_true, Bool.or_self, Bool.false_eq_true, if_false]
  split
  · rename_i h
    have := congrArg List.length h
    simp at this; omega
  · rfl

theorem strapSampled_third (hm : s.dev.mode = .cold) (hp : s.pins.por = false) (hr : s.pins.sysRstN = true) (l : BitVec 14)
    {a b : BitVec 14} (h : s.pins.samples = [a, b]) :
    strapSampled l s =
      { s with pins := { s.pins with samples := [a, b, l], straps := (latchStraps a b l).1, disagree := (latchStraps a b l).2 } } := by
  simp [strapSampled, hm, hp, hr, h]

theorem strapSampled_eq_self (l : BitVec 14)
    (h : s.dev.mode ≠ .cold ∨ s.pins.por = true ∨ s.pins.sysRstN = false ∨ 3 ≤ s.pins.samples.length) : strapSampled l s = s := by
  rcases h with h | h | h | h <;> simp [strapSampled, h]

end

/-- Settles O19: the third sample latches strap after strap, so the bits of the straps before each one stand. -/
theorem strapsLatch : Obligations.StrapsLatch := by
  unfold Obligations.StrapsLatch
  refine ⟨fun l s hm hp hr => ⟨fun hn => ?first, fun a b h => ?third, fun hn => ?more⟩, fun l s h => ?held⟩
  case first => exact answers_of (u := strapSampled l s) rfl (strapSampled_of_lt hm hp hr l hn)
  case third =>
    refine ⟨_, _, answers_of (u := strapSampled l s) rfl (strapSampled_third hm hp hr l h), ?_, ?_⟩
    · exact latchUpTo_straps a b l 14 le_rfl
    · exact fun k _ => latchUpTo_disagree a b l k 14 le_rfl
  case more => exact answers_of (u := strapSampled l s) rfl (strapSampled_eq_self l (by simp [hn]))
  case held => exact answers_of (u := strapSampled l s) rfl (strapSampled_eq_self l (by tauto))

/-! ### The release of cold reset (R86) -/

section
variable {s : State}

theorem coldRelease_ready (hm : s.dev.mode = .cold) (hp : s.pins.por = false) (hr : s.pins.sysRstN = true) (hn : s.pins.samples.length = 3)
    (locked : Bool) : coldRelease locked s =
      if locked = true ∧ xtalRuns s = true then vrmRead (coldBoot s) else { s with dev := { s.dev with pllWait := true } } := by
  simp [coldRelease, hm, hp, hr, hn]

theorem coldRelease_early (locked : Bool) (hn : s.pins.samples.length < 3) : coldRelease locked s = s := by
  simp [coldRelease, hn]

end

/-- Settles O20: a release is the cold boot when the PLLs are locked, and else waits for them; their limit boots with a fault. -/
theorem coldResetReleases : Obligations.ColdResetReleases := by
  unfold Obligations.ColdResetReleases
  intro begins s hm hp hr
  have hrel {l : Bool} {t : State} (h : coldRelease l s = t) : answers (.coldResetRelease l) s t := answers_of (u := coldRelease l s) rfl h
  refine ⟨fun hn => ⟨fun hx => ?locked, fun hx => ?lost, ?unlocked⟩, fun hn l => hrel (coldRelease_early l hn), fun hw => ?limit⟩
  case locked => exact hrel ((coldRelease_ready hm hp hr hn true).trans (if_pos ⟨rfl, hx⟩))
  case lost => exact hrel ((coldRelease_ready hm hp hr hn true).trans (if_neg (by simp [hx])))
  case unlocked => exact hrel ((coldRelease_ready hm hp hr hn false).trans (if_neg (by simp)))
  case limit => exact answers_of (u := pllTimeout s) rfl (if_pos (by simp [hm, hp, hr, hw]))

end Sys2Proof.Safety
end

section
/-! PROOFS. HOST_LOAD, the clocks and the transitions of a function (spec/04_clocks_reset_bringup.md, spec/05_registers.md Table 5.5). -/

namespace Sys2Proof.Safety

open Sys2Proof.Machine

/-! ### HOST_LOAD (R99, R100, R162) -/

/-- HOST_WAIT reads an image whose address, length and reserved bytes are in order, and runs it when it verifies. -/
theorem bootInline_hostLoad {c : Cmd} {s : State} {d : List Byte} (hop : c.op = 0x000C) (hst : s.dev.stage = 4) (hf : s.dev.fail = false)
    (ha : fieldN c.body 0 8 % 4096 = 0) (hlo : 4096 ≤ fieldN c.body 8 4) (hhi : fieldN c.body 8 4 ≤ 0x2000000)
    (hl : fieldN c.body 8 4 % 4096 = 0) (hz : zeroAt c.body 12 44 = true) (hd : readHost 0 c.rd.data s = some d) :
    bootInline c s =
      let img := slice d 0 (fieldN c.body 8 4)
      if fwVerify img s.sec.fuse = .ok then
        (fwInit (tenthsOf c.rd.aclk) (runFirmware 0 (fwVersion img) (secMeasure img (fwSvn img) s)), .ok, 0)
      else (s, .fault, 2) := by
  have hlo' : ¬ fieldN c.body 8 4 < 4096 := by omega
  have hhi' : ¬ 0x2000000 < fieldN c.body 8 4 := by omega
  simp only [bootInline, hop, hst, hf, ha, hlo', hhi', hl, hz, hd, runImage]
  by_cases hv : fwVerify (slice d 0 (fieldN c.body 8 4)) s.sec.fuse = .ok <;> simp [hv]

theorem inlineCmd_boot {c : Cmd} {s : State} (hb : s.host.inl.busy = false) (hm : s.dev.mode = .boot) (hi : inlineInBoot s = true) :
    inlineCmd c s = bootCmd c s := by
  simp [inlineCmd, hb, hm, hi]

/-- Settles O22: the inline mailbox hands the command to the boot ROM, and the completion carries what HOST_WAIT answers. -/
theorem hostLoadRuns : Obligations.HostLoadRuns := by
  unfold Obligations.HostLoadRuns
  intro c0 s c hmb hb hm hi hst hf p len ha hlo hhi hl hz b d hd img k done
  have harr : arrive c s = bootCmd c s := by
    rw [arrive, if_neg (by omega), hmb]; exact inlineCmd_boot hb hm hi
  have hrun : bootInline c b = _ := bootInline_hostLoad (s := b) rfl hst hf ha hlo hhi hl hz hd
  refine answers_of (u := arrive c s) rfl ?_
  rw [harr, bootCmd, hrun]
  by_cases hv : fwVerify img s.sec.fuse = Verdict.ok
  · rw [if_pos hv]
    have hv' : fwVerify (slice d 0 (fieldN c.body 8 4)) b.sec.fuse = .ok := hv
    simp only [hv', if_true]
    rfl
  · rw [if_neg hv]
    have hv' : ¬ fwVerify (slice d 0 (fieldN c.body 8 4)) b.sec.fuse = .ok := hv
    simp only [hv', if_false]
    rfl

/-- Settles O24: outside COLD a clock that is lost or back has its whole effect, and in COLD it is marked alone. -/
theorem clockAndThermalEventsComplete : Obligations.ClockAndThermalEventsComplete := by
  unfold Obligations.ClockAndThermalEventsComplete
  refine ⟨?running, ?cold, ?trip, ?rail, ?heartbeat⟩
  case running => exact fun k s hm => ⟨acts_of (f := clockLost k) rfl (if_neg hm), acts_of (f := clockBack k) rfl (if_neg hm)⟩
  case cold => exact fun k s hm => ⟨acts_of (f := clockLost k) rfl (if_pos hm), acts_of (f := clockBack k) rfl (if_pos hm)⟩
  case trip => exact fun die s h => acts_of (f := thermalTripped die) rfl (if_neg (Nat.not_le.2 h))
  case rail => exact fun k s h => acts_of (f := railOut k) rfl (if_neg (Nat.not_le.2 h))
  case heartbeat =>
    intro s hc hs hf hst hd
    have hst' : ¬ s.dev.stage < 5 := Nat.not_lt.2 hst
    exact answers_of (u := heartbeatTick s) rfl (if_neg (by simp [hc, hs, hf, hst', hd]))

/-- Settles O28: a transition ends where the function is in it, and is then the branch that the statement writes out. -/
theorem functionTransitionsEnd : Obligations.FunctionTransitionsEnd := by
  unfold Obligations.FunctionTransitionsEnd
  constructor
  · exact fun f s hh hs => live_of (f := funcValid f) rfl hh (if_neg (by simp [hs]))
  · exact fun f s hh hs hd => live_of (f := funcDrain f) rfl hh (if_neg (by simp [hs, hd]))

end Sys2Proof.Safety
end

section
/-! PROOFS. What follows an event (spec/95_what_each_step_holds.md): each sweep of Masthead leaves a state in which it finds nothing. -/

namespace Sys2Proof.Safety

open Sys2Proof.Machine

/-- A pass over a list whose every entry leaves the state leaves the state. -/
theorem foldl_eq_self {α β : Type} {f : β → α → β} {b : β} : ∀ {l : List α}, (∀ x ∈ l, f b x = b) → l.foldl f b = b
  | [], _ => rfl
  | x :: l, h => by
    rw [List.foldl_cons, h x List.mem_cons_self]
    exact foldl_eq_self fun y hy => h y (List.mem_cons_of_mem x hy)

section
variable {s : State}

theorem postDirects_of_noCmds (h : s.host.cmds = []) : postDirects s = s := postDirects_ring s (by simp [h])

theorem startAll_of_noCmds (h : s.host.cmds = []) : ∀ n, startAll n s = s
  | 0 => rfl
  | n + 1 => by rw [startAll, h]; rfl

theorem retireSweep_of_listed
    (h : ((s.mem.pages.filter (fun p => p.2.use = .retired && !p.2.unrecorded)).map (·.1)).take 1024 = s.mem.listed) : retireSweep s = s :=
  if_pos h

theorem dyingSweep_of_noneDying
    (h : (s.srv.regions.any (fun r => r.2.fn = dying) || s.srv.models.any (fun r => r.2.fn = dying) || s.furl.pins.any (fun r => r.2.fn = dying) ||
      s.shr.maps.any (fun r => r.2.fn = dying) || s.frame.ctxs.any (fun r => r.2.fn = dying)) = false) : dyingSweep s = s :=
  if_pos (by rw [h]; rfl)

theorem announceSweep_of_said (h : (speaks s && decide (s.rack.said ≠ sayNow s)) = false) : announceSweep s = s :=
  if_neg (by rw [h]; exact Bool.false_ne_true)

theorem sysEnsure_of_keyed {e : Nat} (h : ∀ a, (peerOf e s).ann = some a → a.ecdh = (peerOf e s).sysKey) : sysEnsure e s = s := by
  unfold sysEnsure
  cases ha : (peerOf e s).ann with
  | none => rfl
  | some a => simp [h a ha]

theorem memberSweep_of_same (hm : activeMask s = s.rack.active)
    (hk : ∀ e < 72, s.rack.active.getLsbD e = true → ∀ a, (peerOf e s).ann = some a → a.ecdh = (peerOf e s).sysKey) : memberSweep s = s := by
  have hlost : (List.range 72).filter (fun e => s.rack.active.getLsbD e && !s.rack.active.getLsbD e) = [] := by simp
  simp only [memberSweep, hm, if_true, hlost, List.foldl_nil]
  split
  · rfl
  · refine foldl_eq_self fun e he => ?_
    split
    · exact sysEnsure_of_keyed (hk e (List.mem_range.1 he) (by assumption))
    · rfl

theorem restoresDone_of_noRestores (h : s.reef.restores = []) : restoresDone s = s := by rw [restoresDone, h]; rfl

theorem confirmAll_of_noneFrozen (h : ∀ c ∈ s.srv.ctxs, (c.2.hosted.isSome && c.2.frozen) = false) : confirmAll s = s :=
  foldl_eq_self fun c hc => if_neg (by rw [h c hc]; exact Bool.false_ne_true)

theorem modFurl_eq_self {f : Furl → Furl} (h : f s.furl = s.furl) : modFurl f s = s := by rw [modFurl, h]

theorem probesDone_of_noProbes (h : s.furl.probes = []) : probesDone s = s := by
  have hp : modFurl (fun u => { u with probes := [] }) s = s := modFurl_eq_self (by rw [← h])
  simp only [probesDone, h, List.foldl_nil, List.all_nil, if_true, hp]

theorem frameFaults_of_noneBad (h : ∀ c ∈ s.srv.ctxs, ∀ r, c.2.req = some r → frameBad r s = false) : frameFaults s = s := by
  refine foldl_eq_self fun c hc => ?_
  cases hr : c.2.req with
  | none => rfl
  | some r => exact if_neg (by rw [h c hc r hr]; exact Bool.false_ne_true)

theorem furlSettle_of_noSelf (h : s.furl.selfq = []) : furlSettle s = s := by rw [furlSettle, furlRun, h]

theorem lostBlocks_of_noneLost (h : newlyLost s = []) : lostBlocks s = s := by rw [lostBlocks, h]; rfl

theorem loadsDone_of_noneOver (h : ∀ l ∈ s.shr.loads, l.left ≠ 0) : loadsDone s = s := by
  rw [loadsDone, List.filter_eq_nil_iff.2 (by simpa using h)]; rfl

theorem cowSweep_of_noneOver (h : ∀ y ∈ s.furl.copies, (!y.nvme && decide (y.left = 0)) = false) : cowSweep s = s := by
  rw [cowSweep, List.filter_eq_nil_iff.2 fun y hy => by rw [h y hy]; exact Bool.false_ne_true]; rfl

theorem lookupsFailed_of_noneFailed (h : s.furl.failed = []) : lookupsFailed s = s := by
  have hp : modFurl (fun u => { u with failed := [] }) s = s := modFurl_eq_self (by rw [← h])
  simp only [lookupsFailed, h, List.foldl_nil, hp]

theorem endDispatches_of_noneEnding (h : ∀ d ∈ s.srv.dispatches, (d.2.live && d.2.ending) = false) : endDispatches s = s :=
  foldl_eq_self fun d hd => if_neg (by rw [h d hd]; exact Bool.false_ne_true)

theorem flrSweep_of_noFlr (h : ∀ p ∈ s.pcie.fns, p.2.flr = false) : flrSweep s = s := by
  have : s.pcie.fns.any (fun p => p.2.flr) = false := List.any_eq_false.2 fun p hp => by rw [h p hp]; exact Bool.false_ne_true
  rw [flrSweep, this]; rfl

theorem linkMapSweep_of_said (h : linkMapData s = s.stay.mapSaid) : linkMapSweep s = s := if_pos h

/-- No packet that waits for a Stay link has lost the link's virtual channel. -/
theorem holdSweep_of_ready
    (hq : ∀ c ∈ s.trim.qs, 16 ≤ c.1 → ∀ k ∈ c.2.pkts, k.started = true ∨ vcState k.vc s = .ready)
    (hw : ∀ w ∈ s.trim.waiting, 16 ≤ w.1 → w.2.started = true ∨ vcState w.2.vc s = .ready) : holdSweep s = s := by
  have hbad : (s.trim.qs.any (fun c => c.2.pkts.any (fun k => decide (16 ≤ c.1) && !k.started && !decide (vcState k.vc s = .ready))) ||
      s.trim.waiting.any (fun w => decide (16 ≤ w.1) && !w.2.started && !decide (vcState w.2.vc s = .ready))) = false := by
    simp only [Bool.or_eq_false_iff, List.any_eq_false]
    constructor
    · intro c hc
      simp only [List.any_eq_true, not_exists]
      rintro k ⟨hk, hb⟩
      have := hq c hc
      grind
    · intro w hww
      have := hw w hww
      grind
  exact if_neg (by rw [hbad]; exact Bool.false_ne_true)

/-- Nothing follows where nothing waits. -/
theorem settle_of_nothingWaits (h : nothingWaits s = true) : settle s = s := by
  simp only [nothingWaits, Bool.and_eq_true, Bool.not_eq_true', List.isEmpty_iff, decide_eq_true_eq] at h
  obtain ⟨⟨⟨⟨⟨⟨⟨⟨⟨⟨⟨⟨⟨⟨⟨⟨⟨⟨⟨hcmds, hlisted⟩, hdying⟩, hsaid⟩, hmask⟩, hkeys⟩, hrestores⟩, hhosted⟩, hqs⟩, hwaiting⟩, hprobes⟩, hself⟩, hlost⟩,
    hframes⟩, hflr⟩, hloads⟩, hcopies⟩, hfailed⟩, hends⟩, hmap⟩ := h
  have hframes : ∀ c ∈ s.srv.ctxs, ∀ r, c.2.req = some r → frameBad r s = false := by
    intro c hc r hr
    have := List.all_eq_true.1 hframes c hc
    simpa [hr] using this
  have hkeys : ∀ e < 72, s.rack.active.getLsbD e = true → ∀ a, (peerOf e s).ann = some a → a.ecdh = (peerOf e s).sysKey := by
    intro e he ha a hann
    have := List.all_eq_true.1 hkeys e (List.mem_range.2 he)
    simpa [ha, hann] using this
  simp only [List.all_eq_true, Bool.not_eq_true', Bool.or_eq_true, decide_eq_true_eq, decide_eq_false_iff_not] at hhosted hqs hwaiting hflr hloads hcopies hends
  have hdie := dyingSweep_of_noneDying hdying
  have hpost := postDirects_of_noCmds hcmds
  have hstart := startAll_of_noCmds hcmds
  have hfl := flrSweep_of_noFlr hflr
  have hsweeps : sweeps s = s := by
    have hcow : ∀ y ∈ s.furl.copies, (!y.nvme && decide (y.left = 0)) = false := fun y hy => by
      rcases hcopies y hy with h | h <;> simp [h]
    rw [sweeps, endDispatches_of_noneEnding hends, lookupsFailed_of_noneFailed hfailed, cowSweep_of_noneOver hcow,
      loadsDone_of_noneOver hloads, lostBlocks_of_noneLost hlost, furlSettle_of_noSelf hself, frameFaults_of_noneBad hframes,
      probesDone_of_noProbes hprobes, confirmAll_of_noneFrozen hhosted, restoresDone_of_noRestores hrestores,
      memberSweep_of_same hmask hkeys, announceSweep_of_said hsaid, hdie, retireSweep_of_listed hlisted]
  have hmast : mastheadSettles s = s := by
    unfold mastheadSettles
    split
    · simp only [hpost, hstart, hsweeps, hfl]
    · rw [hdie, hfl]
  have hhold : holdSweep s = s := holdSweep_of_ready
    (fun c hc h16 => ((hqs c hc).resolve_left (by omega))) (fun w hw h16 => by
      rcases hwaiting w hw with (h | h) | h
      · omega
      · exact .inl h
      · exact .inr h)
  rw [settle, hmast, hhold, linkMapSweep_of_said hmap]

end

/-- Settles O5: with nothing left to follow, what Masthead does upon an event leaves the state. -/
theorem quietEventsHaveTheirEffectAlone : Obligations.QuietEventsHaveTheirEffectAlone := by
  unfold Obligations.QuietEventsHaveTheirEffectAlone
  refine ⟨fun s h => settle_of_nothingWaits h, fun i s t ha h => ?_⟩
  have hs := settle_of_nothingWaits h
  rwa [acts, hs] at ha

end Sys2Proof.Safety
end

section
/-! PROOFS. The rows of the command catalogue (spec/07_command_catalogue.md): a row is what its opcode selects, and it runs once its own
checks pass. -/

namespace Sys2Proof.Safety

open Sys2Proof.Machine

/-- None of a list of checks answers: `passes`, as a predicate that simplification keeps whole for a list it does not know. -/
def NoneAnswers (l : List (Bool × Status × Nat)) : Prop := ∀ x ∈ l, x.1 = false

section

variable {bad : Bool} {st : Status} {d : Nat} {l m : List (Bool × Status × Nat)} {k : Unit → State × Answer} {s : State}

@[simp] theorem noneAnswers_nil : NoneAnswers [] := by simp [NoneAnswers]

@[simp] theorem noneAnswers_cons : NoneAnswers ((bad, st, d) :: l) ↔ bad = false ∧ NoneAnswers l := by simp [NoneAnswers]

@[simp] theorem noneAnswers_append : NoneAnswers (l ++ m) ↔ NoneAnswers l ∧ NoneAnswers m := by simp [NoneAnswers, or_imp, forall_and]

theorem noneAnswers_of_passes (h : passes l) : NoneAnswers l := fun x hx => by simpa using List.all_eq_true.1 h x hx

theorem checks_of_none (h : NoneAnswers l) : checks l k s = k () :=
  checks_pass l k s (List.all_eq_true.2 fun x hx => by simp [h x hx])

theorem checkAll_of_none {gs : List (List (Bool × Status × Nat))} (h : NoneAnswers gs.flatten) : checkAll gs k s = k () := checks_of_none h

end

section

variable {mk : Cmd → Instr} {op : Nat} {f : Cmd → Nat × Nat → State → State × Answer} {pre : Cmd → State → Prop}

/-- A row that completes with OK, by what its opcode selects. -/
theorem rowOk_of_do {post : Cmd → State → State × List Byte}
    (h : ∀ c s, c.op = op → letIn c s → pre c (begun c s) → f c (refOf c s) (begun c s) = okWith (post c (begun c s)).2 (post c (begun c s)).1)
    (hx : ∀ c s, exec (mk c) s = .next (arrive { c with op := op } s) := by intros; rfl)
    (hd : ∀ c r b, c.op = op → doRow c r b = f c r b := by intro c r b h; simp only [doRow, h]) :
    rowOk mk op pre post :=
  rowOk_of hx fun c s hop hl hp => (hd c _ _ hop).trans (h c s hop hl hp)

/-- A row that ends with a status of its own. -/
theorem rowEnds_of_do {post : Cmd → State → State × Status × Nat × List Byte} (h5 : op ≠ 0x0501) (h6 : op ≠ 0x0606)
    (h : ∀ c s, c.op = op → letIn c s → pre c (begun c s) → f c (refOf c s) (begun c s) =
      ((post c (begun c s)).1, .now (post c (begun c s)).2.1 (post c (begun c s)).2.2.1 (post c (begun c s)).2.2.2))
    (hx : ∀ c s, exec (mk c) s = .next (arrive { c with op := op } s) := by intros; rfl)
    (hd : ∀ c r b, c.op = op → doRow c r b = f c r b := by intro c r b h; simp only [doRow, h]) :
    rowEnds mk op pre post :=
  rowEnds_of hx h5 h6 fun c s hop hl hp => (hd c _ _ hop).trans (h c s hop hl hp)

/-- A row whose result comes later. -/
theorem rowBegins_of_do {post : Cmd → Nat × Nat → State → State}
    (h : ∀ c s, c.op = op → letIn c s → pre c (begun c s) → f c (refOf c s) (begun c s) = (post c (refOf c s) (begun c s), .later))
    (hx : ∀ c s, exec (mk c) s = .next (arrive { c with op := op } s) := by intros; rfl)
    (hd : ∀ c r b, c.op = op → doRow c r b = f c r b := by intro c r b h; simp only [doRow, h]) :
    rowBegins mk op pre post :=
  rowBegins_of hx fun c s hop hl hp => (hd c _ _ hop).trans (h c s hop hl hp)

end

/-! ### The command that runs -/

section
variable (c : Cmd) (s : State)

theorem begun_nextId : (begun c s).host.nextId = s.host.nextId + 1 := by
  unfold begun
  cases sourceAddr c with
  | none => rfl
  | some a =>
    dsimp only
    split
    · obtain ⟨p, h⟩ := noteAts_shape (mbReq c.mb s) a { s with host := { s.host with
        mbx := Tab.mod s.host.mbx c.mb (fun m => { m with nextSeq := wrapInc 32 m.nextSeq, fetched := m.fetched + 1 })
        cmds := [outstOf c .running s], nextId := s.host.nextId + 1 } }
      rw [h]
    · rfl

theorem refOf_begun : refOf c s = (c.mb, (begun c s).host.nextId - 1) := by
  rw [begun_nextId, Nat.add_sub_cancel]; rfl

/-- A FORCE close spares the command that asks for it, and no other is outstanding. -/
theorem forceStale_begun : forceStale c.mb (some (refOf c s).2) (begun c s) = cancelReqs c.mb (begun c s) := by
  have hcmds : (begun c s).host.cmds.map (fun o => if o.cmd.mb = c.mb && some o.id ≠ some (refOf c s).2 && o.known?.isNone then
      { o with prog := .known (mkCpl o .stale 0 []) } else o) = (begun c s).host.cmds := by
    rw [begun_cmds]; simp [outstOf, refOf]
  rw [forceStale, hcmds]

end

/-! ### Device and session commands (Table 7.4) -/

/-- Settles O6: each row is what its opcode selects, and its checks are the ones its premise excludes. -/
theorem deviceCommandsComplete : Obligations.DeviceCommandsComplete := by
  unfold Obligations.DeviceCommandsComplete
  refine ⟨?readiness, ?identity, ?sessionOpen, ?sessionClose, ?vfBind, ?deviceReset, ?statsRead⟩
  case readiness => exact rowOk_of_do (f := doReadiness) fun _ _ _ _ _ => rfl
  case identity => exact rowOk_of_do (f := doIdentity) fun _ _ _ _ _ => rfl
  case sessionOpen =>
    refine rowOk_of_do (f := doSessionOpen) fun c s _ hl ⟨hlo, hhi, htimeout, hflr, hsess⟩ => checks_of_none ?_
    have hmb := letIn_mb hl
    simp only [noneAnswers_cons, noneAnswers_nil, and_true]
    grind
  case sessionClose =>
    refine rowOk_of_do (f := doSessionClose) fun c s _ hl hflag => ?_
    have hflag : fieldN (payloadOf c) 0 1 ≤ 1 := hflag
    rw [doSessionClose, checks_of_none (by simp [begun_cmds, outstOf, refOf]; omega), forceStale_begun, ← refOf_begun]
    rfl
  case vfBind =>
    refine rowOk_of_do (f := doVfBind) fun c s _ hl ⟨hlo, hhi, hop, hsess, htenant⟩ => checks_of_none ?_
    simp only [noneAnswers_cons, noneAnswers_nil, and_true, ← Option.not_isSome]
    grind
  case deviceReset =>
    refine rowBegins_of_do (f := doDeviceReset) fun c s _ hl h => checks_of_none ?_
    simp only [noneAnswers_cons, noneAnswers_nil, and_true]
    grind
  case statsRead =>
    refine rowOk_of_do (f := doStatsRead) fun c s _ hl ⟨hblock, hflag, hfound, hown⟩ => checks_of_none ?_
    simp only [noneAnswers_cons, noneAnswers_nil, and_true]
    grind
/-! ### The commands of functions, supplies, Telltale and time (Tables 7.4, 7.15, 7.16) -/

theorem bitN_zero_of_le_one {n : Nat} (h : n ≤ 1) : bitN n 0 = decide (n = 1) := by
  obtain rfl | rfl : n = 0 ∨ n = 1 := by omega
  all_goals rfl

/-- The severity codes of TT_SEVERITY. -/
theorem sev_of_code {v : Nat} (h : v ≤ 3) : (if v = 0 then Sev.info else if v = 1 then .corrected else if v = 2 then .degraded else .fatal) =
    [Sev.info, .corrected, .degraded, .fatal].getD v .fatal := by
  obtain rfl | rfl | rfl | rfl : v = 0 ∨ v = 1 ∨ v = 2 ∨ v = 3 := by omega
  all_goals rfl

/-- Settles O7: each row is what its opcode selects, and a transition begins or has nothing to do by the state its premise names. -/
theorem functionPowerTelltaleTimeCommandsComplete : Obligations.FunctionPowerTelltaleTimeCommandsComplete := by
  unfold Obligations.FunctionPowerTelltaleTimeCommandsComplete
  refine ⟨?starts, ?started, ?stops, ?stopped, ?policyAsked, ?policySet, ?powerStatus, ?severity, ?ttRead, ?ttClear, ?source, ?timeStatus⟩
  case starts =>
    refine rowBegins_of_do (f := doFuncStart) fun c s _ _ ⟨hf, hst⟩ => ?_
    rw [doFuncStart, checks_of_none (by simp [hf, hst]), if_neg (by simp [hst])]
  case started =>
    refine rowOk_of_do (f := doFuncStart) fun c s _ _ ⟨hf, hst⟩ => ?_
    rw [doFuncStart, checks_of_none (by simp [hf, hst]), if_pos hst]
  case stops =>
    refine rowBegins_of_do (f := doFuncStop) fun c s _ _ ⟨hf, hst⟩ => ?_
    rw [doFuncStop, checks_of_none (by simp [hf, hst]), if_neg (by simp [hst])]
  case stopped =>
    refine rowOk_of_do (f := doFuncStop) fun c s _ _ ⟨hf, hst⟩ => ?_
    rw [doFuncStop, checks_of_none (by simp [hf, hst]), if_pos hst]
  case policyAsked => exact rowOk_of_do (f := doPowerPolicy) fun c s _ _ h => if_pos h
  case policySet =>
    refine rowOk_of_do (f := doPowerPolicy) fun c s _ _
      ⟨hlen, hmin, hmin', hmax, hmax', hcap, hcap', hnon, hnon', hf0, hf1, havs, h13, h14, h15⟩ => ?_
    rw [doPowerPolicy, if_neg hlen]
    exact checks_of_none (by simp only [noneAnswers_cons, noneAnswers_nil, and_true]; grind)
  case powerStatus =>
    refine rowOk_of_do (f := doPowerStatus) fun c s _ _ h => ?_
    have h : fieldN (payloadOf c) 0 1 ≤ 1 := h
    rw [doPowerStatus, checks_of_none (by simpa using h), bitN_zero_of_le_one h]
    simp only [decide_eq_true_eq]
  case severity =>
    refine rowOk_of_do (f := doTtSeverity) fun c s _ _ ⟨hsrc, hres, hdir, hv⟩ => ?_
    rw [doTtSeverity, checks_of_none (by simp [hsrc, hres, hdir]; omega), sev_of_code hv]
  case ttRead =>
    refine rowOk_of_do (f := doTtRead) fun c s _ _ _ => ?_
    rfl
  case ttClear =>
    refine rowOk_of_do (f := doTtClear) fun c s _ _ ⟨hsrc, hf⟩ => checks_of_none ?_
    simp only [noneAnswers_cons, noneAnswers_nil, and_true]
    grind
  case source =>
    refine rowOk_of_do (f := doTimeSource) fun c s _ _ ⟨hsrc, hpps, hdom, hz, hst⟩ => checks_of_none ?_
    simp only [noneAnswers_cons, noneAnswers_nil, and_true]
    grind
  case timeStatus => exact rowOk_of_do (f := doTimeStatus) fun _ _ _ _ _ => rfl

end Sys2Proof.Safety
end

section
/-! PROOFS. The memory, NVMe and model commands (spec/07_command_catalogue.md Tables 7.6, 7.7): what each row's checks leave to it. -/

namespace Sys2Proof.Safety

open Sys2Proof.Machine

theorem memRead_of_rangeClean {a n : Nat} {s : State} (h : rangeClean a n s = true) : memRead a n s = (some (rawRead a n s), s) :=
  memRead_clean (List.isEmpty_iff.1 h)

section
variable {c : Cmd} {r : Nat × Nat} {b : State}

theorem doMemAlloc_of_goes (h : memAllocGoes c b) : doMemAlloc c r b =
    (let p := payloadOf c
     let n := fieldN p 0 8 / 0x200000
     let k := (findRun (fun k => pageFree k b) n 196608 0 0).getD 0
     let i := (freeIdx b.srv.regions (·.live) 65536).getD 0
     let g := firstGen (regionOf i b).gen
     okWith (leBytes 4 (handleOf i g) ++ [0, 0, 0, 0] ++ leBytes 8 (k * 0x200000))
       (takeRegion k n (fieldN p 8 2) (bitN (fieldN p 10 1) 0) i
         (modSrv (fun v => { v with regions := Tab.put v.regions i { gen := g, live := true, fn := mbFn c.mb b, tenant := fieldN p 8 2, page := k, pages := n } }) b))) := by
  obtain ⟨hz, hsize, hmax, hten, hflag, hother, hkey, hrun, hidx⟩ := h
  have hn : fieldN (payloadOf c) 0 8 / 0x200000 ≤ 196608 := by omega
  simp only [doMemAlloc, if_pos hn]
  refine checkAll_of_none ?_
  simp only [List.flatten_cons, List.flatten_nil, noneAnswers_append, noneAnswers_cons, noneAnswers_nil, and_true, ← Option.not_isSome]
  grind

theorem doModelLoad_of_goes (h : modelLoadGoes c b) : doModelLoad c r b =
    (let p := payloadOf c
     let rg := regionOf (fieldN p 12 4 % 65536) b
     let img := slice ((readHost (mbReq c.mb b) c.rd.data b).getD []) 0 (fieldN p 8 4)
     let base := rg.page * 0x200000
     let ys := loadRelocs base (devNum b) (placeAll img (sectHdrs img) 0)
     let i := (freeIdx b.srv.models (fun m => m.live) 65536).getD 0
     let g := firstGen (modelOf i b).gen
     okWith (leBytes 4 (handleOf i g) ++ leBytes 4 ((kernels ys).foldl (fun n k => max n k.nt) 0))
      (modModel i (fun _ =>
        { gen := g, live := true, fn := mbFn c.mb b, tenant := fieldN p 24 2, shared := bitN (fieldN p 26 1) 0, tag := fieldN p 16 8,
          crc := fieldN img 12 4, region := fieldN p 12 4 % 65536, layers := fieldN img 24 2, stepsSect := fieldN img 26 2,
          sects := ys.map (fun x => if placed x.typ then { x with base := base + x.base } else x), blockBytes := declaredBlock ys })
        (ys.foldl (fun s x => putSect base x s) b))) := by
  obtain ⟨hshared, hten, hflag, hregion, hother, hkey, hidx, hread, hload⟩ := h
  obtain ⟨d, hd⟩ := Option.isSome_iff_exists.1 hread
  have hflag' : ¬ 2 ≤ fieldN (payloadOf c) 26 1 := by omega
  simp only [hd, Option.getD_some] at hload ⊢
  simp only [doModelLoad, hd, Option.map_some, Option.getD_some, hload]
  refine checkAll_of_none ?_
  simp [noneAnswers_of_passes hregion, hten, hflag', hother, hkey]
  exact ⟨hshared, hidx⟩

end

/-- Settles O8: the groups of checks pass on what each premise asks, and the row is then its effect. -/
theorem memoryAndModelCommandsComplete : Obligations.MemoryAndModelCommandsComplete := by
  unfold Obligations.MemoryAndModelCommandsComplete
  refine ⟨?alloc, ?free, ?copyIn, ?copyOut, ?copyHere, ?aperture, ?nvme, ?load, ?unload, ?fromHost, ?fromHere, ?fromPeer⟩
  case alloc => exact rowOk_of_do fun c s _ _ h => doMemAlloc_of_goes h
  case free =>
    refine rowOk_of_do (f := doMemFree) fun c s _ _ ⟨hregion, hused⟩ => checkAll_of_none ?_
    simp [noneAnswers_of_passes hregion, hused]
  case copyIn =>
    refine rowOk_of_do (f := doMemCopy) fun c s _ _ ⟨hdir, hlen, hregion, hdst, hread⟩ => ?_
    obtain ⟨d, hd⟩ := Option.isSome_iff_exists.1 hread
    rw [doMemCopy, checkAll_of_none (by simp [hdir, hlen, noneAnswers_of_passes hregion, hdst])]
    simp [hdir, hd]
  case copyOut =>
    refine rowOk_of_do (f := doMemCopy) fun c s _ _ ⟨hdir, hlen, hregion, hissue, hsrc, hclean⟩ => ?_
    rw [doMemCopy, checkAll_of_none (by simp [hdir, hlen, noneAnswers_of_passes hregion, hsrc])]
    simp [hdir, memRead_of_rangeClean hclean, hissue]
  case copyHere =>
    refine rowOk_of_do (f := doMemCopy) fun c s _ _ ⟨hdir, hlen, hregion, hsrc, hdst, hclean⟩ => ?_
    rw [doMemCopy, checkAll_of_none (by simp [hdir, hlen, noneAnswers_of_passes hregion, hsrc, hdst])]
    simp [hdir, memRead_of_rangeClean hclean]
  case aperture =>
    refine rowOk_of_do (f := doApertureSet) fun c s _ _ ⟨halign, hlt⟩ => checks_of_none ?_
    simp [halign, hlt]
  case nvme =>
    refine rowOk_of_do (f := doNvmeCfg) fun c s _ _ ⟨hmode, hflags, hioq, hioq', hst⟩ => checks_of_none ?_
    simp only [noneAnswers_cons, noneAnswers_nil, and_true]
    grind
  case load => exact rowOk_of_do fun c s _ _ h => doModelLoad_of_goes h
  case unload =>
    refine rowOk_of_do (f := doModelUnload) fun c s _ _ ⟨hobj, hused⟩ => checkAll_of_none ?_
    simp [noneAnswers_of_passes hobj, hused]
  case fromHost =>
    refine rowOk_of_do (f := doWeightsLoad) fun c s _ _ ⟨hsrc, hz, hconn, hobj, hk, htyp, hlen, hused, hread⟩ => ?_
    obtain ⟨d, hd⟩ := Option.isSome_iff_exists.1 hread
    rw [doWeightsLoad]
    dsimp only
    rw [checkAll_of_none (by simp [-List.getD_eq_getElem?_getD, hsrc, hz, hconn, noneAnswers_of_passes hobj, hk, htyp, hlen, hused])]
    simp [hsrc, hd]
  case fromHere =>
    refine rowOk_of_do (f := doWeightsLoad) fun c s _ _ ⟨⟨hsrc, hdev, hrange, hz, hobj, hk, htyp, hlen, hused⟩, hown, hclean⟩ => ?_
    rw [doWeightsLoad]
    dsimp only
    rw [checkAll_of_none (by simp [-Nat.reducePow, -List.getD_eq_getElem?_getD, hsrc, hown ▸ hdev, hrange, hown, hz, noneAnswers_of_passes hobj, hk, htyp, hlen, hused])]
    simp [-Nat.reducePow, hsrc, hown, memRead_of_rangeClean hclean]
  case fromPeer =>
    refine rowBegins_of_do (f := doWeightsLoad) fun c s _ _ ⟨⟨hsrc, hdev, hrange, hz, hobj, hk, htyp, hlen, hused⟩, hown, hconn⟩ => ?_
    rw [doWeightsLoad]
    dsimp only
    rw [checkAll_of_none (by simp [-Nat.reducePow, -List.getD_eq_getElem?_getD, hsrc, hdev, hrange, hown, hz, noneAnswers_of_passes hobj, noneAnswers_of_passes hconn, hk, htyp, hlen, hused])]
    simp [-Nat.reducePow, hsrc, hown]

end Sys2Proof.Safety
end

section
/-! PROOFS. The context and SUBMIT commands (spec/07_command_catalogue.md Tables 7.5, 7.8, 7.9). -/

namespace Sys2Proof.Safety

open Sys2Proof.Machine

section
variable {c : Cmd} {r : Nat × Nat} {b : State}

theorem doCtxAlloc_of_goes (h : ctxAllocGoes c b) : doCtxAlloc c r b =
    (let p := payloadOf c
     let mi := fieldN p 0 4 % 65536
     let i := (freeIdx b.srv.ctxs (fun x => x.live) 4096).getD 0
     let g := firstGen (ctxOf i b).gen
     okWith (leBytes 4 (handleOf i g)) (modCtx i (fun _ =>
       { gen := g, live := true, fn := mbFn c.mb b, tenant := fieldN p 4 2, model := mi, pdom := fieldN p 6 2, prio := fieldN p 8 1,
         noFurl := bitN (fieldN p 9 1) 0 || (modelOf mi b).blockBytes = 0 }) b)) := by
  obtain ⟨hten, hdom, hprio, hflag, hmodel, hother, hshared, hopen, hmask, hweights, hidx⟩ := h
  refine checkAll_of_none ?_
  simp only [List.flatten_cons, List.flatten_nil, noneAnswers_append, noneAnswers_cons, noneAnswers_nil, and_true,
    noneAnswers_of_passes hmodel, true_and, ← Option.not_isSome]
  grind

/-- A SUBMIT whose checks pass goes to the device that serves its context, or starts its request here. -/
theorem doSubmit_of_asks (h : submitAsks c b)
    (hserve : (ctxOf (fieldN (payloadOf c) 0 4 % 65536) b).evacuated = true ∧ (ctxOf (fieldN (payloadOf c) 0 4 % 65536) b).destLost = false ∨
      (ctxOf (fieldN (payloadOf c) 0 4 % 65536) b).evacuated = false ∧
        (placePriv (fieldN (payloadOf c) 0 4 % 65536) (submitPages c b) (submitFrom c b)).isSome = true) :
    doSubmit c r b =
      (let h := fieldN (payloadOf c) 0 4
       let i := h % 65536
       if (ctxOf i b).evacuated then
         (reefSend (ctxOf i b).dest (.submit h (payloadOf c) (submitIds c b)) (modCtx i (fun y => { y with req := some (submitReq c r b) }) b), .later)
       else
         (furlSettle (startReq i (submitReq c r b) (bitN (fieldN (payloadOf c) 4 1) 2) (submitIds c b)
           ((placePriv i (submitPages c b) (submitFrom c b)).getD b)), .later)) := by
  obtain ⟨hfl, hz, hnew, hn, hn', hcont, hframe, hsrc, hout, hctx, hreq, hread⟩ := h
  have hlost : ((ctxOf (fieldN (payloadOf c) 0 4 % 65536) b).evacuated && (ctxOf (fieldN (payloadOf c) 0 4 % 65536) b).destLost) = false := by
    rcases hserve with ⟨-, hd⟩ | ⟨ha, -⟩ <;> simp [*]
  have hroom : (!(ctxOf (fieldN (payloadOf c) 0 4 % 65536) b).evacuated &&
      (placePriv (fieldN (payloadOf c) 0 4 % 65536) (submitPages c b) (submitFrom c b)).isNone) = false := by
    rcases hserve with ⟨ha, -⟩ | ⟨-, hp⟩
    · rw [ha]; rfl
    · rw [← Option.not_isSome, hp, Bool.not_true, Bool.and_false]
  obtain ⟨hno, hpos, hobj⟩ : (!bitN (fieldN (payloadOf c) 4 1) 1 && decide (fieldN (payloadOf c) 12 4 ≠ 0)) = false ∧
      (bitN (fieldN (payloadOf c) 4 1) 1 && decide (fieldN (payloadOf c) 8 4 < fieldN (payloadOf c) 40 4)) = false ∧
      NoneAnswers (if bitN (fieldN (payloadOf c) 4 1) 1 then
        (let t := slotOf (fieldN (payloadOf c) 12 4 % 65536 / 4) (fieldN (payloadOf c) 12 4 % 4) b
         let y := fctxOf (fieldN (payloadOf c) 12 4 % 65536 / 4) b
         objChecks c (fieldN (payloadOf c) 12 4) 1024 t.gen (y.live && t.st ≠ .free) y.fn b) else []) := by
    unfold submitFrame at hframe
    by_cases hb : bitN (fieldN (payloadOf c) 4 1) 1 = true
    · rw [if_pos hb] at hframe
      obtain ⟨hpos, hobj⟩ := hframe
      exact ⟨by simp [hb], by simp [hpos], by rw [if_pos hb]; exact noneAnswers_of_passes hobj⟩
    · rw [if_neg hb] at hframe
      exact ⟨by simp [hframe], by simp [hb], by rw [if_neg hb]; exact noneAnswers_nil⟩
  refine checkAll_of_none ?_
  simp only [List.flatten_cons, List.flatten_nil, noneAnswers_append, noneAnswers_cons, noneAnswers_nil, and_true,
    noneAnswers_of_passes hctx, true_and, hlost]
  exact ⟨⟨by simpa using hfl, by simp [hz], by simpa using hnew, by simp [hn, hn'], hno, by simp [hsrc], by simp [hout], hpos⟩, hobj,
    by simpa using hcont, by simp [hreq], hroom, by simpa using hread⟩

end

/-- Settles O9: the checks of each row pass on what its premise asks; a SUBMIT then goes where its context is served. -/
theorem contextCommandsComplete : Obligations.ContextCommandsComplete := by
  unfold Obligations.ContextCommandsComplete
  refine ⟨?alloc, ?freeIdle, ?freeServing, ?query, ?submit, ?forward, ?cancel⟩
  case alloc => exact rowOk_of_do fun c s _ _ h => doCtxAlloc_of_goes h
  case freeIdle =>
    refine rowOk_of_do (f := doCtxFree) fun c s _ _ ⟨hflag, hctx, hreq⟩ => ?_
    rw [doCtxFree, checkAll_of_none (by simp [noneAnswers_of_passes hctx, hflag, hreq])]
    simp [hreq]
  case freeServing =>
    refine rowBegins_of_do (f := doCtxFree) fun c s _ _ ⟨hflag, hctx, hreq⟩ => ?_
    obtain ⟨q, hq⟩ := Option.isSome_iff_exists.1 hreq
    rw [doCtxFree, checkAll_of_none (by simp [noneAnswers_of_passes hctx, hflag, bitN])]
    simp only [hq]
    split <;> simp [*]
  case query => exact rowOk_of_do (f := doCtxQuery) fun c s _ _ h => checks_of_none (noneAnswers_of_passes h)
  case submit =>
    refine rowBegins_of_do (f := doSubmit) fun c s _ _ ⟨hasks, hhere, hplaced⟩ => ?_
    exact (doSubmit_of_asks hasks (.inr ⟨hhere, hplaced⟩)).trans (if_neg (by rw [hhere]; exact Bool.false_ne_true))
  case forward =>
    refine rowBegins_of_do (f := doSubmit) fun c s _ _ ⟨hasks, haway, hdest⟩ => ?_
    exact (doSubmit_of_asks hasks (.inl ⟨haway, hdest⟩)).trans (if_pos haway)
  case cancel =>
    refine rowBegins_of_do (f := doSubmitCancel) fun c s _ _ ⟨hctx, hreq⟩ => checkAll_of_none ?_
    simpa [noneAnswers_of_passes hctx] using hreq

end Sys2Proof.Safety
end

section
/-! PROOFS. The Furl and Shroud commands (spec/07_command_catalogue.md Tables 7.10, 7.11). -/

namespace Sys2Proof.Safety

open Sys2Proof.Machine

section
variable {c : Cmd} {r : Nat × Nat} {b : State}

/-- FURL_DOMAIN_CFG opens a domain to tenants (0) or closes it to them (1). -/
theorem domainCfg_eq {o : Nat} (ho : o < 2) (m : BitVec 256) :
    (fun (x : PDom) =>
      let mask := if o = 0 then x.mask ||| m else x.mask &&& ~~~m
      { x with everOpen := x.everOpen || o = 0, mask := mask, opened := if o = 0 then true else x.opened && !(mask = 0) }) =
    (fun x => if o = 1 then { x with mask := x.mask &&& ~~~m, opened := x.opened && decide (x.mask &&& ~~~m ≠ 0) }
      else { x with everOpen := true, mask := x.mask ||| m, opened := true }) := by
  funext x
  obtain rfl | rfl : o = 0 ∨ o = 1 := by omega
  · simp
  · simp

end

/-- Settles O10: the checks of each row pass on what its premise asks; of a probe, the domain's tenants are those of its session. -/
theorem furlCommandsComplete : Obligations.FurlCommandsComplete := by
  unfold Obligations.FurlCommandsComplete
  refine ⟨?domainCfg, ?pin, ?unpin, ?evictCfg, ?purge, ?probe⟩
  case domainCfg =>
    refine rowOk_of_do (f := doFurlDomainCfg) fun c s _ _ ⟨hdom, hop, hz⟩ => ?_
    rw [doFurlDomainCfg, checks_of_none (by simp [hdom, hop, hz]), domainCfg_eq hop]
  case pin =>
    refine rowOk_of_do (f := doFurlPin) fun c s _ _ ⟨hctx, hrun, hidx⟩ => checkAll_of_none ?_
    simpa [noneAnswers_of_passes hctx, hrun] using hidx
  case unpin => exact rowOk_of_do (f := doFurlUnpin) fun c s _ _ h => checks_of_none (noneAnswers_of_passes h)
  case evictCfg =>
    refine rowOk_of_do (f := doFurlEvictCfg) fun c s _ _ ⟨hlow, hhigh, hflag, hz, hst⟩ => checks_of_none ?_
    simp only [noneAnswers_cons, noneAnswers_nil, and_true]
    grind
  case purge =>
    refine rowOk_of_do (f := doFurlPurge) fun c s _ _ ⟨hdom, hflag, hz, hrun⟩ => checks_of_none ?_
    simp [hdom, hflag, hz, hrun]
  case probe =>
    refine rowBegins_of_do (f := doFurlProbe) fun c s _ _ ⟨hdom, hz, hn, hn', hz', hsrc, hmodel, hopen, hmember, hrun, hread⟩ => checkAll_of_none ?_
    have hten : (match (match sessOf c (begun c s) with | some x => x.tenant | none => none) with
        | some t => !((Tab.get (begun c s).furl.doms (fieldN (payloadOf c) 4 2)).opened &&
            (Tab.get (begun c s).furl.doms (fieldN (payloadOf c) 4 2)).mask.getLsbD t)
        | none => !(Tab.get (begun c s).furl.doms (fieldN (payloadOf c) 4 2)).opened) = false := by
      cases hs : sessOf c (begun c s) with
      | none => simp [hopen]
      | some x =>
        cases ht : x.tenant with
        | none => simp [ht, hopen]
        | some t => simpa [hs, ht, hopen] using hmember
    simp [-Bool.not_and, noneAnswers_of_passes hmodel, hdom, hz, hn, hn', hz', hsrc, hrun]
    exact ⟨hten, hread⟩

/-- Settles O11: the checks of each row pass on what its premise asks; a window ends at once where no operation runs through it. -/
theorem shroudCommandsComplete : Obligations.ShroudCommandsComplete := by
  unfold Obligations.ShroudCommandsComplete
  refine ⟨?connOpen, ?connClose, ?connTimeout, ?map, ?unmapNow, ?unmapWaits, ?ccCfg⟩
  case connOpen =>
    refine rowBegins_of_do (f := doShrConnOpen) fun c s _ _
      ⟨hcarrier, hchain, hten, hdev, hz, htimeout, hmode, hrmu, hother, hslot, hkey, hrun, hopening, hidx⟩ => checkAll_of_none ?_
    obtain ⟨k, hk, hkten, hfresh⟩ : ∃ k, Tab.get (begun c s).sec.shr (fieldN (payloadOf c) 28 4) = some k ∧
        k.tenant = fieldN (payloadOf c) 2 2 ∧ k.used = false := by
      simpa [Option.any_eq_true] using hkey
    simp only [List.flatten_cons, List.flatten_nil, noneAnswers_append, noneAnswers_cons, noneAnswers_nil, and_true, hk, hkten, hfresh, hten,
      hz, htimeout, hrun, hopening, hother, hmode, hrmu, ← Option.not_isSome, hidx]
    grind
  case connClose =>
    refine rowBegins_of_do (f := doShrConnClose) fun c s _ _ ⟨hflag, hconn, hopening, hclosing⟩ => checkAll_of_none ?_
    simp [noneAnswers_of_passes hconn, hflag, hopening, hclosing]
  case connTimeout =>
    refine rowOk_of_do (f := doShrConnTimeout) fun c s _ _ ⟨hconn, htimeout⟩ => checkAll_of_none ?_
    simp [noneAnswers_of_passes hconn, htimeout]
  case map =>
    refine rowOk_of_do (f := doShrMap) fun c s _ _
      ⟨haddr, hlen, hlen0, hperm, hresend, hmode, hrmu, hconn, hregion, hten, hoverlap, hsize, hrun, hopened, hown, hidx⟩ => checkAll_of_none ?_
    simp [noneAnswers_of_passes hconn, noneAnswers_of_passes hregion, haddr, hlen, hlen0, hperm, hresend, hmode, hrmu, hten, hoverlap, hsize,
      hrun, hopened, hown, hidx]
  case unmapNow =>
    refine rowOk_of_do (f := doShrUnmap) fun c s _ _ ⟨⟨hobj, hfree⟩, hbusy⟩ => ?_
    rw [doShrUnmap, checkAll_of_none (by simp [noneAnswers_of_passes hobj, hfree])]
    exact if_neg (Bool.eq_false_iff.1 hbusy)
  case unmapWaits =>
    refine rowBegins_of_do (f := doShrUnmap) fun c s _ _ ⟨⟨hobj, hfree⟩, hbusy⟩ => ?_
    rw [doShrUnmap, checkAll_of_none (by simp [noneAnswers_of_passes hobj, hfree])]
    exact if_pos hbusy
  case ccCfg =>
    refine rowOk_of_do (f := doShrCcCfg) fun c s _ _ ⟨hz, hst⟩ => checkAll_of_none ?_
    simp [hz, hst]

end Sys2Proof.Safety
end

section
/-! PROOFS. The Trim and Bowsprit commands (spec/07_command_catalogue.md Tables 7.12, 7.18). -/

namespace Sys2Proof.Safety

open Sys2Proof.Machine

/-- Settles O12: the checks of each row pass on what its premise asks. -/
theorem trimCommandsComplete : Obligations.TrimCommandsComplete := by
  unfold Obligations.TrimCommandsComplete
  refine ⟨?mode, ?shaper, ?policer⟩
  case mode =>
    refine rowOk_of_do (f := doTrimMode) fun c s _ _ ⟨hport, hz, hst⟩ => checkAll_of_none ?_
    simp [hport, hz, hst]
  case shaper =>
    refine rowOk_of_do (f := doTrimShaper) fun c s _ _ ⟨hport, hqueue, hz, hoff, hon⟩ => checkAll_of_none ?_
    simp only [List.flatten_cons, List.flatten_nil, List.append_nil, noneAnswers_cons, noneAnswers_nil, and_true]
    grind
  case policer =>
    refine rowOk_of_do (f := doTrimPolicer) fun c s _ _ ⟨hten, hset, hmark, hburst, hst⟩ => checkAll_of_none ?_
    simp only [List.flatten_cons, List.flatten_nil, List.append_nil, noneAnswers_cons, noneAnswers_nil, and_true]
    grind

/-- Settles O13: the checks of each row pass on what its premise asks; a window is inbound or outbound by DIR. -/
theorem bowspritCommandsComplete : Obligations.BowspritCommandsComplete := by
  unfold Obligations.BowspritCommandsComplete
  refine ⟨?window, ?access, ?route, ?arbiter⟩
  case window =>
    refine rowOk_of_do (f := doPlbWindow) fun c s _ _ ⟨hdir, hidx, hwidth, hflag, hz, hst⟩ => ?_
    rw [doPlbWindow, checkAll_of_none (by simp [hdir, hidx, hwidth, hflag, hz, hst])]
    obtain h | h : fieldN (payloadOf c) 0 1 = 0 ∨ fieldN (payloadOf c) 0 1 = 1 := by omega
    · simp only [h, if_true, Nat.zero_ne_one, if_false]
    · simp only [h, if_true, Nat.one_ne_zero, if_false]
  case access =>
    refine rowBegins_of_do (f := doPlbAccess) fun c s _ _ ⟨hn, halign, hread, hz, hdata, hwin, hrun⟩ => checkAll_of_none ?_
    simp only [List.flatten_cons, List.flatten_nil, List.append_nil, noneAnswers_append, noneAnswers_cons, noneAnswers_nil, and_true, hwin, hrun]
    grind
  case route =>
    refine rowOk_of_do (f := doPlbIrqRoute) fun c s _ _ ⟨hline, htarget, hlevel, hst⟩ => checkAll_of_none ?_
    simp [hline, htarget, hlevel, hst]
  case arbiter =>
    refine rowOk_of_do (f := doPlbArbCfg) fun c s _ _ ⟨hmode, hst⟩ => checkAll_of_none ?_
    simp [hmode, hst]

end Sys2Proof.Safety
end

section
/-! PROOFS. The Frame and Reef commands (spec/07_command_catalogue.md Tables 7.13, 7.14). -/

namespace Sys2Proof.Safety

open Sys2Proof.Machine

/-- A row that completes at once, with a result that its number may decide. -/
theorem answers_of_now {mk : Cmd → Instr} {op : Nat} {c0 : Cmd} {s t : State} {st : Status} {d : Nat} {bs : List Byte}
    (hl : letIn { c0 with op := op } s) (h5 : op ≠ 0x0501) (h6 : op ≠ 0x0606)
    (hd : doRow { c0 with op := op } (refOf { c0 with op := op } s) (begun { c0 with op := op } s) = (t, .now st d bs))
    (hx : ∀ c s, exec (mk c) s = .next (arrive { c with op := op } s) := by intros; rfl) :
    answers (mk c0) s (followUp (completed { c0 with op := op } st d bs s t)) := by
  obtain ⟨halone, hfrozen, hcopy, hhead⟩ := hl
  refine answers_of (hx c0 s) ?_
  rw [arrive_alone _ s halone hfrozen hcopy hhead, runs, hd]
  simp only [h5, h6, decide_false, Bool.or_self, Bool.and_false, Bool.false_eq_true, if_false]

section
variable {c : Cmd} {r : Nat × Nat} {b : State}

/-- The ring record of a context (Table 20.2): its place and length for a raw source, zeros for a coded one. -/
theorem ringBytes_eq (x : FrameCtx) (s : State) :
    leBytes 8 (if x.source = 0 then x.slotOff 4 else 0) ++ leBytes 8 (if x.source = 0 then x.ringLen s else 0) =
      if x.source = 0 then leBytes 8 (x.slotOff 4) ++ leBytes 8 (x.ringLen s) else leBytes 8 0 ++ leBytes 8 0 := by
  split <;> rfl

theorem doFrameCtxCfg_of_goes (h : frameCtxCfgGoes c b) : doFrameCtxCfg c r b =
    (let f := (freeIdx b.frame.ctxs (fun x => x.live) 256).getD 0
     let x := newFrameCtx c b
     let ring := if x.source = 0 then leBytes 8 (x.slotOff 4) ++ leBytes 8 (x.ringLen b) else leBytes 8 0 ++ leBytes 8 0
     okWith (leBytes 4 (handleOf f x.gen)) (memWrite (x.base b + 0x100) (ring ++ leBytes 16 0)
       (modCleat true x.cleat (fun _ => { active := true, owner := .frame f }) (modFctx f (fun _ => x) b)))) := by
  obtain ⟨hsrc, hfmt, hflag, hz, hw, hh, hbytes, hfill, hpatch, hpatch', heven, hten, hregion, hother, hkey, hrten, hroom, hrun, hidx, hcleat⟩ := h
  simp only [decide_eq_true_eq] at hfmt hw hh hbytes hroom
  rw [doFrameCtxCfg]
  dsimp only
  rw [checkAll_of_none]
  · rw [ringBytes_eq (newFrameCtx c b) b]
  · simp only [List.flatten_cons, List.flatten_nil, List.append_nil, noneAnswers_append, noneAnswers_cons, noneAnswers_nil, and_true,
      noneAnswers_of_passes hregion, true_and, hz, hw, hh, hother, hkey, hrun, ← Option.not_isSome, hidx, hcleat]
    grind

/-- FRAME_SUBMIT queues its frame, and answers at once or with the frame's end. -/
theorem doFrameSubmit_of_goes (h : frameSubmitGoes c b) : doFrameSubmit c r b =
    (let f := fieldN (payloadOf c) 0 4 % 65536
     let d := submitDims c b
     if bitN (fieldN (payloadOf c) 4 1) 1 then (frameQueued c r b, .later)
     else okWith (leBytes 4 (frameHandle f ((pickSlot f b).getD 0) (submitGen c b)) ++ leBytes 4 0 ++ leBytes 4 ((fctxOf f b).patches d.1 d.2))
       (frameQueued c r b)) := by
  obtain ⟨hfl, hz, hlen, hlen', hctx, hregion, hsize, hrun, hslot⟩ := h
  refine checkAll_of_none ?_
  simp only [List.flatten_cons, List.flatten_nil, List.append_nil, noneAnswers_append, noneAnswers_cons, noneAnswers_nil, and_true,
    noneAnswers_of_passes hctx, true_and, hz, hrun, ← Option.not_isSome, hslot]
  grind

end

/-- Settles O14: the checks of each row pass on what its premise asks; a submitted frame is queued in its slot either way. -/
theorem frameCommandsComplete : Obligations.FrameCommandsComplete := by
  unfold Obligations.FrameCommandsComplete
  refine ⟨?cfg, ?free, ?rate, ?roi, ?submitNow, ?submitWaits⟩
  case cfg => exact rowOk_of_do fun c s _ _ h => doFrameCtxCfg_of_goes h
  case free =>
    refine rowOk_of_do (f := doFrameCtxFree) fun c s _ _ ⟨hctx, hslots, hheld⟩ => checkAll_of_none ?_
    simp [noneAnswers_of_passes hctx, hslots, hheld]
  case rate => exact rowOk_of_do (f := doFrameRc) fun c s _ _ h => checks_of_none (noneAnswers_of_passes h)
  case roi =>
    refine rowOk_of_do (f := doFrameRoi) fun c s _ _ ⟨hidx, hlo, hhi, hflag, hz, hctx, hgeom⟩ => checkAll_of_none ?_
    simp only [List.flatten_cons, List.flatten_nil, List.append_nil, noneAnswers_append, noneAnswers_cons, noneAnswers_nil, and_true,
      noneAnswers_of_passes hctx, true_and, hz]
    grind
  case submitNow =>
    intro c0 s c hl ⟨hgoes, hnow⟩
    refine answers_of_now hl (by decide) (by decide) ?_
    exact (doFrameSubmit_of_goes hgoes).trans (if_neg (Bool.eq_false_iff.1 hnow))
  case submitWaits =>
    refine rowBegins_of_do (f := doFrameSubmit) fun c s _ _ ⟨hgoes, hwait⟩ => ?_
    exact (doFrameSubmit_of_goes hgoes).trans (if_pos hwait)

section
variable {c : Cmd} {r : Nat × Nat} {b : State}

/-- REEF_RESTORE of an own snapshot reads its copy and puts back what it can: it ends at once when that is nothing. -/
theorem doReefRestore_of_own (h : reefRestoreOwn c b) : doReefRestore c r b =
    (if (putBack c b).1.isEmpty then ((putBack c b).2.2, .now .ok 0 (evacResult 0 (putBack c b).2.1 0 0))
     else (furlSettle (modReef (fun y => { y with restores := y.restores ++
       [{ ref := r, src := fieldN (payloadOf c) 4 2, snap := fieldN (payloadOf c) 0 4, restored := (putBack c b).1.length,
          skipped := (putBack c b).2.1, ctxs := (putBack c b).1 }] }) (putBack c b).2.2), .later)) := by
  obtain ⟨hdev, hmax, hsnap, hcopy, hrun⟩ := h
  have hmax' : fieldN (payloadOf c) 4 2 ≤ 71 := hdev ▸ hmax
  cases ht : (snapOf (fieldN (payloadOf c) 0 4 % 65536) b).target with
  | peer d => simp [ownCopy, ht] at hcopy
  | nvme n =>
    obtain ⟨k, hk⟩ := Option.isSome_iff_exists.1 hcopy
    simp only [ownCopy, ht] at hk
    rw [doReefRestore]
    simp only [hdev, decide_true, if_true, ht, hk, putBack, ownCopy, Option.getD_some]
    refine checkAll_of_none ?_
    simpa [noneAnswers_of_passes hsnap, hrun] using hmax

end

/-- Settles O15: the checks of each row pass on what its premise asks; a restore of an own snapshot puts its images back by itself. -/
theorem reefCommandsComplete : Obligations.ReefCommandsComplete := by
  unfold Obligations.ReefCommandsComplete
  refine ⟨?cfg, ?snapshot, ?evacuate, ?restore, ?restoreSome, ?restoreNone, ?status⟩
  case cfg =>
    refine rowOk_of_do (f := doReefCfg) fun c s _ _ ⟨htarget, htriggers, hst⟩ => checks_of_none ?_
    simp [htarget, htriggers, hst]
  case snapshot =>
    refine rowBegins_of_do (f := doReefSnapshot) fun c s _ _ ⟨hscope, hz, hone, hrun, hsnap, hevac, hroom⟩ => checkAll_of_none ?_
    by_cases h1 : fieldN (payloadOf c) 0 1 = 1
    · obtain ⟨hctx, haway⟩ := hone h1
      simp [h1, noneAnswers_of_passes hctx, haway, hz, hrun, hsnap, hevac, hroom]
    · simp [h1, hscope, hz, hrun, hsnap, hevac, hroom]
  case evacuate =>
    refine rowBegins_of_do (f := doReefEvacuate) fun c s _ _ ⟨hother, hmax, hto, hsnap, hrun, hready, hsnapping, hevac⟩ => checkAll_of_none ?_
    simp [noneAnswers_of_passes hsnap, hother, hmax, hto, hrun, hready, hsnapping, hevac]
  case restore =>
    refine rowBegins_of_do (f := doReefRestore) fun c s _ _ ⟨hmax, hother, hmember, hrun⟩ => ?_
    rw [doReefRestore, checkAll_of_none (by simp [hmax, hother, hmember, hrun])]
    simp [hother]
  case restoreSome =>
    refine rowBegins_of_do (f := doReefRestore) fun c s _ _ ⟨hown, hsome⟩ => ?_
    exact (doReefRestore_of_own hown).trans (if_neg (by simpa using hsome))
  case restoreNone =>
    refine rowOk_of_do (f := doReefRestore) fun c s _ _ ⟨hown, hnone⟩ => ?_
    exact (doReefRestore_of_own hown).trans (if_pos (by simp [hnone]))
  case status => exact rowOk_of_do (f := doReefStatus) fun _ _ _ _ _ => rfl

end Sys2Proof.Safety
end

section
/-! PROOFS. The security commands and those of the board and the rack (spec/07_command_catalogue.md Tables 7.17, 7.19). -/

namespace Sys2Proof.Safety

open Sys2Proof.Machine

section
variable {c : Cmd} {r : Nat × Nat} {b : State}

/-- A command of a ring or of SMB0 has its data in the message exactly when it does not come by a ring. -/
theorem inMessage_eq (hmb : c.mb < 16 ∨ c.mb = 16) : (decide (16 ≤ c.mb) && decide (c.mb ≤ 18)) = !decide (c.mb < 16) := by
  rcases hmb with h | h
  · have : ¬ 16 ≤ c.mb := by omega
    simp [h, this]
  · simp [h]

/-- What a SEC_KEY_SET's wrapped key opens to under the KIK (R545). -/
def keyPlain (c : Cmd) (b : State) : Option (List Byte) :=
  let p := payloadOf c
  let w := slice p 16 96
  let aad := leBytes 8 b.fuses.serial ++ b.sec.nonce ++ leBytes 2 (fieldN p 0 2) ++ leBytes 1 (fieldN p 2 1) ++ leBytes 1 0 ++
    leBytes 4 (fieldN p 4 4) ++ leBytes 4 (fieldN w 0 4)
  b.sec.fuse.kik.bind (fun k => Config.gcmOpen k (slice w 4 12) aad (slice w 16 64) (slice w 80 16))

/-- The wrapped key opens, is newer than the last one and has the form of its kind. -/
def keyAccepted (c : Cmd) (b : State) : Bool :=
  let d := (keyPlain c b).getD []
  let seq := fieldN (slice (payloadOf c) 16 96) 0 4
  let fresh := match b.sec.seqHigh with | some q => decide (q < seq) | none => true
  (keyPlain c b).isSome && fresh &&
    (if fieldN (payloadOf c) 2 1 = 0 then decide (slice d 0 32 ≠ slice d 32 32) else zeroAt d 32 32)

/-- The state with a SEC_KEY_SET's key installed. -/
def keyInstalled (c : Cmd) (b : State) : State :=
  let p := payloadOf c
  let d := (keyPlain c b).getD []
  let seq := fieldN (slice p 16 96) 0 4
  modSec (fun x => if fieldN p 2 1 = 0 then { x with hbm := Tab.put x.hbm (fieldN p 0 2) (some (slice d 0 64)), seqHigh := some seq }
    else { x with shr := Tab.put x.shr (fieldN p 4 4) (some { tenant := fieldN p 0 2, key := slice d 0 32 }), seqHigh := some seq }) b

theorem keyInstalled_hbm (h0 : fieldN (payloadOf c) 2 1 = 0) : keyInstalled c b =
    modSec (fun x => { x with hbm := Tab.put x.hbm (fieldN (payloadOf c) 0 2) (some (slice ((keyPlain c b).getD []) 0 64))
                              seqHigh := some (fieldN (slice (payloadOf c) 16 96) 0 4) }) b := by
  simp only [keyInstalled, h0, if_true]

theorem keyInstalled_shr (h0 : ¬ fieldN (payloadOf c) 2 1 = 0) : keyInstalled c b =
    modSec (fun x => { x with shr := Tab.put x.shr (fieldN (payloadOf c) 4 4)
                                (some { tenant := fieldN (payloadOf c) 0 2, key := slice ((keyPlain c b).getD []) 0 32 })
                              seqHigh := some (fieldN (slice (payloadOf c) 16 96) 0 4) }) b := by
  simp only [keyInstalled, h0, if_false]

/-- The key is refused when it does not open, is not newer, or has not the form of its kind. -/
theorem keyRefused_eq : ((keyPlain c b).isNone ||
      (match b.sec.seqHigh with | some q => decide (fieldN (slice (payloadOf c) 16 96) 0 4 ≤ q) | none => false) ||
      (if fieldN (payloadOf c) 2 1 = 0 then decide (slice ((keyPlain c b).getD []) 0 32 = slice ((keyPlain c b).getD []) 32 32)
        else !zeroAt ((keyPlain c b).getD []) 32 32)) = !keyAccepted c b := by
  unfold keyAccepted
  have hle (q n : Nat) : decide (n ≤ q) = !decide (q < n) := by rw [← decide_not, decide_eq_decide, Nat.not_lt]
  cases b.sec.seqHigh <;> by_cases h : fieldN (payloadOf c) 2 1 = 0 <;> simp [h, hle, Bool.not_and]

/-- What SEC_KEY_SET leaves and answers. -/
def keySetEnd (c : Cmd) (b : State) : State × Status × Nat × List Byte :=
  if keyAccepted c b then (keyInstalled c b, .ok, 0, []) else (raise 0x15D b, .inval, 24, [])

theorem doSecKeySet_of_goes (h : secKeySetGoes c b) :
    doSecKeySet c r b = ((keySetEnd c b).1, .now (keySetEnd c b).2.1 (keySetEnd c b).2.2.1 (keySetEnd c b).2.2.2) := by
  obtain ⟨hten, hkind, hz, hz', hlock, hkik, hhbm, hshr⟩ := h
  rw [doSecKeySet, if_neg (by simp [Option.isSome_iff_ne_none.1 hkik]), checks_of_none (by simp [hten, hkind, hz, hz', hlock])]
  cases hacc : keyAccepted c b with
  | false =>
    rw [keySetEnd, hacc]
    refine if_pos (Bool.or_eq_true_iff.2 (.inr ?_))
    exact keyRefused_eq.trans (by rw [hacc]; rfl)
  | true =>
    rw [keySetEnd, hacc]
    refine (if_neg (Bool.eq_false_iff.1 (Bool.or_eq_false_iff.2 ⟨?_, ?_⟩))).trans ?_
    · by_cases h0 : fieldN (payloadOf c) 2 1 = 0
      · simp [h0, (hhbm h0).1]
      · simp [h0, (hshr (by omega)).1]
    · exact keyRefused_eq.trans (by rw [hacc]; rfl)
    · by_cases h0 : fieldN (payloadOf c) 2 1 = 0
      · rw [if_pos h0, if_neg (Bool.eq_false_iff.1 (hhbm h0).2)]
        exact congrArg (okWith []) (keyInstalled_hbm h0).symm
      · rw [if_neg h0, if_neg (Bool.eq_false_iff.1 (hshr (by omega)).2)]
        exact congrArg (okWith []) (keyInstalled_shr h0).symm

/-- The bytes of an FW_UPDATE are those of its message, or those that the host gives. -/
theorem fwData_eq (hmb : c.mb < 16 ∨ c.mb = 16) :
    (if decide (16 ≤ c.mb) && decide (c.mb ≤ 18) then some (slice (payloadOf c) 20 (fieldN (payloadOf c) 8 4))
      else readHost (mbReq c.mb b) c.rd.data b) = fwData c b := by
  rw [inMessage_eq hmb, fwData]
  by_cases h : c.mb < 16 <;> simp [h]

/-- FW_UPDATE takes its chunk into the slot, and judges the image when the chunk is the last. -/
theorem doFwUpdate_of_goes (hmb : c.mb < 16 ∨ c.mb = 16) (h : fwUpdateGoes c b) (hflag : fieldN (payloadOf c) 16 1 < 2)
    (hlast : bitN (fieldN (payloadOf c) 16 1) 0 = true → (fieldN (payloadOf c) 12 4 + fieldN (payloadOf c) 8 4) % 4096 = 0 ∧
      fieldN (payloadOf c) 12 4 + fieldN (payloadOf c) 8 4 = 512 + fieldN (fwImage c b) 16 4) :
    doFwUpdate c r b =
      (let b1 := modFwSlot (1 - b.dev.slot) (fun _ => { written := fwImage c b }) b
       if bitN (fieldN (payloadOf c) 16 1) 0 then fwFinal (1 - b.dev.slot) b1 else okWith [] b1) := by
  obtain ⟨hring, hmsg, hlen, htop, hz, hpwr, hoff, hdata⟩ := h
  simp only [doFwUpdate, fwData_eq hmb]
  refine checks_of_none ?_
  simp only [noneAnswers_cons, noneAnswers_nil, and_true, inMessage_eq hmb, hz, hpwr, ← Option.not_isSome, hdata]
  grind

/-- What the verification of a whole image leaves and answers (Table 21.4). -/
theorem fwFinal_written (n : Nat) (img : List Byte) (b : State) : fwFinal n (modFwSlot n (fun _ => { written := img }) b) =
    (let b1 := modFwSlot n (fun _ => { written := img }) b
     let x : State × Status × Nat × List Byte :=
       if fwSigOk img b.sec.fuse = false then (b1, .fault, 2, [])
       else if fwSvn img < b.sec.fuse.svnMin then (b1, .fault, 3, [])
       else (secEvent 3 n (modFwSlot n (fun x => { x with committed := true, version := fwVersion img, svn := fwSvn img, sigOk := true }) b1),
             .ok, 0, [])
     (x.1, .now x.2.1 x.2.2.1 x.2.2.2)) := by
  have himg : (fwSlot n (modFwSlot n (fun _ => { written := img }) b)).written = img := by
    unfold fwSlot modFwSlot
    by_cases h : n = 0 <;> simp [h]
  have hfuse : (modFwSlot n (fun _ => { written := img }) b).sec.fuse = b.sec.fuse := by
    unfold modFwSlot
    by_cases h : n = 0 <;> simp [h]
  simp only [fwFinal, himg, hfuse, fwVerify]
  cases hs : fwSigOk img b.sec.fuse
  · simp
  · by_cases hv : fwSvn img < b.sec.fuse.svnMin <;> simp [hv, okWith]

/-- An attempt to unlock ends as `unlockEnd` says (R558 - R562). -/
theorem unlock_eq_unlockEnd {method : Nat} {good : Bool} :
    (if good && decide (b.sec.lock = .opened) then okWith [] (modSec (fun x => { x with fails := 0 }) (modSec (fun x => { x with chal := none }) b))
      else if good then okWith [] (consoleClass (lockOpen method (modSec (fun x => { x with chal := none }) b)))
      else (unlockFail (modSec (fun x => { x with chal := none }) b), .now .perm 0 [])) =
    ((unlockEnd method good b).1, Answer.now (unlockEnd method good b).2 0 []) := by
  unfold unlockEnd
  cases good
  · rfl
  · by_cases h : b.sec.lock = .opened <;> simp [h, okWith]

end

/-- Settles O16: each command through its row lemma, the branch of its arguments chosen. -/
theorem securityCommandsComplete : Obligations.SecurityCommandsComplete := by
  unfold Obligations.SecurityCommandsComplete
  refine ⟨?keySet, ?keyDestroy, ?chunk, ?last, ?measure, ?challenge, ?password, ?owner, ?lock⟩
  case keySet =>
    refine rowEnds_of_do (f := doSecKeySet) (by decide) (by decide) fun c s _ _ h => ?_
    exact doSecKeySet_of_goes h
  case keyDestroy =>
    refine rowOk_of_do (f := doSecKeyDestroy) fun c s _ _ ⟨hten, hkind, hz, hhbm, hshr⟩ => checks_of_none ?_
    by_cases h0 : fieldN (payloadOf c) 2 1 = 0
    · obtain ⟨hslot, hkey, hidle⟩ := hhbm h0
      simp [h0, hten, hz, hslot, hkey, hidle]
    · obtain ⟨hslot, hkey, hidle⟩ := hshr (by omega)
      obtain ⟨k, hk, hkten⟩ : ∃ k, Tab.get (begun c s).sec.shr (fieldN (payloadOf c) 4 4) = some k ∧ k.tenant = fieldN (payloadOf c) 0 2 := by
        simpa [Option.any_eq_true] using hkey
      simp [h0, hten, hkind, hz, hslot, hk, hkten, hidle]
  case chunk =>
    refine rowOk_of_do (f := doFwUpdate) fun c s _ hl ⟨hgoes, hflag⟩ => ?_
    have hbit : bitN (fieldN (payloadOf c) 16 1) 0 = false := by rw [hflag]; rfl
    have hdo := doFwUpdate_of_goes (r := refOf c s) (letIn_mb hl) hgoes (by omega) (by simp [hbit])
    exact hdo.trans (if_neg (Bool.eq_false_iff.1 hbit))
  case last =>
    refine rowEnds_of_do (f := doFwUpdate) (by decide) (by decide) fun c s _ hl ⟨hgoes, hflag, hpage, hlen⟩ => ?_
    have hbit : bitN (fieldN (payloadOf c) 16 1) 0 = true := by rw [hflag]; rfl
    have hdo := doFwUpdate_of_goes (r := refOf c s) (letIn_mb hl) hgoes (by omega) fun _ => ⟨hpage, hlen⟩
    exact (hdo.trans (if_pos hbit)).trans (fwFinal_written _ _ _)
  case measure => exact rowOk_of_do (f := doMeasure) fun _ _ _ _ _ => rfl
  case challenge => exact rowOk_of_do (f := doDebugChallenge) fun _ _ _ _ _ => rfl
  case password =>
    refine rowEnds_of_do (f := doDebugUnlock) (by decide) (by decide) fun c s _ _ ⟨hmethod, hz, hchars, hlock, hfails, hkeys, hfurl⟩ => ?_
    rw [doDebugUnlock, checks_of_none (by simp [hmethod, hz, hchars, hlock, hfails, hkeys, hfurl])]
    simp only [hmethod, if_true]
    exact unlock_eq_unlockEnd
  case owner =>
    refine rowEnds_of_do (f := doDebugUnlock) (by decide) (by decide) fun c s _ _ ⟨hmethod, hz, hlock, hfails, hkeys, hfurl, hpub⟩ => ?_
    rw [doDebugUnlock, checks_of_none (by simpa [hmethod, hz, hlock, hfails, hkeys, hfurl] using hpub)]
    simp only [hmethod, Nat.one_ne_zero, if_false]
    exact unlock_eq_unlockEnd
  case lock =>
    refine rowOk_of_do (f := doDebugLock) fun c s _ _ _ => ?_
    rw [doDebugLock]
    by_cases ho : (begun c s).sec.lock = .opened
    · simp only [ho, if_true]
      split <;> rfl
    · simp only [ho, if_false]

/-- Settles O17: each command through its row lemma, once its checks pass. -/
theorem boardAndRackCommandsComplete : Obligations.BoardAndRackCommandsComplete := by
  unfold Obligations.BoardAndRackCommandsComplete
  refine ⟨?sensor, ?sweep, ?gpio, ?console, ?pstoreRead, ?pstoreWrite, ?epoch, ?rack⟩
  case sensor =>
    refine rowOk_of_do (f := doSensorRead) fun c s _ _ h => ?_
    have h : fieldN (payloadOf c) 8 1 < 3 := h
    rw [doSensorRead, checks_of_none (by simp [h])]
    dsimp only
    split
    · rfl
    · split <;> rfl
  case sweep =>
    refine rowBegins_of_do (f := doRatlineSweep) fun c s _ _ h => checks_of_none ?_
    have h : (begun c s).rl.sweep = none := h
    simp [h]
  case gpio => exact rowOk_of_do (f := doGpioCfg) fun _ _ _ _ _ => rfl
  case console =>
    refine rowOk_of_do (f := doConsoleCfg) fun c s _ hl ⟨hlo, hhi⟩ => ?_
    have hmb : c.mb ≠ 18 := by have := letIn_mb hl; omega
    rw [doConsoleCfg, checks_of_none (by simp [hlo, hhi])]
    simp only [hmb, if_false]
  case pstoreRead =>
    refine rowOkWith_of (fun _ _ => rfl) fun c s hop hl ⟨hrec, hsome, hoff⟩ => ?_
    have hmb : (16 ≤ c.mb ∧ c.mb ≤ 18) ↔ c.mb = 16 := by have := letIn_mb hl; omega
    have hdo : doRow c (refOf c s) (begun c s) = doPstoreRead c (refOf c s) (begun c s) := by simp only [doRow, hop]
    rw [hdo, doPstoreRead, checks_of_none (by simpa [hrec, hoff] using hsome)]
    simp only [hmb]
  case pstoreWrite =>
    refine rowBegins_of_do (f := doPstoreWrite) fun c s _ hl ⟨hmsg, hrec, hlen, hlen', hpwr, hfree, hread⟩ => ?_
    rw [doPstoreWrite]
    simp only [inMessage_eq (letIn_mb hl)]
    rw [checks_of_none]
    · by_cases h : c.mb < 16 <;> simp [h]
    · by_cases h : c.mb < 16
      · simp [h, hrec, hlen, hlen', hpwr, hfree, hread h]
      · simp [h, hrec, hlen, hlen', hpwr, hfree, hmsg (Nat.not_lt.1 h)]
  case epoch =>
    refine rowOk_of_do (f := doRackEpoch) fun c s _ _ ⟨horder, hmax, hnew⟩ => ?_
    have hmin : (viewOf (payloadOf c)).fwMin < 2 ^ 24 := Nat.lt_of_le_of_lt horder hmax
    rw [doRackEpoch, checkAll_of_none]
    · simp only [decide_eq_true_eq]
    · rcases hnew with hnew | hsame
      · simp [-Nat.reducePow, hmin, hmax, horder, Nat.le_of_lt hnew, Nat.ne_of_gt hnew]
      · simp [-Nat.reducePow, hmin, hmax, horder, hsame]
  case rack => exact rowOk_of_do (f := doRackStatus) fun _ _ _ _ _ => rfl

end Sys2Proof.Safety
end

section
/-! PROOFS. The stages of the boot, and the events of the host link and its functions. -/

namespace Sys2Proof.Safety

open Sys2Proof.Machine

/-! ### The boot stages (Table 4.4) -/

/-- The rows of Table 3.1 that the monitor watches. -/
theorem watchedRows_eq (rows : List Nat) : watchedRows rows = rows.filter (fun k => [0, 1, 2, 3, 5, 4, 7].contains k) := by
  refine congrArg (fun p => rows.filter p) (funext fun k => ?_)
  simp only [List.range_succ, List.range_zero, List.nil_append, List.cons_append, List.any_cons, List.any_nil, watchedRow,
    List.contains_cons, List.contains_nil]
  simp [eq_comm (a := k), beq_eq_decide]

section
variable {r : StageReport} {s : State}

/-- A boot that runs, with its clock: the stage says what is done. -/
theorem stageDone_running (hm : s.dev.mode = .boot) (hf : s.dev.fail = false) (hc : domainLost 9 s = false) :
    (!(s.dev.mode = .boot) || s.dev.fail || domainLost 9 s) = false := by
  simp [hm, hf, hc]

theorem fwLoad_flash (h : s.pins.straps.toNat % 4 ≠ 2) : fwLoad r s =
    (bootSlot s).map (fun n => runFirmware n (fwSlot n s).version (secMeasure (fwSlot n s).written (fwSlot n s).svn s)) := by
  rw [fwLoad, if_neg h]
  cases bootSlot s <;> rfl

theorem fwLoad_image (h : s.pins.straps.toNat % 4 = 2) : fwLoad r s = r.image.bind (fun img => runImage img s) := by
  rw [fwLoad, if_pos h]
  cases r.image <;> rfl

end

/-- Settles O21: while the boot runs and its clock is there, `stageDone` is the stage's own branch. -/
theorem bootStagesRun : Obligations.BootStagesRun := by
  unfold Obligations.BootStagesRun
  intro r s hm hf t watched
  have done {u : State} (h : stageDone r s = u) : acts (.bootStageDone r) s u := acts_of (f := stageDone r) rfl h
  have hwatched : watchedRows r.railsOut = watched := watchedRows_eq r.railsOut
  refine ⟨fun hlost => done (by simp [stageDone, hlost]), fun aclk h4 => ?timeout, fun hc => ?stages⟩
  case timeout => exact answers_of (u := stageTimeout aclk s) rfl (if_neg (by simp [hm, hf, h4]))
  case stages =>
    have hrun := stageDone_running hm hf hc
    refine ⟨?rails, ?strapsGood, ?strapsBad, ?fuses, ?flash, ?noSlot, ?image, ?noImage, ?links, ?hbm, ?tiles, ?ports, ?last⟩
    case rails =>
      intro hst k ks hw
      exact done (by rw [stageDone, hrun]; simp only [hst, hwatched, hw, Bool.false_eq_true, if_false]; rfl)
    case strapsGood =>
      intro hst hw hp
      exact done (by rw [stageDone, hrun]; simp only [hst, hwatched, hw, hp, Bool.false_eq_true, if_false]; rfl)
    case strapsBad =>
      intro hst hw k hp
      exact done (by rw [stageDone, hrun]; simp only [hst, hwatched, hw, hp, Bool.false_eq_true, if_false]; rfl)
    case fuses => exact fun hst => done (by rw [stageDone, hrun]; simp only [hst, Bool.false_eq_true, if_false]; rfl)
    case flash =>
      intro hst hb n hn
      exact done (by rw [stageDone, hrun]; simp only [hst, fwLoad_flash hb, hn, Option.map_some, Bool.false_eq_true, if_false]; rfl)
    case noSlot =>
      intro hst hb hn
      exact done (by rw [stageDone, hrun]; simp only [hst, fwLoad_flash hb, hn, Option.map_none, Bool.false_eq_true, if_false]; rfl)
    case image =>
      intro hst hb img hi
      refine done ?_
      rw [stageDone, hrun]
      simp only [hst, fwLoad_image hb, hi, Option.bind_some, runImage, Bool.false_eq_true, if_false]
      by_cases hv : fwVerify img s.sec.fuse = .ok <;> simp only [hv, if_true, if_false] <;> rfl
    case noImage =>
      intro hst hb hi
      exact done (by rw [stageDone, hrun]; simp only [hst, fwLoad_image hb, hi, Option.bind_none, Bool.false_eq_true, if_false]; rfl)
    case links => exact fun hst => done (by rw [stageDone, hrun]; simp only [hst, Bool.false_eq_true, if_false]; rfl)
    case hbm => exact fun hst => done (by rw [stageDone, hrun]; simp only [hst, Bool.false_eq_true, if_false]; rfl)
    case tiles => exact fun hst => done (by rw [stageDone, hrun]; simp only [hst, Bool.false_eq_true, if_false]; rfl)
    case ports => exact fun hst => done (by rw [stageDone, hrun]; simp only [hst, Bool.false_eq_true, if_false]; rfl)
    case last => exact fun hst => done (by rw [stageDone, hrun]; simp only [hst, Bool.false_eq_true, if_false]; rfl)

/-! ### The host link and its functions -/

/-- Settles O23: each event's guard is open, and its branch is what the statement says. -/
theorem pcieEventsComplete : Obligations.PcieEventsComplete := by
  unfold Obligations.PcieEventsComplete
  refine ⟨?reset, ?release, ?linkUp, ?configure, ?retried, ?fn, ?vfClear, ?vfRetried, ?vfSet, ?ats, ?unmask, ?ring, ?command⟩
  case reset => exact fun k s => acts_of (f := pcieReset k) rfl rfl
  case release => exact fun s => answers_of (u := perstRelease s) rfl rfl
  case linkUp =>
    intro rate width flit inv rev cfg s hm hp hup hclk hw1 hw2 hr
    have hr' : [25, 50, 80, 160, 320, 640].contains rate = true := by simpa using hr
    exact acts_of (f := pcieLinkUp rate width flit inv rev cfg) rfl (if_neg (by simp only [hr']; simp [hm, hp, hup, hclk]; omega))
  case configure => exact fun cfg s => ⟨fun h => if_pos h, fun h => if_neg (by simp [h])⟩
  case retried =>
    exact fun fn cfg s h => ⟨acts_of (f := flrFn fn cfg) rfl (if_pos (by simp [h])),
      acts_of (f := d3Entry fn) rfl (if_neg (by simp [h])), acts_of (f := d0Back fn) rfl (if_neg (by simp [h]))⟩
  case fn =>
    exact fun fn cfg s hfn hup hcrs => ⟨acts_of (f := flrFn fn cfg) rfl (if_neg (by simp only [hfn]; simp [hup, hcrs])),
      acts_of (f := d3Entry fn) rfl (if_pos (by simp only [hfn]; simp [hup, hcrs])),
      acts_of (f := d0Back fn) rfl (if_pos (by simp only [hfn]; simp [hup, hcrs]))⟩
  case vfClear => exact fun s h => acts_of (f := vfClear) rfl (if_neg (by simp [h]))
  case vfRetried => exact fun n cfg s h => acts_of (f := vfSet n cfg) rfl (if_pos (by simp [h]))
  case vfSet =>
    intro n cfg s hvf hup hcrs h1 h15
    exact acts_of (f := vfSet n cfg) rfl (if_neg (by simp [hvf, hup, hcrs]; omega))
  case ats =>
    exact fun fn pages s hfn hup => answers_of (u := atsDrop fn pages s) rfl (if_neg (by simp only [hfn]; simp [hup]))
  case unmask =>
    intro fn vec s hfn hup hcrs hd3 hvec
    exact answers_of (u := msixUnmaskVec fn vec s) rfl (if_neg (by simp only [hfn]; simp [hup, hcrs, hd3]; omega))
  case ring =>
    exact fun m s hl hm hst => live_of (f := transferFail m none) rfl hl (if_pos (by simp [hm, hst]))
  case command =>
    intro m q o s hl hfind hctx
    refine live_of (f := transferFail m (some q)) rfl hl ?_
    simp only [transferFail, hfind]
    split
    · next c hc =>
      have hp := List.find?_some hc
      split at hp
      · next r hr => exact absurd (of_decide_eq_true hp) (hctx c (List.mem_of_find?_eq_some hc) r hr)
      · cases hp
    · rfl

end Sys2Proof.Safety
end

section
/-! PROOFS. The events of the core rails. -/

namespace Sys2Proof.Safety

open Sys2Proof.Machine

section
variable {die : Nat} {s : State}

/-! ### A change of the desired point, by the state of the rail -/

theorem reform_same (h : (railOf die s).want = desired die s) : reform die s = s := if_pos (by simp [h])

theorem reform_steady (ha : railsActive s = true) (hw : (railOf die s).want ≠ desired die s) (hst : (railOf die s).st = .steady)
    (hp : desired die s ≠ ((railOf die s).f, (railOf die s).v)) :
    reform die s = railStart die (desired die s) (setRail die { railOf die s with want := desired die s } s) := by
  rw [reform]
  simp only [ha, hw, hst, hp, Bool.not_true, decide_false, Bool.or_self, Bool.false_eq_true, if_false]

theorem reform_held (ha : railsActive s = true) (hw : (railOf die s).want ≠ desired die s) (hst : (railOf die s).st = .held) :
    reform die s = if (desired die s).1 < (railOf die s).switching.getD (railOf die s).f then
      setRail die { railOf die s with want := desired die s, switching := some (desired die s).1 } s
    else setRail die { railOf die s with want := desired die s } s := by
  rw [reform]
  simp only [ha, hw, hst, Bool.not_true, decide_false, Bool.or_self, Bool.false_eq_true, if_false]

theorem reform_moving (ha : railsActive s = true) (hw : (railOf die s).want ≠ desired die s) (h1 : (railOf die s).st ≠ .steady)
    (h2 : (railOf die s).st ≠ .held) :
    reform die s = setRail die { railOf die s with want := desired die s, pend := some (desired die s) } s := by
  rw [reform]
  simp only [ha, hw, Bool.not_true, decide_false, Bool.or_self, Bool.false_eq_true, if_false]

end

/-- Settles O25: while the rails are under control each event runs its function, whose branch the rail's state picks. -/
theorem powerEventsComplete : Obligations.PowerEventsComplete := by
  unfold Obligations.PowerEventsComplete
  refine ⟨?rail, ?frameError, ?limiter, ?fall, fun s => answers_of rfl rfl, ?recover⟩
  case rail =>
    intro die s hdie ha r w
    have hr := avsReads_of_railsActive ha
    refine ⟨?same, ?steady, ?held, ?moving, ?switched, ?status, ?current, ?temperature, ?slew, ?slewTwice, ?settle, ?loop, ?touched, ?off⟩
    case same => exact fun h => rail_of (f := reform die) rfl hdie ha (reform_same h)
    case steady => exact fun hw hst hp => rail_of (f := reform die) rfl hdie ha (reform_steady ha hw hst hp)
    case held => exact fun hw hst => rail_of (f := reform die) rfl hdie ha (reform_held ha hw hst)
    case moving => exact fun hw h1 h2 => rail_of (f := reform die) rfl hdie ha (reform_moving ha hw h1 h2)
    case switched =>
      refine fun g hg => ⟨fun hst hv => rail_of (f := switchDone die) rfl hdie ha ?_, fun hst => rail_of (f := switchDone die) rfl hdie ha ?_⟩
      · have hst' : (railOf die s).st = .lowerF := hst
        have hv' : (railOf die s).vt ≠ (railOf die s).v := hv
        have hg' : (railOf die s).switching = some g := hg
        simp only [switchDone, hg', hst', hv', ne_eq, not_false_eq_true, if_true]
        rfl
      · have hst' : (railOf die s).st = .raiseF := hst
        have hg' : (railOf die s).switching = some g := hg
        simp only [switchDone, hg', hst', r]
    case status =>
      exact fun v => ⟨avs_of (f := fun s => statusRead die v (avsSend die .readStatus s)) rfl hdie hr rfl,
        avs_of (f := avsPoll die (.status v)) rfl hdie hr rfl⟩
    case current => exact fun ma => avs_of (f := avsPoll die (.current ma)) rfl hdie hr rfl
    case temperature => exact fun t => avs_of (f := avsPoll die (.temperature t)) rfl hdie hr rfl
    case slew => exact fun hst hrep => rail_of (f := slewTimeout die) rfl hdie ha ((if_pos hst).trans (if_neg (Bool.eq_false_iff.1 hrep)))
    case slewTwice => exact fun hst hrep => rail_of (f := slewTimeout die) rfl hdie ha ((if_pos hst).trans (if_pos hrep))
    case settle => exact fun hst => rail_of (f := settleDone die) rfl hdie ha (if_neg (by simpa using hst))
    case loop =>
      intro d ht hst hen
      refine rail_of (f := loopPeriod die d) rfl hdie ha ((if_neg (by simp [ha])).trans ((if_neg ?_).trans ((if_neg (by simp [hen])).trans rfl)))
      have ht' : (railOf die s).touched = false := ht
      have hst' : (railOf die s).st = .steady := hst
      simp [ht', hst']
    case touched =>
      intro d h
      exact rail_of (f := loopPeriod die d) rfl hdie ha ((if_neg (by simp [ha])).trans (if_pos (by simpa using h)))
    case off =>
      intro d ht hst hen
      refine rail_of (f := loopPeriod die d) rfl hdie ha ((if_neg (by simp [ha])).trans ((if_neg ?_).trans (if_pos (by simp [hen]))))
      have ht' : (railOf die s).touched = false := ht
      have hst' : (railOf die s).st = .steady := hst
      simp [ht', hst']
  case frameError =>
    intro die s f hdie hl hf
    have hx : exec (.avsFrameError die) s = .next (settle (frameError die s)) := by
      show Host.Outcome.next (if die < 2 && !halted s then settle (frameError die s) else s) = _
      simp [hdie, hl]
    exact acts_of hx (by simp only [frameError, hf])
  case limiter => exact fun s ha => acts_of (f := limiterPeriod) rfl (if_neg (by simp [ha]))
  case fall => exact fun n s => acts_of (f := pwrFall n) rfl rfl
  case recover => exact fun s h1 h2 => acts_of (f := pwrRecover) rfl (if_pos (by simp [h1, h2]))

end Sys2Proof.Safety
end

section
/-! PROOFS. The events of the ring mailboxes and of the management transports. -/

namespace Sys2Proof.Safety

open Sys2Proof.Machine

section
variable {s : State}

theorem mode_ne_cold_of_mhRuns (h : mhRuns s = true) : s.dev.mode ≠ .cold := by
  intro hm
  simp [mhRuns, serving, hm] at h

/-! ### Completions posted (R142, R144) -/

section
variable {m n : Nat}

/-- The completions that a ring posts next, and those of them that it has room for. -/
def postable (m n : Nat) (s : State) : List Outst := (s.host.cmds.filter (fun o => o.cmd.mb = m && o.known?.isSome)).take (min n 8)

def postsNow (m n : Nat) (s : State) : List Outst := (postable m n s).take (Tab.get s.host.pages m).cqRoom

variable {ok : Bool}

theorem postRing_full (hm : m < 16) (hd : (Tab.get s.pcie.fns (mbReq m s)).d3hot = false) (hks : postable m n s ≠ [])
    (hnow : postsNow m n s = []) :
    postRing m n ok s = noteFull m (decide ((postsNow m n s).length < (postable m n s).length)) s := by
  have hks' : (postable m n s).isEmpty = false := by simpa using hks
  have hnow' : (postsNow m n s).isEmpty = true := by simpa using hnow
  exact (if_neg (by simp only [postable] at hks'; simp only [hks', hd]; simp; omega)).trans (if_pos hnow')

theorem postRing_some (hm : m < 16) (hd : (Tab.get s.pcie.fns (mbReq m s)).d3hot = false) (hnow : postsNow m n s ≠ []) :
    postRing m n ok s =
      (let full := decide ((postsNow m n s).length < (postable m n s).length)
       let p := Tab.get s.host.pages m
       let now := postsNow m n s
       if !ok || !canIssue (mbReq m s) s then
         noteFull m full (ringFault m (discardCmds (fun o => now.any (fun k => isRef m k.id o)) s))
       else
         let s1 := now.foldl (fun s o => match o.known? with | some c => postOne m c s | none => s) s
         let s2 := noteFull m full (countPosted m now.length (dropCmds (fun o => now.any (fun k => isRef m k.id o)) s1))
         if p.ctl.getLsbD 1 && now.any (fun o => !bitN o.cmd.flags 1) then sendMsix (mbReq m s) (bitsN p.ctl.toNat 8 6) s2 else s2) := by
  have hks' : (postable m n s).isEmpty = false := by
    rw [Bool.eq_false_iff]
    exact fun h => hnow (by rw [postsNow, List.isEmpty_iff.1 h, List.take_nil])
  have hnow' : ¬ (postsNow m n s).isEmpty = true := by simpa using hnow
  refine (if_neg (by simp only [postable] at hks'; simp only [hks', hd]; simp; omega)).trans ((if_neg hnow').trans rfl)

end

end

/-- Settles O29: each event finds its ring, its command or its retired reference, and runs the branch that the statement names. -/
theorem mailboxEventsComplete : Obligations.MailboxEventsComplete := by
  unfold Obligations.MailboxEventsComplete
  refine ⟨?fetch, ?post, ?timeout, ?late⟩
  case fetch =>
    intro m l s hf hne hi
    have hgo : ¬ (!canFetch m s || decide ((Tab.get s.host.pages m).sqHead = (Tab.get s.host.pages m).sqTail)) = true := by simp [hf, hne]
    have hi' : ¬ (!canIssue (mbReq m s) s) = true := by simp [hi]
    exact ⟨acts_of (f := mailboxFetch m (some l)) rfl ((if_neg hgo).trans (if_neg hi')),
      acts_of (f := mailboxFetch m none) rfl ((if_neg hgo).trans (if_neg hi'))⟩
  case post =>
    intro m n s hr hm hd hi p ks now marked
    have post {ok : Bool} {u : State} (h : postRing m n ok s = u) : acts (.completionPost m n ok) s u :=
      acts_of (f := fun s => if mhRuns s then postRing m n ok s else s) rfl ((if_pos hr).trans h)
    refine ⟨fun hks hnow ok => post (postRing_full hm hd hks hnow), fun hnow => ⟨post ?_, post ?_⟩⟩
    · exact (postRing_some hm hd hnow).trans (if_neg (by simp [hi]))
    · exact (postRing_some hm hd hnow).trans (if_pos rfl)
  case timeout =>
    intro m q o s hr ho
    refine acts_of (f := commandTimeout m q) rfl ?_
    simp only [commandTimeout, ho, hr, Bool.not_true, Bool.false_eq_true, if_false]
  case late =>
    intro m q x s hx
    refine acts_of (f := lateResult m q) rfl ?_
    simp only [lateResult, hx]

/-! ### SMB0 and SMB1 as targets -/

section
variable {s : State} {p : McPacket} {rd : Reads} {bus : Nat}

/-- A first packet for the device, whole and with its PEC: a message that it ends, or the begin of one. -/
theorem smbPacket_first (hm : s.dev.mode ≠ .cold) (hlen : p.body.length ≤ 64) (hsom : p.som = true) (hnak : nakFirst p s = false)
    (hdest : match s.smb0.eid with | some e => p.dest = e | none => p.dest = 0) :
    smbPacket bus p true rd s =
      (let put := fun (a : Option (Nat × Nat)) (bs : List Byte) => ({ s with smb0 := { s.smb0 with assembling := a, partialMsg := bs } } : State)
       if p.eom then mcpMessage { bus := bus, src := p.src, tag := p.tag } p.body rd (put none []) else put (some (p.seq, p.tag)) p.body) := by
  have hlen' : ¬ 64 < p.body.length := by omega
  rw [smbPacket]
  cases he : s.smb0.eid with
  | none =>
    simp only [he] at hdest
    simp only [hm, hlen', hsom, hnak, hdest]
    simp
  | some e =>
    simp only [he] at hdest
    simp only [hm, hlen', hsom, hnak, hdest]
    simp

theorem smbRead_zero {ps : List McPacket} (hm : s.dev.mode ≠ .cold) (hw : s.smb0.waiting = p :: ps) :
    smbRead 0 s = emit (.smb 0 p) { s with smb0 := { s.smb0 with waiting := ps } } := by
  simp [smbRead, hm, hw]

theorem smbRead_one {ps : List McPacket} (hm : s.dev.mode ≠ .cold) (hw : s.smb0.waiting1 = p :: ps) :
    smbRead 1 s = emit (.smb 1 p) { s with smb0 := { s.smb0 with waiting1 := ps } } := by
  simp [smbRead, hm, hw]

/-! ### The console -/

/-- A command line that the console takes. -/
theorem consoleLine_command {l b : List Byte} (hr : mhRuns s = true) (hout : outCount 18 s = 0) (hlen : l.length ≤ 2060)
    (hhead : l.take 2 = [0x43, 0x20]) (hhex : hexBytes (l.drop 2) = some b) (h8 : 8 ≤ b.length) (hb : b.length = 8 + fieldN b 6 2) :
    consoleLine l rd s = settle (accept (cmdOfBytes 18 0 b rd) .queued s) := by
  have h8' : ¬ b.length < 8 := by omega
  simp [consoleLine, mode_ne_cold_of_mhRuns hr, hr, hout, hhead, maxLine, hlen, hhex, h8', ← hb, consoleCmd]

theorem uartRx_break {bits : List (BitVec 3)} {n : Nat} (hm : s.dev.mode ≠ .cold) (hstop : (uartChar bits).2 = false) :
    uartRx bits n rd s = if 10 ≤ n then { s with uart := { s.uart with breaks := s.uart.breaks + 1 } }
      else { s with uart := { s.uart with framing := s.uart.framing + 1 } } := by
  simp only [uartRx, hm, hstop, Bool.not_false, if_true, if_false]

theorem uartRx_char {bits : List (BitVec 3)} {n : Nat} (hr : mhRuns s = true) (hstop : (uartChar bits).2 = true) :
    uartRx bits n rd s = consoleChar (uartChar bits).1 rd s := by
  simp only [uartRx, mode_ne_cold_of_mhRuns hr, hr, hstop, Bool.not_true, Bool.false_eq_true, if_false]

end

/-- Settles O30: each transport's function on a packet, a line or a character that it can take. -/
theorem transportsComplete : Obligations.TransportsComplete := by
  unfold Obligations.TransportsComplete
  refine ⟨?write, ?read, ?read1, ?control, ?setEndpoint, ?version, ?pmb, ?line, ?char, ?badFrame⟩
  case write =>
    intro p rd s hm hlen hsom hnak hdest put
    exact ⟨acts_of (f := smbPacket 0 p true rd) rfl (smbPacket_first hm hlen hsom hnak hdest),
      acts_of (f := smbPacket 1 p true rd) rfl (smbPacket_first hm hlen hsom hnak hdest),
      acts_of (f := smbPacket 0 p false rd) rfl ((if_neg hm).trans (if_pos rfl))⟩
  case read =>
    intro s p ps hm hw
    exact ⟨answers_of (u := smbRead 0 s) rfl (smbRead_zero hm hw),
      answers_of (u := alertResponse s) rfl (if_neg (by simp [hm, alertLow, hw]))⟩
  case read1 => exact fun s p ps hm hw => answers_of (u := smbRead 1 s) rfl (smbRead_one hm hw)
  case control =>
    exact fun s hm => ⟨acts_of (f := targetReset) rfl (if_neg hm), answers_of (u := getEndpoint {} s) rfl (if_neg hm),
      answers_of (u := getTypes {} s) rfl (if_neg hm)⟩
  case setEndpoint =>
    intro e s hm h0 h255
    have h0' : e.toNat ≠ 0 := fun h => h0 (BitVec.eq_of_toNat_eq h)
    have h255' : e.toNat ≠ 255 := fun h => h255 (BitVec.eq_of_toNat_eq h)
    have hlt : e.toNat < 256 := e.isLt
    exact acts_of (f := setEndpoint {} e.toNat) rfl ((if_neg hm).trans (if_neg (by simp [h0', h255']; omega)))
  case version =>
    intro t s hm
    have hall : (t.toNat = 0xFF ∨ t.toNat = 0) ↔ (t = 0xFF ∨ t = 0) := by
      rw [← BitVec.toNat_inj, ← BitVec.toNat_inj]; rfl
    refine answers_of (u := getVersion {} t.toNat s) rfl ((if_neg hm).trans ?_)
    simp only [Bool.or_eq_true, decide_eq_true_eq, hall]
  case pmb =>
    intro v rd s hv hr hb
    exact acts_of (f := plbGo v rd) rfl ((if_pos hv).trans (if_neg (by simp [hr, hb])))
  case line =>
    exact fun l b rd s hr hout hlen hhead hhex h8 hb =>
      acts_of (f := consoleLine l rd) rfl (consoleLine_command hr hout hlen hhead hhex h8 hb)
  case char =>
    intro bits n rd s hr hstop b put
    refine acts_of (f := uartRx bits n rd) rfl ((uartRx_char hr hstop).trans ?_)
    simp only [consoleChar, Bool.and_eq_true, Bool.or_eq_true, decide_eq_true_eq]
    rfl
  case badFrame => exact fun bits n rd s hm hstop => acts_of (f := uartRx bits n rd) rfl (uartRx_break hm hstop)

end Sys2Proof.Safety
end

section
/-! PROOFS. The control, scalar and memory rows of the tile, and what faults it. -/

namespace Sys2Proof.Safety

open Sys2Proof.Machine

section
variable {c : Nat → Instr} {op : Nat}

/-! ### Rows that set one general register -/

/-- A row of Table 9.5: gD takes its value. -/
theorem rowSets_setG {v w : Fields → Tile → W64} (hv : ∀ x u, w x u = v x u := by intros; rfl)
    (hx : ∀ t s, exec (c t) s = .next (issue op (regBody (fun x u => setG x.d (w x u) u)) t s) := by intros; rfl) :
    rowSets c op (fun x u => setG x.d (v x u) u) := by
  have hw : w = v := funext fun x => funext (hv x)
  subst hw
  exact rowSets_of hx fun _ _ => setG_st _ _ _

theorem flag64_decide (p : Prop) [Decidable p] : flag64 (decide p) = if p then 1 else 0 := by
  unfold flag64
  by_cases hp : p <;> simp [hp]

/-! ### Rows that jump -/

/-- A row that changes only its own tile and jumps: the tile's next state. -/
theorem row_jumps {f : Tile → Tile} {body : Nat → Fields → State → Try} {t q : Nat} {s : State} (h : tileMeets op t s = true)
    (hx : exec (c t) s = .next (issue op body t s)) (hb : body t (here t s) s = .jump q (modTile t f s))
    (hf : (f (tileOf t s)).st = (tileOf t s).st) :
    ∃ s', answers (c t) s s' ∧ onlyTile t s s' ∧ tileOf t s' = atPc q (f (tileOf t s)) := by
  obtain ⟨-, -, -, hrun⟩ := tile_meets h
  have hidle : (f (tileOf t s)).st ≠ .idle := by rw [hf, hrun]; decide
  have htile : tileOf t (modTile t f s) = f (tileOf t s) := tileOf_modTile (tile_ne_default hidle)
  refine ⟨setPc t q (modTile t f s), ?_, onlyTile_trans onlyTile_modTile onlyTile_modTile, ?_⟩
  · unfold answers; rw [hx, issue_meets h, hb]
  · rw [tileOf_setPc (by rw [htile]; exact hidle), htile]

end

/-- Settles O31: every row sets one register, branches on its test, or jumps. -/
theorem tileScalarRowsComplete : Obligations.TileScalarRowsComplete := by
  unfold Obligations.TileScalarRowsComplete
  refine ⟨?nop, ?br, ?beq, ?bne, ?blt, ?bge, ?bltu, ?bgeu, ?bpany, ?bpnone, ?ends, ?jal, ?jr,
    rowSets_setG, rowSets_setG, rowSets_setG, rowSets_setG, rowSets_setG, rowSets_setG, rowSets_setG, rowSets_setG, rowSets_setG,
    rowSets_setG, rowSets_setG, rowSets_setG, rowSets_setG, rowSets_setG, rowSets_setG, ?slt, ?sltu, rowSets_setG, rowSets_setG,
    rowSets_setG, rowSets_setG, rowSets_setG, rowSets_setG, rowSets_setG, rowSets_setG, rowSets_setG, rowSets_setG, rowSets_setG,
    rowSets_setG, rowSets_setG, ?slti⟩
  case nop => exact rowSets_of (fun _ _ => rfl) fun _ _ => rfl
  case br => exact rowBranches_of (q := fun _ _ => true) (fun _ _ => rfl) (by simp)
  case beq => exact rowBranches_of (fun _ _ => rfl) (by simp)
  case bne => exact rowBranches_of (fun _ _ => rfl) (by simp)
  case blt => exact rowBranches_of (fun _ _ => rfl) (by simp)
  case bge => exact rowBranches_of (fun _ _ => rfl) (by simp)
  case bltu => exact rowBranches_of (fun _ _ => rfl) (by simp)
  case bgeu => exact rowBranches_of (fun _ _ => rfl) (by simp)
  case bpany => exact rowBranches_of (fun _ _ => rfl) (by simp)
  case bpnone => exact rowBranches_of (fun _ _ => rfl) (by simp)
  case ends => exact fun t s h => row_jumps (f := fun u => { u with atEnd := true }) h rfl rfl rfl
  case jal => exact fun t s h => row_jumps (f := fun u => setG _ _ u) h rfl rfl (setG_st _ _ _)
  case jr =>
    intro t s h
    have hrun := (tile_meets h).2.2.2
    refine ⟨setPc t ((gReg (tileOf t s) (here t s).a).toNat % 8192) s, ?_, onlyTile_modTile, ?_⟩
    · unfold answers
      exact congrArg Host.Outcome.next (issue_meets h jrBody)
    · rw [tileOf_setPc (by rw [hrun]; decide), atPc, atPc, Nat.mod_mod]
  case slt => exact rowSets_setG (w := fun x u => flag64 (decide ((gReg u x.a).toInt < (gReg u x.b).toInt))) (fun _ _ => flag64_decide _)
  case sltu => exact rowSets_setG (w := fun x u => flag64 (decide ((gReg u x.a).toNat < (gReg u x.b).toNat))) (fun _ _ => flag64_decide _)
  case slti => exact rowSets_setG (w := fun x u => flag64 (decide ((gReg u x.a).toInt < (immS x).toInt))) (fun _ _ => flag64_decide _)

/-! ### Loads and stores -/

theorem storeWaits_eq_false {t o n : Nat} {s : State} (hr : sailWillRead t o n s = false) (hw : sailWillWrite t o n s = false) :
    storeWaits t o n s = false := by rw [storeWaits, hr, hw]; rfl

theorem tileBytes_length (t o n : Nat) (s : State) : (tileBytes t o n s).length = n := getList_length _ _ _

/-- Lane i of the bytes that a vector load reads is the word at its place. -/
theorem byteLane_tileBytes {t o : Nat} {s : State} {i : Nat} (hi : i < 64) :
    byteLane (tileBytes t o 256 s) i = BitVec.ofNat 32 (leNat (tileBytes t (o + 4 * i) 4 s)) := by
  have htake : ((tileBytes t o 256 s).drop (4 * i)).take 4 = tileBytes t (o + 4 * i) 4 s := by
    rw [tileBytes, rawRead, getList_slice s.mem.bytes (4 * i) 4 (tileBase t + o) 256 (by omega), Nat.add_assoc]
    rfl
  simp only [byteLane, fieldN, slice, htake, tileBytes_length, Nat.sub_self, List.replicate_zero, List.append_nil]

/-- Settles O32: a load that is clear of the Sail and of errors takes its bytes; a store that is clear of the Sail writes them. -/
theorem tileMemoryRowsComplete : Obligations.TileMemoryRowsComplete := by
  unfold Obligations.TileMemoryRowsComplete
  intro from_ unsigned signed into stored
  have loads {c : Nat → Instr} {op n : Nat} (hx : ∀ t s, exec (c t) s = .next (issue op (load n false) t s)) :
      rowGoes c op (from_ n) (unsigned n) :=
    rowGoes_of hx fun t s _ ⟨hin, hsail, hclean⟩ => load_ok hin hsail hclean
  have loadsSigned {c : Nat → Instr} {op n : Nat} (hn : n = 1 ∨ n = 2 ∨ n = 4)
      (hx : ∀ t s, exec (c t) s = .next (issue op (load n true) t s)) : rowGoes c op (from_ n) (signed n) := by
    refine rowGoes_of hx fun t s _ ⟨hin, hsail, hclean⟩ => (load_ok hin hsail hclean).trans ?_
    have hlt : leNat (tileBytes t (accOff (here t s) (tileOf t s)) n s) < 256 ^ n := by
      simpa only [tileBytes_length] using leNat_lt (tileBytes t (accOff (here t s) (tileOf t s)) n s)
    rw [if_pos rfl, signedN_signExtend n _ hn hlt]
  have stores {c : Nat → Instr} {op n : Nat} (hx : ∀ t s, exec (c t) s = .next (issue op (store n) t s)) :
      rowGoes c op (into n) (stored n) :=
    rowGoes_of hx fun t s _ ⟨hin, hr, hw⟩ => store_ok hin (storeWaits_eq_false hr hw)
  refine ⟨loadsSigned (by decide) fun _ _ => rfl, loads fun _ _ => rfl, loadsSigned (by decide) fun _ _ => rfl, loads fun _ _ => rfl,
    loadsSigned (by decide) fun _ _ => rfl, loads fun _ _ => rfl, loads fun _ _ => rfl, stores fun _ _ => rfl, stores fun _ _ => rfl,
    stores fun _ _ => rfl, stores fun _ _ => rfl, ?vld, ?vst⟩
  case vld =>
    refine rowGoes_of (body := vldBody) (fun _ _ => rfl) fun t s _ ⟨⟨hin, hsail, hclean⟩, halign⟩ => ?_
    simp only [vldBody, hin, hsail, halign, tileRead_clean hclean]
    rw [setV_congr fun i hi => byteLane_tileBytes hi]
    rfl
  case vst =>
    refine rowGoes_of (body := vstBody) (fun _ _ => rfl) fun t s _ ⟨⟨hin, hr, hw⟩, halign⟩ => ?_
    simp only [vstBody, hin, storeWaits_eq_false hr hw, halign]
    by_cases hpg : (here t s).pg = 0 <;> simp [hpg]

/-! ### Faults -/

/-- Settles O33: each fault is its row's own first branch, and a fault leaves what `tileFault_leaves` says. -/
theorem tileWordsFault : Obligations.TileWordsFault := by
  unfold Obligations.TileWordsFault
  refine ⟨?reserved, ?outside, ?misaligned, fun t code pc s h1 h2 => if_pos (by simp [h1, h2]), tileFault_leaves, ?watchdog, ?ends⟩
  case reserved => exact fun t s hi hl => answers_of (u := reservedHere t s) rfl (if_pos (by simp [hi, show legal (fieldsOf (wordAt t s)) = false from hl]))
  case outside =>
    intro t s hm hout
    refine answers_of (u := issue 0x36 (load 8 false) t s) rfl ?_
    rw [issue_meets hm, load]
    simp only [hout]
    rfl
  case misaligned =>
    intro t s hm hal
    refine answers_of (u := issue 0x71 vstBody t s) rfl ?_
    rw [issue_meets hm, vstBody]
    simp [hal]
  case watchdog => exact fun t s hr h => answers_of (u := watchdog t s) rfl (if_pos (by simpa [hr] using h))
  case ends => exact fun t s hr he hq hd => answers_of (u := programEnd t s) rfl (if_pos (by simp [hr, he, hq, hd]))

end Sys2Proof.Safety
end

section
/-! PROOFS. The vector, reduction, predicate and conversion rows of the tile. -/

namespace Sys2Proof.Safety

open Sys2Proof.Machine

section
variable {c : Nat → Instr} {op : Nat}

/-! ### Rows that set one vector or predicate register -/

/-- A row that writes the active lanes of vD. -/
theorem rowSets_setV {pg : Fields → Nat} {g : Fields → Tile → Nat → W32}
    (hx : ∀ t s, exec (c t) s = .next (issue op (regBody (fun x u => setV x.d (pg x) (g x u) u)) t s) := by intros; rfl) :
    rowSets c op (fun x u => setV x.d (pg x) (g x u) u) := rowSets_of hx fun _ _ => setV_st _ _ _ _

/-- A row that writes the active bits of pD. -/
theorem rowSets_setPBits {g : Fields → Tile → Nat → Bool}
    (hx : ∀ t s, exec (c t) s = .next (issue op (regBody (fun x u => setPBits x.d x.pg (g x u) u)) t s) := by intros; rfl) :
    rowSets c op (fun x u => setPBits x.d x.pg (g x u) u) := rowSets_of hx fun _ _ => setPBits_st _ _ _ _

/-- A row that writes pD whole. -/
theorem rowSets_setP {g : Fields → Tile → W64}
    (hx : ∀ t s, exec (c t) s = .next (issue op (regBody (fun x u => setP x.d (g x u) u)) t s) := by intros; rfl) :
    rowSets c op (fun x u => setP x.d (g x u) u) := rowSets_of hx fun _ _ => setP_st _ _ _

end

/-- A word moved to a general register is extended with zeros. -/
theorem ofNat_toNat_eq_setWidth (w : W32) : BitVec.ofNat 64 w.toNat = w.setWidth 64 :=
  BitVec.eq_of_toNat_eq (by simp)

/-- VRMAX and VRMIN: the fold over the active lanes, or the value that stands for none. -/
theorem rowSets_extreme {c : Nat → Instr} {op : Nat} {f : W32 → W32 → W32} {z : W32}
    (hx : ∀ t s, exec (c t) s = .next (issue op (vrExt f z) t s)) :
    rowSets c op (fun x u => setG x.d
      ((match activeList u x.a x.pg with | [] => z | a :: l => if isNan (l.foldl f a) then nan32 else l.foldl f a : W32).setWidth 64) u) := by
  refine rowSets_setG (fun x u => ?_) hx
  rw [ofNat_toNat_eq_setWidth]
  rfl

/-- Settles O34: every row sets one register by its own function of the lanes. -/
theorem tileVectorRowsComplete : Obligations.TileVectorRowsComplete := by
  unfold Obligations.TileVectorRowsComplete
  intro v1 v2 packed v3 compares extreme
  refine ⟨rowSets_setV, rowSets_setV, rowSets_setV, rowSets_setV, rowSets_setV, rowSets_setV, rowSets_setV, rowSets_setV, rowSets_setV,
    rowSets_setV, rowSets_setV, rowSets_setV, rowSets_setPBits, rowSets_setPBits, rowSets_setPBits, rowSets_setV, rowSets_setV,
    rowSets_setV, rowSets_setV, rowSets_setV, rowSets_setV, rowSets_setV, rowSets_setV, rowSets_setV, rowSets_setV, rowSets_setV,
    rowSets_setPBits, rowSets_setV, rowSets_setV, rowSets_setV, ?sel, rowSets_setV, rowSets_setV, ?ext, ?ins, rowSets_setV, rowSets_setV,
    ?rsum, rowSets_extreme fun _ _ => rfl, rowSets_extreme fun _ _ => rfl, rowSets_setP, rowSets_setP, rowSets_setG, rowSets_setP,
    rowSets_setP, rowSets_setV, rowSets_setV, rowSets_setV, rowSets_setV, ?q8, ?q4, ?dq8, ?dq4⟩
  case sel => exact rowSets_setV (pg := fun _ => 0)
  case ext => exact rowSets_setG fun _ _ => ofNat_toNat_eq_setWidth _
  case ins => exact rowSets_of (fun _ _ => rfl) fun _ _ => rfl
  case rsum => exact rowSets_setG fun _ _ => ofNat_toNat_eq_setWidth _
  case q8 => exact rowSets_setV (pg := fun _ => 0)
  case q4 => exact rowSets_setV (pg := fun _ => 0)
  case dq8 => exact rowSets_setV (pg := fun _ => 0)
  case dq4 => exact rowSets_setV (pg := fun _ => 0)

end Sys2Proof.Safety
end

section
/-! PROOFS. The rows of the Sail, the execution of its queue and its drains. -/

namespace Sys2Proof.Safety

open Sys2Proof.Machine

section
variable {t : Nat} {s : State}

/-! ### Operands that a row may use -/

/-- An operand that lies in tile memory, or whose Sheet is open in a direction that the row allows: none of the row's faults. -/
theorem src_usable {need : Nat} {dirs : List Nat} {a : SailSrc}
    (h : (∀ o, a = .mem o → inTmem o (64 * need) = true ∧ o % 64 = 0) ∧
      (∀ n, a = .sheet n → (sheetOf t n s).st = .opened ∧ (sheetOf t n s).dir ∈ dirs)) :
    srcUse t dirs a s = .ok ∧ srcOut (64 * need) a = false ∧ srcMisaligned a = false := by
  obtain ⟨hmem, hsheet⟩ := h
  cases a with
  | mem o => obtain ⟨hin, hal⟩ := hmem o rfl; simp [srcUse, srcOut, srcMisaligned, hin, hal]
  | sheet n => obtain ⟨hst, hdir⟩ := hsheet n rfl; simp [srcUse, sheetUse, srcOut, srcMisaligned, hst, hdir]

theorem drainBytes_eq (bf : Bool) : drainBytes bf = 64 * (if bf then 256 else 512) := by cases bf <;> rfl

theorem bitN_eq_testBit (v i : Nat) : bitN v i = v.testBit i := Nat.testBit_eq_decide_div_mod_eq.symm

variable {x : Fields} {A B : SailSrc}

/-- SMMA, SSCL and SDRAIN with usable operands go to the queue. -/
theorem smmaBody_usable {F : Nat} (hF : bitsN x.imm 0 2 = F)
    (hA : sailSrc (tileOf t s) (bitN x.imm 2) (bitsN x.imm 4 5) x.a = A) (hB : sailSrc (tileOf t s) (bitN x.imm 3) (bitsN x.imm 9 5) x.b = B)
    (ha : srcUse t [0, 2] A s = .ok ∧ srcOut (64 * smmaWords F false) A = false ∧ srcMisaligned A = false)
    (hb : srcUse t [0, 2] B s = .ok ∧ srcOut (64 * smmaWords F true) B = false ∧ srcMisaligned B = false) :
    smmaBody t x s = sailIssue (.smma x.d F A B) t s := by
  simp only [smmaBody, hF, hA, hB, popDirs, ha, hb]
  rfl

theorem ssclBody_usable (hA : sailSrc (tileOf t s) (bitN x.imm 2) (bitsN x.imm 4 5) x.a = A)
    (ha : srcUse t [0, 2] A s = .ok ∧ srcOut (64 * 12) A = false ∧ srcMisaligned A = false) : ssclBody t x s = sailIssue (.sscl A) t s := by
  simp only [ssclBody, hA, popDirs, ha]
  rfl

theorem sdrainBody_usable {bf z : Bool} (hbf : bitN x.imm 0 = bf) (hz : bitN x.imm 1 = z)
    (hA : sailSrc (tileOf t s) (bitN x.imm 2) (bitsN x.imm 4 5) x.a = A)
    (ha : srcUse t [1, 2] A s = .ok ∧ srcOut (64 * (if bf then 256 else 512)) A = false ∧ srcMisaligned A = false) :
    sdrainBody t x s = sailIssue (.sdrain x.d bf z A) t s := by
  simp only [sdrainBody, hbf, hz, hA, pushDirs, drainBytes_eq, ha]
  rfl

theorem sailIssue_room {k : SailKind} (h : (tileOf t s).queue.length < 4) :
    sailIssue k t s = .adv (modTile t (fun u => { u with queue := u.queue ++ [{ kind := k, pc := u.pc }] }) s) :=
  if_neg (Nat.not_le.2 h)

/-! ### What a tile's changes leave -/

theorem modTile_congr {f g : Tile → Tile} (h : f (tileOf t s) = g (tileOf t s)) : modTile t f s = modTile t g s := by
  unfold modTile Tab.mod
  rw [show f (Tab.get s.comp.tiles t) = g (Tab.get s.comp.tiles t) from h]

theorem ne_default_of_queue {u : Tile} {q : SailOp} {qs : List SailOp} (h : u.queue = q :: qs) : u ≠ default := by
  rintro rfl; cases h

variable {q p : SailOp} {qs : List SailOp}

theorem tileOf_setHead (hq : (tileOf t s).queue = q :: qs) : tileOf t (setHead t p s) = { tileOf t s with queue := p :: qs } := by
  have hdrop : (tileOf t s).queue.drop 1 = qs := by rw [hq]; rfl
  rw [setHead, tileOf_modTile (ne_default_of_queue (q := p) (qs := qs) (by rw [hdrop])), hdrop]

/-- An instruction that executes: its effect on the tile, then its mark at the head of the queue. -/
theorem tileOf_setHead_modTile {f : Tile → Tile} (hf : (f (tileOf t s)).queue = (tileOf t s).queue) (hq : (tileOf t s).queue = q :: qs) :
    tileOf t (setHead t p (modTile t f s)) = { f (tileOf t s) with queue := p :: qs } := by
  have hmod : tileOf t (modTile t f s) = f (tileOf t s) := tileOf_modTile (ne_default_of_queue (hf.trans hq))
  rw [tileOf_setHead (q := q) (qs := qs) (by rw [hmod, hf, hq]), hmod]

theorem onlyTile_setHead_modTile {f : Tile → Tile} : onlyTile t s (setHead t p (modTile t f s)) :=
  onlyTile_trans onlyTile_modTile onlyTile_modTile

/-! ### Execution -/

/-- What an instruction of each kind does when it starts (R204 - R206). -/
def sailStarts (t : Nat) (q : SailOp) (s : State) : SailKind → State
  | .smma acc fmt a b => sailRun t q a (smmaWords fmt false) (some (b, smmaWords fmt true)) (smmaApply acc fmt) s
  | .sscl a => sailRun t q a 12 none (fun bs _ => ssclApply bs) s
  | .szero acc => setHead t { q with begun := true, executed := true } (modTile t (szeroApply acc) s)
  | .sdrain acc bf zero tgt =>
    modTile t (fun u => { u with queue := u.queue.drop 1, drain := some { acc := acc, bf := bf, zero := zero, tgt := tgt } }) s

theorem sailExecute_starts (hq : (tileOf t s).queue = q :: qs) (he : q.executed = false) (hd : drainBlocks t q s = false)
    (hr : (tileOf t s).st = .running ∨ q.begun = true) (hc : domainLost (tileDie t) s = false) (hm : s.dev.mode ≠ .safe) :
    sailExecute t s = sailStarts t q s q.kind := by
  have hgo : ¬ (q.executed || drainBlocks t q s || !sailRuns (tileOf t s) q || domainLost (tileDie t) s || decide (s.dev.mode = .safe)) = true := by
    simpa [he, hd, hc, hm, sailRuns, ← or_iff_not_imp_left] using hr
  rw [sailExecute, hq]
  exact if_neg hgo

/-- One operand in tile memory, without errors. -/
theorem sailRun_mem {o na : Nat} {f : List Byte → List Byte → Tile → Tile} (ho : rangeClean (tileBase t + o) (64 * na) s = true) :
    sailRun t q (.mem o) na none f s = setHead t { q with begun := true, executed := true }
      (modTile t (f (tileBytes t o (64 * na) s) []) (setHead t { q with begun := true } s)) := by
  have hread : tileRead t o (64 * na) (setHead t { q with begun := true } s) =
      (some (tileBytes t o (64 * na) s), setHead t { q with begun := true } s) := tileRead_clean ho
  simp only [sailRun, gather, operand, Bool.or_self, Bool.false_eq_true, if_false, hread]

/-- Two operands in tile memory, without errors. -/
theorem sailRun_mems {oa ob na nb : Nat} {f : List Byte → List Byte → Tile → Tile} (ha : rangeClean (tileBase t + oa) (64 * na) s = true)
    (hb : rangeClean (tileBase t + ob) (64 * nb) s = true) :
    sailRun t q (.mem oa) na (some (.mem ob, nb)) f s = setHead t { q with begun := true, executed := true }
      (modTile t (f (tileBytes t oa (64 * na) s) (tileBytes t ob (64 * nb) s)) (setHead t { q with begun := true } s)) := by
  have hreadA : tileRead t oa (64 * na) (setHead t { q with begun := true } s) =
      (some (tileBytes t oa (64 * na) s), setHead t { q with begun := true } s) := tileRead_clean ha
  have hreadB : tileRead t ob (64 * nb) (setHead t { q with begun := true } s) =
      (some (tileBytes t ob (64 * nb) s), setHead t { q with begun := true } s) := tileRead_clean hb
  simp only [sailRun, gather, operand, Bool.or_self, Bool.false_eq_true, if_false, hreadA, hreadB]

/-- One operand in a Sheet, whose words are all there. -/
theorem sailRun_sheet {n na : Nat} {ws : List Byte} {f : List Byte → List Byte → Tile → Tile} (hgot : q.gotA = []) (hna : 0 < na)
    (hst : (sheetOf t n s).st = .opened) (hpres : na ≤ (sheetOf t n s).present)
    (hread : sheetRead t (sheetOf t n s) na (sheetOf t n s).read s = (some ws, s)) (hlen : ws.length = 64 * na) :
    sailRun t q (.sheet n) na none f s = setHead t { q with begun := true, executed := true } (modTile t (f ws [])
      (setHead t { q with begun := true, gotA := ws } (modSheet t n (fun h => { h with read := h.read + na }) s))) := by
  have hk : min (sheetOf t n s).present na = na := Nat.min_eq_right hpres
  have hna' : na ≠ 0 := Nat.pos_iff_ne_zero.1 hna
  have hgather : gather t (.sheet n) na q.gotA s = (ws, false, modSheet t n (fun h => { h with read := h.read + na }) s) := by
    simp only [gather, hgot, List.length_nil, Nat.zero_div, Nat.sub_zero, hk, hst, hna', hread]
    rfl
  simp only [sailRun, hgather, operand, hlen, if_true, Bool.or_self, Bool.false_eq_true, if_false]

/-- After its words are popped and its effect is in the tile: what the tile holds. -/
theorem tileOf_executed {f : Tile → Tile} {r : SailOp} (hf : ∀ u, (f u).queue = u.queue)
    (hf' : ∀ u l, ({ f { u with queue := l } with queue := p :: qs } : Tile) = { f u with queue := p :: qs })
    (hq : (tileOf t s).queue = q :: qs) :
    tileOf t (setHead t p (modTile t f (setHead t r s))) = { f (tileOf t s) with queue := p :: qs } := by
  have hhead : tileOf t (setHead t r s) = { tileOf t s with queue := r :: qs } := tileOf_setHead hq
  rw [tileOf_setHead_modTile (q := r) (qs := qs) (hf _) (by rw [hhead]), hhead, hf']

end

theorem sheet_ne_default {h : Sheet} (hst : h.st = .opened) : h ≠ default := by rintro rfl; cases hst

/-- The bits of a tile that its queue does not touch are read alike after the queue changes. -/
theorem smmaApply_queue (n f : Nat) (a b : List Byte) (u : Tile) (l m : List SailOp) :
    ({ smmaApply n f a b { u with queue := l } with queue := m } : Tile) = { smmaApply n f a b u with queue := m } := by
  have helem : ∀ i j, smmaElem f a b { u with queue := l } n i j = smmaElem f a b u n i j := fun _ _ => rfl
  simp only [smmaApply, helem]

/-- Settles O35: usable operands queue; the head executes with its operand words; a drain writes or pushes and frees the path. -/
theorem sailRowsComplete : Obligations.SailRowsComplete := by
  unfold Obligations.SailRowsComplete
  intro ready src a b room queues
  refine ⟨?smma, ?sscl, ?szero, ?sdrain, ?execute, ?drainMem, ?drainSheet, ?done⟩
  case smma =>
    exact rowGoes_of (body := smmaBody) (fun _ _ => rfl) fun t s _ ⟨hroom, ha, hb⟩ =>
      (smmaBody_usable (by simp [bitsN]) (by rw [bitN_eq_testBit]; rfl) (by rw [bitN_eq_testBit]; rfl) (src_usable ha)
        (src_usable hb)).trans (sailIssue_room hroom)
  case sscl =>
    exact rowGoes_of (body := ssclBody) (fun _ _ => rfl) fun t s _ ⟨hroom, ha⟩ =>
      (ssclBody_usable (by rw [bitN_eq_testBit]; rfl) (src_usable ha)).trans (sailIssue_room hroom)
  case szero => exact rowGoes_of (body := szeroBody) (fun _ _ => rfl) fun t s _ h => sailIssue_room h
  case sdrain =>
    exact rowGoes_of (body := sdrainBody) (fun _ _ => rfl) fun t s _ ⟨hroom, ha⟩ =>
      (sdrainBody_usable (bitN_eq_testBit _ _) (bitN_eq_testBit _ _) (by rw [bitN_eq_testBit]; rfl) (src_usable ha)).trans
        (sailIssue_room hroom)
  case execute =>
    intro t ups q qs s0 s hq he hd hr hc hm done
    have execute {k : SailKind} {u : State} (hk : q.kind = k) (h : sailStarts t q s k = u) : answers (.sailExecute ⟨t, ups⟩) s0 u :=
      answers_of (u := sailExecute t s) rfl ((sailExecute_starts hq he hd hr hc hm).trans (hk ▸ h))
    refine ⟨?szero, ?sdrain, ?ssclMem, ?smma, ?ssclSheet⟩
    case szero =>
      exact fun n hk => ⟨_, execute hk rfl, onlyTile_setHead_modTile, tileOf_setHead_modTile (f := szeroApply n) rfl hq⟩
    case sdrain => exact fun n bf z tgt hk => execute hk (modTile_congr (by rw [hq]; rfl))
    case ssclMem =>
      exact fun o hk ho => ⟨_, execute hk (sailRun_mem (q := q) (na := 12) (f := fun bs _ => ssclApply bs) ho), onlyTile_trans onlyTile_modTile onlyTile_setHead_modTile,
        tileOf_executed (fun _ => rfl) (fun _ _ => rfl) hq⟩
    case smma =>
      exact fun n f oa ob hk ha hb => ⟨_, execute hk (sailRun_mems (q := q) (f := smmaApply n f) ha hb), onlyTile_trans onlyTile_modTile onlyTile_setHead_modTile,
        tileOf_executed (fun _ => rfl) (fun _ _ => smmaApply_queue _ _ _ _ _ _ _) hq⟩
    case ssclSheet =>
      intro n ws hk hgot hst hpres hread hlen
      have hrun := sailRun_sheet (q := q) (na := 12) (f := fun bs _ => ssclApply bs) hgot (by decide) hst hpres hread hlen
      refine ⟨_, execute hk hrun, by simp only [setHead, modTile_keeps, modSheet_keeps], fun m hmn => ?_, ?_, ?_⟩
      · exact Tab.get_put_ne _ _ (by omega)
      · exact Tab.get_put_self_of_ne _ _ (sheet_ne_default hst)
      · exact tileOf_executed (s := modSheet _ _ _ s) (fun _ => rfl) (fun _ _ => rfl) hq
  case drainMem =>
    intro t d o s hd ht
    refine answers_of (u := drainStep t s) rfl ?_
    simp only [drainStep, hd, ht]
    rfl
  case drainSheet =>
    intro t d n s hd ht hst hcred hpush
    have hk : min (sheetOf t n s).credits (drainBytes d.bf / 64 - 0) = drainBytes d.bf / 64 := Nat.min_eq_right hcred
    refine answers_of (u := drainStep t s) rfl ?_
    simp only [drainStep, hd, ht, hst, hpush, hk, Nat.zero_add, Nat.mul_zero, List.drop_zero, if_true]
    rfl
  case done =>
    intro t q qs s hq he
    refine answers_of (u := sailDone t s) rfl ?_
    simp only [sailDone, hq, he, if_true]
    exact modTile_congr (by rw [hq]; rfl)

end Sys2Proof.Safety
end

section
/-! PROOFS. The Cleat and CSR rows of the tile, the signals that arrive and the waits that are released. -/

namespace Sys2Proof.Safety

open Sys2Proof.Machine

section
variable {t : Nat} {x : Fields} {s : State}

/-! ### The Cleat that a row names -/

theorem cleatNamed_eq : cleatNamed t x = (x.imm.testBit 12, if x.imm.testBit 12 then x.imm % 4096 else 32 * t + x.imm % 4096) := by
  rw [cleatNamed, bitN_eq_testBit]
  cases x.imm.testBit 12 <;> rfl

/-- What an access to a Cleat allows the tile: to wait and to read, or all. -/
def cleatAllows (full : Bool) (t : Nat) (x : Fields) (s : State) : Prop :=
  let idx := if x.imm.testBit 12 then x.imm % 4096 else 32 * t + x.imm % 4096
  if x.imm.testBit 12 then (if full then Tab.get (tileOf t s).gcl idx = some true else (Tab.get (tileOf t s).gcl idx).isSome = true)
  else (cleatOf false idx s).active = true ∧ (full = true → (cleatOf false idx s).full = true)

theorem cleatAccess_full (h : cleatAllows true t x s) : cleatAccess t x s = some true := by
  rw [cleatAccess, cleatNamed_eq]
  cases hg : x.imm.testBit 12 with
  | true => simpa [cleatAllows, hg] using h
  | false => simpa [cleatAllows, hg] using h

theorem cleatAccess_some (h : cleatAllows false t x s) : (cleatAccess t x s).isNone = false := by
  rw [cleatAccess, cleatNamed_eq]
  cases hg : x.imm.testBit 12 with
  | true => simpa [cleatAllows, hg, ← Option.not_isSome] using h
  | false => simp [cleatAllows, hg] at h; simp [h]

theorem cleatAllows_local {full : Bool} (h : cleatAllows full t x s) (hg : x.imm.testBit 12 = false) :
    (cleatOf false (32 * t + x.imm % 4096) s).active = true := by
  simp [cleatAllows, hg] at h
  exact h.1

/-! ### Signals on their way to a Cleat (Table 10.7) -/

variable {m : CleatMsg}

theorem cleatSet_open {glob : Bool} {i v : Nat} (ha : (cleatOf glob i s).active = true) (ho : (cleatOf glob i s).ovf = false) :
    cleatSet glob i v s = modCleat glob i (fun c => releaseWaits { c with count := v }) s := if_neg (by simp [ha, ho])

theorem sigArrive_set (hs : m.set = true) (ha : (cleatOf m.glob m.idx s).active = true) (ho : (cleatOf m.glob m.idx s).ovf = false) :
    sigArrive m s = modCleat m.glob m.idx (fun c => releaseWaits { c with count := m.v }) s :=
  (if_pos hs).trans (cleatSet_open ha ho)

theorem sigArrive_adds (hs : m.set = false) (ha : (cleatOf m.glob m.idx s).active = true) (ho : (cleatOf m.glob m.idx s).ovf = false)
    (hc : (cleatOf m.glob m.idx s).count + m.v < 2 ^ 32) :
    sigArrive m s = modCleat m.glob m.idx (fun c => releaseWaits { c with count := c.count + m.v }) s := by
  have hclosed : ¬ (!(cleatOf m.glob m.idx s).active || (cleatOf m.glob m.idx s).ovf) = true := by simp [ha, ho]
  refine (if_neg (Bool.eq_false_iff.1 hs)).trans ?_
  cases m.src with
  | none => exact (if_neg hclosed).trans (if_pos hc)
  | some p => exact (if_neg hclosed).trans (if_pos hc)

theorem sigArrive_overflows (hs : m.set = false) (hsrc : m.src = none) (ha : (cleatOf m.glob m.idx s).active = true)
    (ho : (cleatOf m.glob m.idx s).ovf = false) (hc : 2 ^ 32 ≤ (cleatOf m.glob m.idx s).count + m.v) :
    sigArrive m s = raise (overflowSrc m.glob m.idx) (modCleat m.glob m.idx (fun c => { c with ovf := true }) s) := by
  refine (if_neg (Bool.eq_false_iff.1 hs)).trans ?_
  rw [hsrc]
  exact (if_neg (by simp [ha, ho])).trans (if_neg (Nat.not_lt.2 hc))

theorem sigArrive_faults {pc : Nat} {d : Option Nat} (hs : m.set = false) (hsrc : m.src = some (t, pc, d)) (hd : (tileOf t s).disp = d)
    (ha : (cleatOf m.glob m.idx s).active = true) (ho : (cleatOf m.glob m.idx s).ovf = false)
    (hc : 2 ^ 32 ≤ (cleatOf m.glob m.idx s).count + m.v) : sigArrive m s = tileFault t 0x07 pc s := by
  refine (if_neg (Bool.eq_false_iff.1 hs)).trans ?_
  rw [hsrc]
  exact (if_neg (by simp [ha, ho])).trans ((if_neg (Nat.not_lt.2 hc)).trans (if_pos hd))

theorem sigArrive_closed (h : (cleatOf m.glob m.idx s).active = false ∨ (cleatOf m.glob m.idx s).ovf = true) : sigArrive m s = s := by
  have hclosed : (!(cleatOf m.glob m.idx s).active || (cleatOf m.glob m.idx s).ovf) = true := by simpa using h
  rw [sigArrive]
  by_cases hs : m.set = true
  · rw [if_pos hs]; exact if_pos hclosed
  · rw [if_neg hs]
    cases m.src with
    | none => exact if_pos hclosed
    | some p => exact if_pos hclosed

/-- One signal arrives. -/
theorem sigsArrive_one {ms : List CleatMsg} (h : s.comp.sigs = m :: ms) :
    sigsArrive 1 s = sigArrive m { s with comp := { s.comp with sigs := ms } } := by
  simp only [sigsArrive, h, List.take_succ_cons, List.take_zero, List.drop_succ_cons, List.drop_zero]
  cases hm : m.set <;> simp [hm]

/-- A CLSET arrives before a signal of its cycle. -/
theorem sigsArrive_set_first {a b : CleatMsg} {ms : List CleatMsg} (h : s.comp.sigs = a :: b :: ms) (ha : a.set = false) (hb : b.set = true) :
    sigsArrive 2 s = sigArrive a (sigArrive b { s with comp := { s.comp with sigs := ms } }) := by
  simp [sigsArrive, h, ha, hb]

/-! ### CSRs -/

theorem csrWaits_eq_false {n : Nat} {u : Tile} (h : (n = 3 ∨ n = 4) → u.queue = [] ∧ u.drain = none) : csrWaits n u = false := by
  rw [csrWaits]
  by_cases hn : n = 3 ∨ n = 4
  · simp [h hn]
  · simp only [not_or] at hn
    simp [hn]

theorem ofNat_b2n (b : Bool) : BitVec.ofNat 64 (b2n b) = if b then 1 else 0 := by cases b <;> rfl

end

/-- Settles O37: a row whose access allows it acts on the Cleat it names; the messages arrive as `sigArrive` says. -/
theorem cleatAndCsrRowsComplete : Obligations.CleatAndCsrRowsComplete := by
  unfold Obligations.CleatAndCsrRowsComplete
  intro global idx may low added sails reads
  refine ⟨?clsig, ?clsigFault, ?clwait, ?clwaitStall, ?clrd, ?clset, ?csrr, ?cycle, ?csrw, ?signal, ?signals, ?tileRelease, ?halRelease⟩
  case clsig =>
    refine rowGoes_of (body := clsigBody) (fun _ _ => rfl) fun t s _ ⟨hmay, hlocal⟩ => ?_
    simp only [clsigBody, cleatNamed_eq, cleatAccess_full hmay]
    cases hg : (here t s).imm.testBit 12 with
    | true => simp [global, idx, low, hg, gbWord]
    | false =>
      obtain ⟨hovf, hroom⟩ := hlocal hg
      simp only [idx, low, global, hg] at hovf hroom
      simp [-Nat.reducePow, global, idx, low, added, hg, gbWord] at hovf hroom ⊢
      simp [-Nat.reducePow, hovf, Nat.not_le.2 hroom]
  case clsigFault =>
    intro t s hm hmay hg hovf hfull
    refine answers_of (u := issue 0xB4 clsigBody t s) rfl ?_
    rw [issue_meets hm]
    simp only [idx, low, global] at hg hovf hfull
    simp [-Nat.reducePow, hg] at hovf hfull
    simp [-Nat.reducePow, clsigBody, cleatNamed_eq, cleatAccess_full hmay, hg, hovf, gbWord, hfull]
  case clwait =>
    refine rowGoes_of (body := clwaitBody) (fun _ _ => rfl) fun t s _ ⟨hmay, hact, hthr⟩ => ?_
    simp only [global, idx, low] at hact hthr
    simp [-Nat.reducePow, clwaitBody, cleatNamed_eq, cleatAccess_some hmay, hact, gbWord, hthr]
  case clwaitStall =>
    intro t s hm hmay hlow hrel
    refine answers_of (u := issue 0xB5 clwaitBody t s) rfl ?_
    rw [issue_meets hm]
    simp only [global, idx, low] at hlow hrel ⊢
    simp [-Nat.reducePow, clwaitBody, cleatNamed_eq, cleatAccess_some hmay, gbWord, Nat.not_le.2 hlow, hrel]
  case clrd =>
    refine rowGoes_of (body := clrdBody) (fun _ _ => rfl) fun t s _ hmay => ?_
    simp only [clrdBody, cleatNamed_eq, cleatAccess_some hmay]
    rfl
  case clset =>
    refine rowGoes_of (body := clsetBody) (fun _ _ => rfl) fun t s _ ⟨hmay, hlocal⟩ => ?_
    simp only [clsetBody, cleatNamed_eq, cleatAccess_full hmay]
    cases hg : (here t s).imm.testBit 12 with
    | true => simp [global, idx, low, hg, gbWord]
    | false =>
      have hovf := hlocal hg
      simp [global, idx, low, hg, gbWord] at hovf ⊢
      rw [cleatSet_open (cleatAllows_local hmay hg) hovf]
  case csrr =>
    refine rowGoes_of (body := csrrBody) (fun _ _ => rfl) fun t s _ ⟨h2, hsails⟩ => ?_
    simp only [csrrBody, csrWaits_eq_false hsails, h2, if_false, reads, Bool.false_eq_true, ← ofNat_b2n]
    split_ifs <;> simp [tileDie]
  case cycle =>
    refine rowGoes_of (body := csrrBody) (fun _ _ => rfl) fun t s _ h2 => ?_
    simp [csrrBody, csrWaits, h2, drawFree]
  case csrw =>
    refine rowGoes_of (body := csrwBody) (fun _ _ => rfl) fun t s _ hsails => ?_
    simp only [csrwBody, csrWaits_eq_false hsails, if_false, Bool.false_eq_true]
    by_cases h3 : (here t s).imm = 3 <;> simp only [h3, if_true, if_false]
  case signal =>
    intro m ms s hsig s1 c
    have arrives {u : State} (h : sigArrive m s1 = u) : answers (.cleatSignal 1) s u :=
      answers_of (u := sigsArrive 1 s) rfl ((sigsArrive_one hsig).trans h)
    exact ⟨fun hs ha ho => arrives (sigArrive_set hs ha ho), fun hs ha ho hc => arrives (sigArrive_adds hs ha ho hc),
      fun hs hsrc ha ho hc => arrives (sigArrive_overflows hs hsrc ha ho hc),
      fun t pc d hs hsrc hd ha ho hc => arrives (sigArrive_faults hs hsrc hd ha ho hc), fun h => arrives (sigArrive_closed h)⟩
  case signals => exact fun a b ms s h ha hb => answers_of (u := sigsArrive 2 s) rfl (sigsArrive_set_first h ha hb)
  case tileRelease =>
    intro t s hm hmay hact hrel
    simp only [global, idx] at hact hrel
    refine answers_of (u := tileWaitRelease t s) rfl ?_
    simp only [tileWaitRelease, show fieldsOf (wordAt t s) = here t s from rfl, (tile_meets hm).2.1, cleatNamed_eq, hrel, decide_true,
      Bool.and_true, if_true]
    rw [issue_meets hm]
    simp [-Nat.reducePow, clwaitBody, cleatNamed_eq, cleatAccess_some hmay, hact, hrel]
  case halRelease =>
    exact fun h s hst hop hw => answers_of (u := halWaitRelease h s) rfl (if_pos (by
      simp only [hst, show (descOf (descBytes (halOf h s) (halOf h s).idx s)).op = 7 from hop, decide_true, Bool.true_and]
      exact hw))

end Sys2Proof.Safety
end

section
/-! PROOFS. The descriptors of a Halyard. -/

namespace Sys2Proof.Safety

open Sys2Proof.Machine

section
variable {h op : Nat} {body : HalBody} {s : State}

/-! ### A Halyard meets a descriptor -/

/-- The flight of the descriptor that a Halyard stands at. -/
def flightHere (h : Nat) (s : State) : Flight :=
  { at_ := descAt h s, desc := rawRead (descAt h s) 32 s, off := loopOff (halOf h s) s (halOf h s).loops,
    total := if (descHere h s).isData then (descHere h s).words else 0, done := !(descHere h s).isData }

/-- A descriptor that is read, fits and need not wait: its checks, then its row. -/
theorem halIssue_checks (hst : (halOf h s).st = .running) (hruns : halRuns h s = true) (hidx : (halOf h s).idx < (halOf h s).len)
    (hclean : rangeClean (descAt h s) 32 s = true) (hop : (descHere h s).op = op)
    (hroom : ((halOf h s).flights.filter (fun f => !f.done)).length < 8)
    (hfence : (bitN (descHere h s).flags 1 && !(halOf h s).flights.isEmpty) = false) :
    halIssue op body h s = (descFault h (halOf h s).idx (descHere h s) s).elim (body h (flightHere h s) (descHere h s) s)
      (fun c => halFault h c (descAt h s) s) := by
  have hread : memRead ((halOf h s).prog + 32 * (halOf h s).idx) 32 s = (some (rawRead (descAt h s) 32 s), s) := memRead_of_rangeClean hclean
  have hdesc : descOf (rawRead (descAt h s) 32 s) = descHere h s := rfl
  simp only [halIssue, hst, hruns, Nat.not_le.2 hidx, hread, hdesc, hop, Nat.not_le.2 hroom, hfence]
  cases descFault h (halOf h s).idx (descHere h s) s <;> rfl

theorem halIssue_meets (hm : halMeets op h s = true) : halIssue op body h s = body h (flightHere h s) (descHere h s) s := by
  simp only [halMeets, Bool.and_eq_true, decide_eq_true_eq, Bool.not_eq_true', Option.isNone_iff_eq_none] at hm
  obtain ⟨⟨⟨⟨⟨⟨⟨hst, hruns⟩, hidx⟩, hclean⟩, hop⟩, hroom⟩, hfence⟩, hfault⟩ := hm
  rw [halIssue_checks hst hruns hidx hclean hop hroom hfence, hfault]
  rfl

theorem op_of_halMeets (hm : halMeets op h s = true) : (descHere h s).op = op := by
  simp only [halMeets, Bool.and_eq_true, decide_eq_true_eq] at hm
  exact hm.1.1.1.2

/-- A row of a Halyard: what its body leaves of the flight that it is given. -/
theorem halRow_of {c : Nat → Instr} {u : State} (hm : halMeets op h s = true) (hx : exec (c h) s = .next (halIssue op body h s))
    (hb : body h (flightHere h s) (descHere h s) s = u) : answers (c h) s u :=
  answers_of hx ((halIssue_meets hm).trans hb)

/-! ### The bodies of the rows -/

variable {f : Flight} {d : Desc}

theorem hData_stream (hd : d.op = 1 ∨ d.op = 2) : hData h f d s =
    (let s1 := modSheet d.tile d.sheet (fun x => if x.bound = none then { x with bound := some h, resv := x.write } else x) s
     askReads h (halOf h s1).flights.length 512
       (modHal h (fun u => { u with idx := u.idx + 1, nextSeq := u.nextSeq + 1, flights := u.flights ++ [{ f with seq := u.nextSeq }] }) s1)) := by
  have hd' : (decide (d.op = 1) || decide (d.op = 2)) = true := by simpa using hd
  rw [hData, if_pos hd']

theorem hData_tile (hd : ¬ (d.op = 1 ∨ d.op = 2)) : hData h f d s = askReads h (halOf h s).flights.length 512
    (modHal h (fun u => { u with idx := u.idx + 1, nextSeq := u.nextSeq + 1, flights := u.flights ++ [{ f with seq := u.nextSeq }] }) s) := by
  have hd' : ¬ (decide (d.op = 1) || decide (d.op = 2)) = true := by simpa using hd
  rw [hData, if_neg hd']

theorem hWaitBody_reached (hc : (cleatOf d.glob d.cleatIdx s).active = true ∧ d.n16 ≤ (cleatOf d.glob d.cleatIdx s).count) :
    hWaitBody h f d s = halGo h ((halOf h s).idx + 1) f s := if_pos (by simpa using hc)

theorem hWaitBody_waits (hc : ¬ ((cleatOf d.glob d.cleatIdx s).active = true ∧ d.n16 ≤ (cleatOf d.glob d.cleatIdx s).count)) :
    hWaitBody h f d s = registerWait d.glob d.cleatIdx (.halyard h) d.n16 (modHal h (fun u => { u with st := .waiting }) s) :=
  if_neg (by simpa using hc)

/-- A LOOP that is met for the first time, with another iteration to go. -/
theorem hLoopBody_first (hl : ∀ p ∈ (halOf h s).loops.head?, p.1 ≠ (halOf h s).idx) (hn : 1 < d.n16) : hLoopBody h f d s =
    modHal h (fun v => { v with loops := ((halOf h s).idx, 1) :: (halOf h s).loops, idx := (halOf h s).idx - d.n20 }) s := by
  rw [hLoopBody]
  cases hloops : (halOf h s).loops with
  | nil => simp only [hn, if_true]
  | cons p r =>
    have hp : p.1 ≠ (halOf h s).idx := hl p (by rw [hloops]; rfl)
    simp only [hp, hn, if_false, if_true]

/-- A LOOP whose body has run m times more. -/
theorem hLoopBody_again {m : Nat} {r : List (Nat × Nat)} (hl : (halOf h s).loops = ((halOf h s).idx, m) :: r) : hLoopBody h f d s =
    if m + 1 < d.n16 then modHal h (fun v => { v with loops := ((halOf h s).idx, m + 1) :: r, idx := (halOf h s).idx - d.n20 }) s
    else halGo h ((halOf h s).idx + 1) f (modHal h (fun v => { v with loops := r }) s) := by
  simp only [hLoopBody, hl, if_true]

end

/-- Settles O38: a descriptor that is met runs its body, each body by its branches; the checks fault the rest. -/
theorem halyardRowsComplete : Obligations.HalyardRowsComplete := by
  unfold Obligations.HalyardRowsComplete
  intro flight issues inFlight flies binds streams goes reached always
  refine ⟨?ends, ?streamIn, ?streamOut, ?tileIn, ?tileOut, ?copy, ?signal, ?held, ?wait, ?waits, ?loop, ?again, ?checked, ?past⟩
  case ends =>
    intro h s hm _
    refine halRow_of (body := hEnd) hm rfl ?_
    show hEnd h (flight h s) (descHere h s) s = _
    rw [hEnd, bitN_eq_testBit]
    rfl
  case streamIn => exact fun h s hm _ => halRow_of hm rfl (hData_stream (.inl (op_of_halMeets hm)))
  case streamOut => exact fun h s hm _ => halRow_of hm rfl (hData_stream (.inr (op_of_halMeets hm)))
  case tileIn => exact fun h s hm _ => halRow_of hm rfl (hData_tile (by simp [op_of_halMeets hm]))
  case tileOut => exact fun h s hm _ => halRow_of hm rfl (hData_tile (by simp [op_of_halMeets hm]))
  case copy => exact fun h s hm _ => halRow_of hm rfl (hData_tile (by simp [op_of_halMeets hm]))
  case signal => exact fun h s hm he => halRow_of hm rfl (if_pos (by simp [he]))
  case held => exact fun h s hm he => halRow_of hm rfl (if_neg (by simp [he]))
  case wait => exact fun h s hm hr => halRow_of hm rfl (hWaitBody_reached hr)
  case waits => exact fun h s hm hr => halRow_of hm rfl (hWaitBody_waits hr)
  case loop => exact fun h s hm ⟨hl, hn⟩ => halRow_of hm rfl (hLoopBody_first hl hn)
  case again =>
    exact fun h s m r hm hl => ⟨fun hn => halRow_of hm rfl ((hLoopBody_again hl).trans (if_pos hn)),
      fun hn => halRow_of hm rfl ((hLoopBody_again hl).trans (if_neg (Nat.not_lt.2 hn)))⟩
  case checked =>
    intro h s code hst hruns hidx hclean hop hroom hfl hfault
    refine answers_of (u := halIssue 4 hData h s) rfl ?_
    rw [halIssue_checks hst hruns hidx hclean hop hroom (by simp [hfl]), hfault]
    rfl
  case past =>
    intro h s hst hruns hlen
    exact answers_of (u := halIssue 0 hEnd h s) rfl ((if_neg (by simp [hst, hruns])).trans (if_pos hlen))

end Sys2Proof.Safety
end

section
/-! PROOFS. The words that a Halyard moves, and the descriptors that complete. -/

namespace Sys2Proof.Safety

open Sys2Proof.Machine

section
variable {h k : Nat} {f : Flight} {s : State}

/-! ### The source of a word -/

theorem wordIn_local {a : Int} (ha : devOf a = devNum s) (hr : rangeRuns (bitsN a.toNat 0 45) 64 s = true)
    (hc : rangeClean (bitsN a.toNat 0 45) 64 s = true) :
    wordIn f a s = .word (rawRead (bitsN a.toNat 0 45) 64 s) (readUse (bitsN a.toNat 0 45) 64 s) := by
  simp only [wordIn, ha, hr, memRead_of_rangeClean hc]
  rfl

theorem wordIn_remote {a : Int} {n c : Nat} {v : List Byte} (ha : devOf a ≠ devNum s)
    (hg : f.got.find? (fun g => g.1 = f.moved) = some (n, v, c)) :
    wordIn f a s = if c = 0 then .word (padTo 64 (v.take 64)) s else .bad c s := by
  simp only [wordIn, ha, hg, if_false]

theorem wordIn_none {a : Int} (ha : devOf a ≠ devNum s) (hg : f.got.find? (fun g => g.1 = f.moved) = none) : wordIn f a s = .wait := by
  simp only [wordIn, ha, hg, if_false]

/-! ### One word moves -/

section
variable {s0 : State} (hruns : halRuns h s0 = true) (hidle : (halOf h s0).st ≠ .idle) (hfault : (halOf h s0).st ≠ .fault)
  (hs : askReads h k 512 s0 = s) (hf : (halOf h s).flights[k]? = some f) (hdone : f.done = false) (hlt : f.moved < f.total)

/-- What becomes of a source word that a STREAM_IN, TILE_IN or COPY meets (R217, R220, R257). -/
def wordGoes (h k : Nat) (f : Flight) (s : State) : WordIn → State
  | .wait => s
  | .bad c s1 => halFault h c f.at_ s1
  | .word b s1 =>
    let d := descOf f.desc
    if d.op = 1 then flightMoved h k true (sheetPush d.tile d.sheet [b] s1)
    else if d.op = 3 then flightMoved h k true (memWrite (tileBase d.tile + 64 * (d.toff + f.moved)) b s1)
    else wordOut h k f (d.wordDest f.off f.moved) b s1

/-- The Sheet of a stream is open, and the descriptors before it are through with it. -/
def sheetTurn (h k : Nat) (d : Desc) (s : State) : Prop :=
  (sheetOf d.tile d.sheet s).st = .opened ∧ sheetEarlier (halOf h s) k d (fun g => g.moved) = false

include hruns hidle hfault hs hf

/-- A word whose read has not been issued does not move. -/
theorem moveWord_unasked (hop : (descOf f.desc).reads = true) (ha : f.asked ≤ f.moved) : moveWord h k s0 = s := by
  simp only [moveWord, hruns, hidle, hfault, hs, hf, hop, ha, Bool.not_true, decide_false, decide_true, Bool.or_self, Bool.false_eq_true,
    if_false, Bool.and_self, Bool.or_true, if_true]

include hdone hlt

/-- STREAM_OUT: the oldest word of the Sheet leaves. -/
theorem moveWord_streamOut (hop : (descOf f.desc).op = 2) (hturn : sheetTurn h k (descOf f.desc) s)
    (hp : 0 < (sheetOf (descOf f.desc).tile (descOf f.desc).sheet s).present)
    (hout : wordOutRuns f ((descOf f.desc).wordAddr f.off f.moved) s = true)
    (hc : rangeClean (tileBase (descOf f.desc).tile + (sheetOf (descOf f.desc).tile (descOf f.desc).sheet s).slot
      (sheetOf (descOf f.desc).tile (descOf f.desc).sheet s).read) 64 s = true) :
    moveWord h k s0 = wordOut h k f ((descOf f.desc).wordAddr f.off f.moved)
      (tileBytes (descOf f.desc).tile ((sheetOf (descOf f.desc).tile (descOf f.desc).sheet s).slot
        (sheetOf (descOf f.desc).tile (descOf f.desc).sheet s).read) 64 s)
      (modSheet (descOf f.desc).tile (descOf f.desc).sheet (fun x => { x with read := x.read + 1 }) s) := by
  obtain ⟨hst, hearly⟩ := hturn
  simp [moveWord, hruns, hidle, hfault, hs, hf, hdone, hlt, Desc.reads, hop, hst, hearly, Nat.pos_iff_ne_zero.1 hp, hout,
    tileRead_clean hc]

/-- TILE_OUT: the next word of tile memory leaves. -/
theorem moveWord_tileOut (hop : (descOf f.desc).op = 4) (hout : wordOutRuns f ((descOf f.desc).wordAddr f.off f.moved) s = true)
    (hc : rangeClean (tileBase (descOf f.desc).tile + 64 * ((descOf f.desc).toff + f.moved)) 64 s = true) :
    moveWord h k s0 = wordOut h k f ((descOf f.desc).wordAddr f.off f.moved)
      (tileBytes (descOf f.desc).tile (64 * ((descOf f.desc).toff + f.moved)) 64 s) s := by
  simp [moveWord, hruns, hidle, hfault, hs, hf, hdone, hlt, Desc.reads, hop, hout, tileRead_clean hc]

/-- STREAM_IN, TILE_IN and COPY: what becomes of the word depends on the source. -/
theorem moveWord_reads (hop : (descOf f.desc).op = 1 ∧ sheetTurn h k (descOf f.desc) s ∨ (descOf f.desc).op = 3 ∨
      (descOf f.desc).op = 5 ∧ wordOutRuns f ((descOf f.desc).wordDest f.off f.moved) s = true) (ha : f.moved < f.asked) :
    moveWord h k s0 = wordGoes h k f s (wordIn f ((descOf f.desc).wordAddr f.off f.moved) s) := by
  rcases hop with ⟨hop, hst, hearly⟩ | hop | ⟨hop, hout⟩
  · cases hw : wordIn f ((descOf f.desc).wordAddr f.off f.moved) s <;>
      simp [moveWord, hruns, hidle, hfault, hs, hf, hdone, hlt, ha, Desc.reads, hop, hst, hearly, hw, wordGoes]
  · cases hw : wordIn f ((descOf f.desc).wordAddr f.off f.moved) s <;>
      simp [moveWord, hruns, hidle, hfault, hs, hf, hdone, hlt, ha, Desc.reads, hop, hw, wordGoes]
  · cases hw : wordIn f ((descOf f.desc).wordAddr f.off f.moved) s <;>
      simp [moveWord, hruns, hidle, hfault, hs, hf, hdone, hlt, ha, Desc.reads, hop, hout, hw, wordGoes]

end

/-! ### Descriptors in their order -/

theorem retire_done {r : List Flight} (hfl : (halOf h s).flights = f :: r) (hd : f.done = true) (n : Nat) :
    retire h (n + 1) s = retire h n (
      let s1 := modHal h (fun u => { u with flights := r }) s
      if f.void then modHal h (fun u => { u with mute := true }) s1
      else if (descOf f.desc).flags.testBit 0 && !(halOf h s).mute then
        sendSig { glob := (descOf f.desc).glob, idx := (descOf f.desc).cleatIdx, v := 1 } s1
      else s1) := by
  simp only [retire, hfl, hd, if_true, bitN_eq_testBit]
  cases f.void <;> rfl

theorem retireAll_undone {r : List Flight} (hfl : (halOf h s).flights = f :: r) (hd : f.done = false) : retireAll h s = s := by
  simp only [retireAll, retire, hfl, hd, Bool.false_eq_true, if_false]

theorem retireAll_drained (hfl : (halOf h s).flights = []) (hst : (halOf h s).st = .draining) :
    retireAll h s = modHal h (fun u => { u with st := .idle, loops := [] }) s := by
  simp only [retireAll, retire, hfl, hst, if_true]

theorem endDispatches_none (hd : ∀ d ∈ s.srv.dispatches, d.2.ending = false) : endDispatches s = s :=
  foldl_eq_self fun d hm => if_neg (by simp [hd d hm])

end

/-- Settles O39: the word at hand is what `wordIn` answers, and each row sends it where its descriptor says. -/
theorem halyardWordsMove : Obligations.HalyardWordsMove := by
  unfold Obligations.HalyardWordsMove
  refine ⟨?word, ?complete, fun h f r s hfl hd n => retire_done hfl hd n, fun h f r s hfl hd => retireAll_undone hfl hd,
    fun h s hfl hst => retireAll_drained hfl hst, fun s h => endDispatches_none h⟩
  case word =>
    intro h k ups f s0 hruns hidle hfault s hf hdone hlt d a b x here_ local_ goes counted comes leaves turn
    have answer {u : State} (h' : moveWord h k (strike ups s0) = u) : goes u :=
      answers_of (u := endDispatches (moveWord h k (strike ups s0))) rfl (congrArg endDispatches h')
    have hin {w : List Byte} {t : State} (hc : comes w t) : wordIn f a s = .word w t := by
      rcases hc with ⟨ha, hr, hcl, rfl, rfl⟩ | ⟨ha, n, v, hg, rfl, rfl⟩
      · exact wordIn_local ha hr hcl
      · exact (wordIn_remote ha hg).trans (if_pos rfl)
    have reads (hop : d.op = 1 ∧ turn ∨ d.op = 3 ∨ d.op = 5 ∧ wordOutRuns f b s = true) (ha : f.moved < f.asked) :
        moveWord h k (strike ups s0) = wordGoes h k f s (wordIn f a s) := moveWord_reads hruns hidle hfault rfl hf hdone hlt hop ha
    refine ⟨?streamIn, ?streamOut, ?tileIn, ?tileOut, ?copy, ?source, ?unasked⟩
    case streamIn =>
      intro hop hturn ha w t hc
      refine answer ((reads (.inl ⟨hop, hturn⟩) ha).trans ?_)
      rw [hin hc]
      exact if_pos hop
    case streamOut => exact fun hop hturn hp hout hc => answer (moveWord_streamOut hruns hidle hfault rfl hf hdone hlt hop hturn hp hout hc)
    case tileIn =>
      intro hop ha w t hc
      refine answer ((reads (.inr (.inl hop)) ha).trans ?_)
      rw [hin hc]
      exact (if_neg (by simp [show (descOf f.desc).op = 3 from hop])).trans (if_pos hop)
    case tileOut => exact fun hop hout hc => answer (moveWord_tileOut hruns hidle hfault rfl hf hdone hlt hop hout hc)
    case copy =>
      intro hop ha hout w t hc
      refine answer ((reads (.inr (.inr ⟨hop, hout⟩)) ha).trans ?_)
      rw [hin hc]
      have hop' : (descOf f.desc).op = 5 := hop
      have hdev : devNum t = devNum s := by rcases hc with ⟨-, -, -, -, rfl⟩ | ⟨-, _, _, -, -, rfl⟩ <;> rfl
      have hout' : wordOut h k f b w t = leaves b w t := by
        rw [wordOut, hdev]
        rfl
      simp only [wordGoes, hop']
      exact hout'
    case source =>
      intro hop ha hfar
      have hop' : d.op = 1 ∧ turn ∨ d.op = 3 ∨ d.op = 5 ∧ wordOutRuns f b s = true :=
        hop.elim (fun h => .inr (.inl h)) fun h => h.elim (fun h => .inr (.inr h)) .inl
      refine ⟨fun n v c hg hc => answer ((reads hop' ha).trans ?_), fun hg => answer ((reads hop' ha).trans ?_)⟩
      · rw [wordIn_remote hfar hg, if_neg hc]
        rfl
      · rw [wordIn_none hfar hg]
        rfl
    case unasked =>
      intro hop ha
      exact answer (moveWord_unasked hruns hidle hfault rfl hf (by simpa [Desc.reads, or_assoc] using hop) ha)
  case complete =>
    intro h k f s hf hruns htot
    refine answers_of (u := endDispatches (flightDone h k s)) rfl (congrArg endDispatches ?_)
    simp only [flightDone, hf, Nat.not_lt.2 htot, hruns]
    rfl

end Sys2Proof.Safety
end

section
/-! PROOFS. The events of the serving path. -/

namespace Sys2Proof.Safety

open Sys2Proof.Machine

section
variable {s : State}

theorem serving_of_mhRuns (h : mhRuns s = true) : serving s = true := (Bool.and_eq_true_iff.1 h).1

/-- A context whose request is in no step, at a boundary: the first of its ends that holds. -/
theorem boundaryEnd_eq {c : Nat} {r : Req} (hr : (ctxOf c s).req = some r) (hin : r.inStep = false) (he : (ctxOf c s).evacuated = false) :
    boundaryEnd c s =
      if r.cancelled then endReq c .ok 0 3 s
      else if frameBad r s then endReq c .fault 0x0601 0 s
      else if r.due then (if 0 < r.out then endReq c .ok 0 2 s else endReq c .timedout 0 0 s)
      else s := by
  simp only [boundaryEnd, hr, hin, he, Bool.or_self, Bool.false_eq_true, if_false]

theorem decodeStart_ready {c : Nat} {r : Req} (hr : (ctxOf c s).req = some r) (hin : r.inStep = false) (hd : r.decoding = false)
    (hkv : kvReady (ctxOf c s).toks.length 0 (ctxOf c s).blocks = true) :
    decodeStart c s = modReq c (fun r => { r with decoding := true }) s := by
  simp only [decodeStart, hr, hin, hd, hkv]
  rfl

/-! ### The dispatches of a step -/

/-- A batch whose plan has another kernel takes it. -/
theorem dispatchBind_next {b : Bind} {k : Nat} (hm : mhRuns s = true) (hb : b.batch = some k) (hl : (batchOf k s).live = true)
    (hc : (batchOf k s).cur = none)
    (hp : (batchOf k s).pos < (planOf (modelOf (batchOf k s).model s) (batchOf k s).decode).length)
    (hok : choiceOk (modelOf (batchOf k s).model s)
      (kernAt (modelOf (batchOf k s).model s) ((planOf (modelOf (batchOf k s).model s) (batchOf k s).decode).getD (batchOf k s).pos (0, 0)).2)
      (batchOf k s).slots b s = true) : dispatchBind b s = bindNext k b s := by
  simp only [dispatchBind, serving_of_mhRuns hm, hb, hl, hc, hp, hok]
  rfl

/-- A new batch is formed, and takes the first kernel of its plan. -/
theorem dispatchBind_new {b : Bind} (hm : mhRuns s = true) (hb : b.batch = none) (hbok : batchOk b s = true)
    (hok : choiceOk (modelOf b.model s) (kernAt (modelOf b.model s) ((planOf (modelOf b.model s) b.decode).getD 0 (0, 0)).2)
      (b.slots.map (fun t => t.map (fun t => slotFor b.decode t.1 t.2 s))) b s = true) :
    dispatchBind b s =
      (let slots := b.slots.map (fun t => t.map (fun t => slotFor b.decode t.1 t.2 s))
       let k := (freeIdx s.srv.batches (fun x => x.live) 4096).getD 4096
       bindNext k b ((slots.filterMap id).foldl (fun s t => modReq t.ctx (fun r => { r with inStep := true }) s)
        { s with srv := { s.srv with
          batches := Tab.put s.srv.batches k { live := true, model := b.model, decode := b.decode, slots := slots }
          steps := s.srv.steps + 1 } })) := by
  simp only [dispatchBind, serving_of_mhRuns hm, hb, hbok, hok, modSrv]
  rfl

/-- The code that halts a dispatch: that of its first faulted tile, or of its first faulted Halyard. -/
theorem haltCode_tile {x : Dispatch} {t : Nat} (h : x.tiles.find? (fun t => decide ((tileOf t s).st = .faulted)) = some t) :
    haltCode x s = some (0x0100 + (tileOf t s).fault) := by
  simp only [haltCode, h]

theorem haltCode_halyard {x : Dispatch} {h : Nat} (ht : ∀ t ∈ x.tiles, (tileOf t s).st ≠ .faulted)
    (hh : x.hals.find? (fun h => decide ((halOf h s).st = .fault)) = some h) : haltCode x s = some (0x0200 + (halOf h s).code) := by
  have hnone : x.tiles.find? (fun t => decide ((tileOf t s).st = .faulted)) = none := by
    rw [List.find?_eq_none]
    simpa using ht
  simp only [haltCode, hnone, hh]

theorem dispatchHalt_code {d e : Nat} (hl : (dispOf d s).live = true) (he : (dispOf d s).ending = false)
    (hc : haltCode (dispOf d s) s = some e) : dispatchHalt d s = failBatch (dispOf d s).batch e s := by
  simp only [dispatchHalt, hl, he, hc]
  rfl

end

/-- Settles O40: while Masthead runs each event takes the branch that its context, batch or dispatch picks. -/
theorem servingEventsComplete : Obligations.ServingEventsComplete := by
  unfold Obligations.ServingEventsComplete
  refine ⟨?deadline, ?waiting, ?boundary, ?decode, ?bind, ?batch, ?dispatch, ?step⟩
  case deadline =>
    intro c r s hm hr hd
    refine serve_of (f := submitDeadline c) rfl hm ?_
    simp only [submitDeadline, hr, hd, if_false]
  case waiting =>
    intro c o s hm hr ho
    refine serve_of (f := submitDeadline c) rfl hm ?_
    simp only [submitDeadline, hr, waitingSubmit, ho]
  case boundary =>
    intro c r s hr hin he
    rw [boundaryEnd_eq hr hin he]
    exact ⟨fun hc => if_pos hc, fun hc hf => by simp only [hc, hf, if_true, if_false, Bool.false_eq_true],
      fun hc hf hd => by simp only [hc, hf, hd, if_true, if_false, Bool.false_eq_true],
      fun hc hf hd => by simp only [hc, hf, hd, if_false, Bool.false_eq_true]⟩
  case decode => exact fun c r s hm hr hin hd hkv => serve_of (f := decodeStart c) rfl hm (decodeStart_ready hr hin hd hkv)
  case bind =>
    intro b k s hm hb x m p d hl hc hp hok e s1
    have bind {u : State} (h : bindNext k b s = u) : acts (.dispatchBind b) s u :=
      serve_of (f := dispatchBind b) rfl hm ((dispatchBind_next hm hb hl hc hp hok).trans h)
    refine ⟨fun hbad => bind (if_pos hbad), fun hgood => ⟨fun y hy => bind ?_, fun n hn => bind ?_⟩⟩
    · simp only [e, s1, p, m, x] at hgood hy
      simp only [bindNext, hgood, hy, Bool.false_eq_true, if_false]
      rfl
    · simp only [e, s1, p, m, x] at hgood hn
      simp only [bindNext, hgood, hn, Bool.false_eq_true, if_false]
      rfl
  case batch =>
    intro b s hm hb hbok m slots k hok
    exact serve_of (f := dispatchBind b) rfl hm (dispatchBind_new hm hb hbok hok)
  case dispatch =>
    intro d s hm hl he
    refine ⟨fun ht hh => ?_, fun t ht => ?_, fun ht h hh => ?_, fun ht h hh => ?_⟩
    · exact serve_of (f := dispatchEnd d) rfl hm (if_pos (by simp [hl, he]; exact ⟨ht, hh⟩))
    · exact serve_of (f := dispatchHalt d) rfl hm (dispatchHalt_code hl he (haltCode_tile ht))
    · exact serve_of (f := dispatchHalt d) rfl hm (dispatchHalt_code hl he (haltCode_halyard ht hh))
    · refine serve_of (f := drainLimit d) rfl hm ((if_pos (by simp [hl, he]; exact ht)).trans ?_)
      simp only [hh]
  case step =>
    intro k s hm hl hc hp
    exact serve_of (f := stepBoundary k) rfl hm (if_pos (by simp [hl, hc, hp]))

end Sys2Proof.Safety
end

section
/-! PROOFS. The time unit stands still through what a message to another device does; the lookups at a home. -/

namespace Sys2Proof.Safety

open Sys2Proof.Machine

section
variable {x : TimeUnit} {s : State}

/-! ### The time unit stays as it is through sends and their ends -/

/-- The time unit holds x. -/
def AtTime (x : TimeUnit) (s : State) : Prop := s.time = x

theorem ite_atTime {c : Prop} [Decidable c] {a b : State} (ha : AtTime x a) (hb : AtTime x b) : AtTime x (if c then a else b) := by
  split
  · exact ha
  · exact hb

theorem foldl_atTime {α : Type} {f : State → α → State} (hf : ∀ {s} a, AtTime x s → AtTime x (f s a)) :
    ∀ {l : List α} {s : State}, AtTime x s → AtTime x (l.foldl f s)
  | [], _, h => h
  | a :: l, _, h => foldl_atTime hf (l := l) (hf a h)

theorem safeEntry_atTime (h : AtTime x s) : AtTime x (safeEntry s) := by
  by_cases hs : s.dev.mode = .safe
  · rw [safeEntry, if_pos (by simp [hs])]
    exact h
  · by_cases hc : s.dev.mode = .cold
    · rw [safeEntry, if_pos (by simp [hc])]
      exact h
    · obtain ⟨hh, p, o, e⟩ := safeEntry_shape s hs hc
      rw [e]
      exact h

theorem setMode_atTime {m : DevMode} (h : AtTime x s) : AtTime x (setMode m s) := by
  obtain ⟨hh, p, o, e⟩ := setMode_shape m s
  rw [e]
  exact h

theorem react_atTime {v : Sev} (h : AtTime x s) : AtTime x (react v s) := by
  refine ite_atTime ?_ h
  split
  · exact ite_atTime (setMode_atTime h) h
  · exact safeEntry_atTime h
  · exact safeEntry_atTime h
  · exact h

theorem raise_atTime {src : Nat} (h : AtTime x s) : AtTime x (raise src s) := by
  obtain ⟨r, e⟩ := reefNote_shape [src] s
  rw [raise, e]
  refine ite_atTime (ite_atTime h (react_atTime ?_)) h
  obtain ⟨b, p, o, e'⟩ := setSticky_fold_shape (newSources [src] { s with reef := r }) { s with reef := r }
  rw [e']
  exact h

theorem readWord_atTime {w : Nat} (h : AtTime x s) : AtTime x (readWord w s).2 := by
  rw [readWord]
  split
  · exact h
  · split
    · exact h
    · exact raise_atTime h
  · exact raise_atTime h
  · exact ite_atTime (raise_atTime h) h

theorem readWords_atTime : ∀ {l : List Nat} {s : State}, AtTime x s → AtTime x (readWords l s).2
  | [], _, h => h
  | _ :: l, _, h => readWords_atTime (l := l) (readWord_atTime h)

theorem memRead_atTime {a n : Nat} (h : AtTime x s) : AtTime x (memRead a n s).2 := readWords_atTime h

theorem offer_atTime {p q : Nat} {k : TrimPkt} (h : AtTime x s) : AtTime x (offer p q k s) := ite_atTime h h

theorem staySend_atTime {d vc p f : Nat} {b : List Byte} {sys : Bool} (h : AtTime x s) : AtTime x (staySend d vc p f b sys s) := by
  rw [staySend]
  split
  · exact h
  · exact offer_atTime h

theorem sendPkt_atTime {i t : Nat} {g : ShrSeg} (h : AtTime x s) : AtTime x (sendPkt i t g s) := by
  unfold sendPkt
  extract_lets
  split
  · exact staySend_atTime h
  · exact ite_atTime (offer_atTime h) h

theorem halFault_atTime {k c a : Nat} (h : AtTime x s) : AtTime x (halFault k c a s) := ite_atTime h (raise_atTime (ite_atTime h h))

theorem halAnswer_atTime {k q w c : Nat} {wr : Bool} {bs : List Byte} (h : AtTime x s) : AtTime x (halAnswer k q w wr c bs s) := by
  rw [halAnswer]
  split
  · exact h
  · exact ite_atTime h (ite_atTime (halFault_atTime h) (ite_atTime h h))

theorem messageAnswer_atTime {k : Option Nat} {e : ShrEnd} (h : AtTime x s) : AtTime x (messageAnswer k e s) := by
  unfold messageAnswer
  split
  · exact ite_atTime h h
  · exact h

theorem tellClient_atTime {i n : Nat} {o : ShrOp} {e : ShrEnd} (h : AtTime x s) : AtTime x (tellClient i o e n s) := by
  rw [tellClient]
  split
  · exact h
  · exact halAnswer_atTime h
  · exact h
  · exact h
  · exact messageAnswer_atTime h

theorem opEnd_atTime {i n : Nat} {o : ShrOp} {e : ShrEnd} (h : AtTime x s) : AtTime x (opEnd i o e n s) := by
  unfold opEnd
  extract_lets s1 s2 s3 s4
  have h3 : AtTime x s3 := ite_atTime (raise_atTime h) h
  refine tellClient_atTime ?_
  subst s4
  split
  · exact ite_atTime h3 h3
  · exact h3

theorem opLeave_atTime {i : Nat} {o : ShrOp} (h : AtTime x s) : AtTime x (opLeave i o s) := by
  have hdata : AtTime x (opData o.post s).2 := by
    rw [opData]
    split
    · exact memRead_atTime h
    · exact h
  refine ite_atTime (opEnd_atTime h) ?_
  split
  next e => rw [e] at hdata; exact opEnd_atTime hdata
  next e => rw [e] at hdata; exact hdata

theorem release_atTime {i : Nat} (h : AtTime x s) : AtTime x (release i s) :=
  have hleft : AtTime x ((mayLeave (connOf i s) s).foldl (fun s o => opLeave i o s) s) := foldl_atTime (fun _ h => opLeave_atTime h) h
  ite_atTime (ite_atTime (sendPkt_atTime hleft) hleft) h

theorem opPostAs_atTime {c : ShrClient} {i : Nat} {p : ShrPost} (h : AtTime x s) : AtTime x (opPostAs c i p s) :=
  ite_atTime h (ite_atTime (opEnd_atTime h) (ite_atTime (opEnd_atTime h) (ite_atTime (opEnd_atTime h) (ite_atTime (opEnd_atTime h)
    (release_atTime h)))))

theorem clientPost_atTime {c : ShrClient} {i : Nat} {p : ShrPost} (h : AtTime x s) : AtTime x (clientPost c i p s) :=
  ite_atTime (tellClient_atTime h) (opPostAs_atTime h)

theorem furlSend_atTime {d : Nat} {m : FurlMsg} (h : AtTime x s) : AtTime x (furlSend d m s) := by
  refine ite_atTime h (ite_atTime ?_ h)
  rw [sysMessage]
  split
  · exact clientPost_atTime h
  · exact messageAnswer_atTime h

theorem freeEntry_time (e : Nat) (s : State) : (freeEntry e s).time = s.time := furlSend_atTime (x := s.time) rfl

end

/-! ### Lookups at the home (Table 14.3) -/

section
variable {s : State}

/-- A message of a member is delivered while the device serves, outside QUARANTINE. -/
theorem furlArrive_member {src : Nat} {m : FurlMsg} (hm : mhRuns s = true) (ha : activeMember src s = true)
    (hq : s.dev.mode ≠ .quarantine) : furlArrive src m s = furlSettle (furlDeliver src m s) := by
  have hsafe : s.dev.mode ≠ .safe := by
    intro hs
    simp [mhRuns, serving, hs] at hm
  exact if_pos (by simp [ha, hsafe, hq])

/-- A READY or MOVING entry has its block. -/
theorem holds_of {d : DirEntry} (h : d.st = .ready ∨ d.st = .moving) : (decide (d.st = .ready) || decide (d.st = .moving)) = true := by
  simpa using h

theorem not_holds_of {d : DirEntry} (h1 : d.st ≠ .ready) (h2 : d.st ≠ .moving) :
    (decide (d.st = .ready) || decide (d.st = .moving)) = false := by
  simp [h1, h2]

theorem verified_iff {d : DirEntry} {parent tag pdom : Nat} {toks : List Nat} :
    verified d parent tag pdom toks = decide (d.tag = tag ∧ d.pdom = pdom ∧ d.parent = parent ∧ d.toks = toks) := by
  simp [verified, Bool.and_assoc]

end

/-- Settles O42: the entry of the key, or the ways of its set, pick the answer. -/
theorem furlLookupsComplete : Obligations.FurlLookupsComplete := by
  unfold Obligations.FurlLookupsComplete
  intro src key parent tag pdom toks ctx offer s hm ha hq lookup say
  have answer {mode : Nat} {t : State} (h : homeLookup src key parent tag pdom toks ctx offer mode s = t) : lookup mode t :=
    serve_of (f := furlArrive src (.lookup key parent tag pdom toks ctx offer mode)) rfl hm
      ((furlArrive_member hm ha hq).trans (congrArg furlSettle h))
  refine ⟨?listed, ?absent⟩
  case listed =>
    intro e he d held same
    have hsame (h : same) : verified (dirOf e s) parent tag pdom toks = true := by rw [verified_iff]; exact decide_eq_true h
    refine ⟨?collision, ?hit, ?noOffer, ?evicting, ?full, ?wait, ?compare⟩
    case collision =>
      intro h
      have hdiff : verified (dirOf e s) parent tag pdom toks = false := by rw [verified_iff]; exact decide_eq_false h
      exact answer (by simp only [homeLookup, he, hdiff]; rfl)
    case hit =>
      intro h hst
      exact answer (by simp only [homeLookup, he, hsame h, holds_of (d := dirOf e s) hst]; rfl)
    case noOffer =>
      intro h h1 h2 ho
      exact answer (by simp only [homeLookup, he, hsame h, not_holds_of (d := dirOf e s) h1 h2, ho]; rfl)
    case evicting =>
      intro h hst ho
      exact answer (by simp only [homeLookup, he, hsame h, show (dirOf e s).st = .evicting from hst, ho]; rfl)
    case full =>
      intro h hst ho hfull
      exact answer (by simp only [homeLookup, he, hsame h, show (dirOf e s).st = .building from hst, ho, hfull]; rfl)
    case wait =>
      intro h hst ho hroom
      exact answer (by simp only [homeLookup, he, hsame h, show (dirOf e s).st = .building from hst, ho, Nat.not_le.2 hroom]; rfl)
    case compare =>
      intro hst htag hpdom hparent h8
      refine answer ?_
      simp only [homeLookup, he, holds_of (d := dirOf e s) hst, show (dirOf e s).tag = tag from htag, show (dirOf e s).pdom = pdom from hpdom,
        show (dirOf e s).parent = parent from hparent, decide_true, Bool.and_self, if_true, show 8 ≤ leading (dirOf e s).toks toks from h8]
      rfl
  case absent =>
    intro he fresh freeWay idleWay
    refine ⟨fun h => answer ?_, fun e h hfree => answer ?_, fun e h hfree hidle => answer ?_, fun h hfree hidle => answer ?_⟩
    · simp only [homeLookup, he, h, if_true]
      rfl
    · simp only [homeLookup, he, h, if_false, show firstIdx (fun e => decide ((dirOf e s).st = .free)) (8 * setOf key) 8 = _ from hfree]
      rfl
    · simp only [homeLookup, he, h, if_false, show firstIdx (fun e => decide ((dirOf e s).st = .free)) (8 * setOf key) 8 = _ from hfree,
        show firstIdx (fun e => decide ((dirOf e s).st = .ready) && decide ((dirOf e s).holders = 0)) (8 * setOf key) 8 = _ from hidle]
      rw [nowMs, freeEntry_time]
      rfl
    · simp only [homeLookup, he, h, if_false, show firstIdx (fun e => decide ((dirOf e s).st = .free)) (8 * setOf key) 8 = _ from hfree,
        show firstIdx (fun e => decide ((dirOf e s).st = .ready) && decide ((dirOf e s).holders = 0)) (8 * setOf key) 8 = _ from hidle]
      rfl

end Sys2Proof.Safety
end

section
/-! PROOFS. The other messages at a home of Furl, and its leases. -/

namespace Sys2Proof.Safety

open Sys2Proof.Machine

section
variable {src key e : Nat} {s : State}

theorem modDir_congr {f g : DirEntry → DirEntry} (h : f (dirOf e s) = g (dirOf e s)) : modDir e f s = modDir e g s := by
  have hput : Tab.put s.furl.dir e (f (dirOf e s)) = Tab.put s.furl.dir e (g (dirOf e s)) := by rw [h]
  exact congrArg (fun d => modFurl (fun u => { u with dir := d }) s) hput

/-! ### A message about a key that the home lists (Table 14.5) -/

theorem homeAbandon_listed {ctx : Nat} (he : findEntry key s = some e) : homeAbandon src key ctx s =
    (let t := if (dirOf e s).st = .building ∧ (dirOf e s).builderDev = src ∧ (dirOf e s).builderCtx = ctx then passClaim e s
      else modFurl (fun u => { u with waiters := u.waiters.filter (fun w => !decide (w = { dev := src, ctx := ctx, entry := e })) }) s
     if (dirOf e t).st = .building && !buildsOrWaits e src t then clearHolder e src t else t) := by
  simp only [homeAbandon, he, Bool.and_eq_true, decide_eq_true_eq, and_assoc]

theorem homeRenew_one (he : findEntry key s = some e) (hst : (dirOf e s).st = .building) (hb : (dirOf e s).builderDev = src) :
    homeRenew src [key] s = modDir e (fun d => { d with lease := s.time.mono / 1000000 }) s := by
  simp only [homeRenew, List.foldl_cons, List.foldl_nil, he]
  exact modDir_congr (if_pos (by simp [hst, hb]))

theorem homePublish_built (he : findEntry key s = some e) (hst : (dirOf e s).st = .building) (hb : (dirOf e s).builderDev = src) :
    homePublish src key s =
      (let told := sendEach (.notify key 0 (dirOf e s).locDev (dirOf e s).locAddr 0) ((waitersOf e s).map (·.dev))
        (dropWaitersOf e (modDir e (fun d => { d with st := .ready, builderDev := 0xFFFF, builderCtx := 0 }) s))
       if (dirOf e s).parent = 0 then told else furlSend (homeOf (dirOf e s).parent) (.child (dirOf e s).parent key) told) := by
  simp only [homePublish, he, hst, hb]
  rfl

theorem homeEvict_lost (he : findEntry key s = some e) (hl : (dirOf e s).locDev = src) : homeEvict src key 2 s =
    (let told := sendEach (.notify key 3 src 0 0) ((dirOf e s).askers ++ (waitersOf e s).map (·.dev))
      (dropWaitersOf e (modDir e (fun d => { d with st := .evicting, restoring := false, askers := [], lost := true }) s))
     if (dirOf e s).holders = 0 then furlSend src (.evictAck key 0 true) told else told) := by
  simp only [homeEvict, he, hl, if_true]

theorem homeEvict_granted {op : Nat} (he : findEntry key s = some e) (hop : op = 0 ∨ op = 1) (hst : (dirOf e s).st = .ready)
    (hh : (dirOf e s).holders = 0) (hl : (dirOf e s).locDev = src) (hn : op = 1 → (dirOf e s).nvme = false) :
    homeEvict src key op s = furlSend src (.evictAck key op true)
      (modDir e (fun d => if op = 1 then { d with st := .moving, restoring := false } else { d with st := .evicting }) s) := by
  have h2 : op ≠ 2 := by omega
  have hmay : (decide (op = 0) || !(dirOf e s).nvme) = true := by
    rcases hop with rfl | rfl
    · rfl
    · simp [hn rfl]
  simp only [homeEvict, he, h2, hst, hh, hl, hmay]
  rfl

theorem homeEvict_held (he : findEntry key s = some e) (hh : (dirOf e s).holders ≠ 0) :
    homeEvict src key 0 s = furlSend src (.evictAck key 0 false) s := by
  have hno : ¬ (decide ((dirOf e s).st = .ready) && decide ((dirOf e s).holders = 0) && decide ((dirOf e s).locDev = src) &&
      (decide (0 = 0) || !(dirOf e s).nvme)) = true := by
    intro h
    simp only [Bool.and_eq_true, decide_eq_true_eq] at h
    exact hh h.1.1.2
  simp only [homeEvict, he]
  exact if_neg hno

theorem homeRestore_listed (he : findEntry key s = some e) : homeRestore src key s =
    if (dirOf e s).st = .ready ∧ (dirOf e s).nvme = true then
      furlSend (dirOf e s).locDev (.restoreOwn key) (modDir e (fun d => { d with st := .moving, restoring := true, askers := [src] }) s)
    else if (dirOf e s).st = .moving ∧ (dirOf e s).restoring = true then modDir e (fun d => { d with askers := d.askers ++ [src] }) s
    else if (dirOf e s).st = .ready then furlSend src (.notify key 0 (dirOf e s).locDev (dirOf e s).locAddr 0) s
    else furlSend src (.notify key 3 (dirOf e s).locDev 0 0) s := by
  simp only [homeRestore, he, Bool.and_eq_true, decide_eq_true_eq]

theorem homeMoved_moving {nv : Bool} {loc : Nat} (he : findEntry key s = some e) (hst : (dirOf e s).st = .moving)
    (hl : (dirOf e s).locDev = src) : homeMoved src key nv loc s =
      if (dirOf e s).restoring then
        sendEach (.notify key (if nv then 3 else 0) src loc 0) (dirOf e s).askers
          (modDir e (fun d => { d with st := .ready, restoring := false, nvme := nv, locAddr := loc, askers := [] }) s)
      else if nv then
        if (dirOf e s).holders = 0 then
          furlSend src (.evictAck key 3 true) (modDir e (fun d => { d with st := .ready, nvme := true, locAddr := loc }) s)
        else furlSend src (.evictAck key 3 false) (modDir e (fun d => { d with st := .ready }) s)
      else modDir e (fun d => { d with st := .ready, locAddr := loc }) s := by
  simp only [homeMoved, he, hst, hl]
  rfl

theorem homeMoved_unmoving {nv : Bool} {loc : Nat} (he : findEntry key s = some e) (hst : (dirOf e s).st ≠ .moving) :
    homeMoved src key nv loc s =
      if (dirOf e s).st = .evicting ∧ (dirOf e s).locDev = src ∧ ((dirOf e s).lost = false ∨ (dirOf e s).holders = 0) then
        modDir e (fun _ => {}) s
      else if (dirOf e s).st = .building ∧ (dirOf e s).builderDev = src ∧ locUp (dirOf e s).locDev s = false then
        sendEach (.notify key 2 src loc 0) ((waitersOf e s).map (·.dev)) (modDir e (fun d => { d with locDev := src, locAddr := loc }) s)
      else s := by
  simp [homeMoved, he, hst, and_assoc]

end

/-- Settles O43: the entry of the key picks the branch of each message, and the lease that of the timer. -/
theorem furlHomeEventsComplete : Obligations.FurlHomeEventsComplete := by
  unfold Obligations.FurlHomeEventsComplete
  refine ⟨?messages, ?lease, ?waiter, ?freed⟩
  case lease =>
    intro e s hm hst hlease
    exact serve_of (f := fun s => furlSettle (leaseExpiry e s)) rfl hm
      (congrArg furlSettle (if_pos (by simp only [hst, nowMs, hlease]; rfl)))
  case waiter =>
    intro e w ws s hw
    simp only [passClaim, hw]
    rfl
  case freed =>
    intro e s hw
    simp only [passClaim, hw]
    rfl
  case messages =>
    intro src key e s hm ha hq he d left
    have arrive {i : Instr} {m : FurlMsg} {t : State} (hx : exec i s = actServe (furlArrive src m) s) (h : furlDeliver src m s = t) :
        acts i s (furlSettle t) := serve_of hx hm ((furlArrive_member hm ha hq).trans (congrArg furlSettle h))
    refine ⟨?unhold, ?abandonClaim, ?abandonWait, ?renew, ?publish, ?child, ?evict, ?held, ?lost, ?restore, ?here, ?again, ?gone,
      ?restored, ?spilled, ?unspilled, ?freed, ?kept, ?stays, ?relocates⟩
    case unhold => exact arrive (m := .unhold key) rfl (by simp only [furlDeliver, homeUnhold, he])
    case abandonClaim =>
      intro ctx hst hb hc
      have hclaim : (dirOf e s).st = .building ∧ (dirOf e s).builderDev = src ∧ (dirOf e s).builderCtx = ctx := ⟨hst, hb, hc⟩
      exact arrive (m := .abandon key ctx) rfl ((homeAbandon_listed he).trans (by rw [if_pos hclaim]))
    case abandonWait =>
      intro ctx hst hb
      have hwait : ¬ ((dirOf e s).st = .building ∧ (dirOf e s).builderDev = src ∧ (dirOf e s).builderCtx = ctx) := fun h => hb h.2.1
      exact arrive (m := .abandon key ctx) rfl ((homeAbandon_listed he).trans (by rw [if_neg hwait]))
    case renew => exact fun hst hb => arrive (m := .renew [key]) rfl (homeRenew_one he hst hb)
    case publish => exact fun hst hb => arrive (m := .publish key) rfl (homePublish_built he hst hb)
    case child =>
      intro child
      refine serve_of (f := fun s => if s.dev.mode = .quarantine then s else furlSettle (furlDeliver (devNum s) (.child key child) s)) rfl hm
        ((if_neg hq).trans (congrArg furlSettle ?_))
      simp only [furlDeliver, homeChild, he]
    case evict =>
      exact fun op hop hst hh hl hn => arrive (m := .evict key op) rfl (homeEvict_granted he hop hst hh hl hn)
    case held => exact fun hh => arrive (m := .evict key 0) rfl (homeEvict_held he hh)
    case lost => exact fun hl => arrive (m := .evict key 2) rfl (homeEvict_lost he hl)
    case restore => exact fun hst hn => arrive (m := .restore key) rfl ((homeRestore_listed he).trans (if_pos ⟨hst, hn⟩))
    case here =>
      intro hst hn
      have hst' : (dirOf e s).st = .ready := hst
      refine arrive (m := .restore key) rfl ((homeRestore_listed he).trans ?_)
      rw [if_neg (fun h => by simp [show (dirOf e s).nvme = false from hn] at h), if_neg (fun h => by simp [hst'] at h), if_pos hst']
    case again =>
      intro hst hr
      have hst' : (dirOf e s).st = .moving := hst
      refine arrive (m := .restore key) rfl ((homeRestore_listed he).trans ?_)
      rw [if_neg (fun h => by simp [hst'] at h), if_pos ⟨hst', hr⟩]
    case gone =>
      intro hst
      have h1 : (dirOf e s).st ≠ .ready := by rcases hst with h | h <;> exact fun h' => by simp [d, h'] at h
      have h2 : (dirOf e s).st ≠ .moving := by rcases hst with h | h <;> exact fun h' => by simp [d, h'] at h
      refine arrive (m := .restore key) rfl ((homeRestore_listed he).trans ?_)
      rw [if_neg (fun h => h1 h.1), if_neg (fun h => h2 h.1), if_neg h1]
    case restored =>
      exact fun nv loc hst hl hr => arrive (m := .moved key nv loc) rfl ((homeMoved_moving he hst hl).trans (if_pos hr))
    case spilled =>
      exact fun loc hst hl hr hh => arrive (m := .moved key true loc) rfl
        ((homeMoved_moving he hst hl).trans ((if_neg (Bool.eq_false_iff.1 hr)).trans ((if_pos rfl).trans (if_pos hh))))
    case unspilled =>
      exact fun loc hst hl hr hh => arrive (m := .moved key true loc) rfl
        ((homeMoved_moving he hst hl).trans ((if_neg (Bool.eq_false_iff.1 hr)).trans ((if_pos rfl).trans (if_neg hh))))
    case freed =>
      intro nv loc hst hl hlost
      have hst' : (dirOf e s).st = .evicting := hst
      exact arrive (m := .moved key nv loc) rfl ((homeMoved_unmoving he (by simp [hst'])).trans (if_pos ⟨hst', hl, hlost⟩))
    case kept =>
      intro nv loc hst hlost hh
      have hst' : (dirOf e s).st = .evicting := hst
      refine arrive (m := .moved key nv loc) rfl ((homeMoved_unmoving he (by simp [hst'])).trans ?_)
      rw [if_neg fun h => h.2.2.elim (fun h => by simp [show (dirOf e s).lost = true from hlost] at h) hh, if_neg fun h => by simp [hst'] at h]
    case stays =>
      intro nv loc hst hb hup
      have hst' : (dirOf e s).st = .building := hst
      refine arrive (m := .moved key nv loc) rfl ((homeMoved_unmoving he (by simp [hst'])).trans ?_)
      rw [if_neg fun h => by simp [hst'] at h, if_neg fun h => by simp [show locUp (dirOf e s).locDev s = true from hup] at h]
    case relocates =>
      intro nv loc hst hb hup
      have hst' : (dirOf e s).st = .building := hst
      refine arrive (m := .moved key nv loc) rfl ((homeMoved_unmoving he (by simp [hst'])).trans ?_)
      rw [if_neg fun h => by simp [hst'] at h, if_pos ⟨hst', hb, hup⟩]

end Sys2Proof.Safety
end

section
/-! PROOFS. An answer at the requester of Furl does not run on a state in which it is no longer asked for. -/

namespace Sys2Proof.Safety

open Sys2Proof.Machine

/-- A serving device whose peer 71 is an active member; a FURL_PROBE waits for two answers, one of them that of key 1. -/
def probing : State :=
  let s := State.reset
  { s with
    dev := { s.dev with mode := .ready, stage := 10 }
    stay := { s.stay with maps := [(71, { mask := 0xFFF, dataReady := true })] }
    rack := { s.rack with
      mstate := .member, view := { s.rack.view with epoch := 1, members := BitVec.allOnes 72 }
      peers := [(71, { ann := some { epoch := 1, state := 2, mstate := 1 } })] }
    furl := { s.furl with
      asked := [{ key := 1, ctx := 0, blk := 0, offer := 0, mode := 3 }]
      probes := [{ ref := (0, 1), left := 2, blocks := 2, got := [0, 0] }] } }

/-- The same state once the answer has been taken off the list of those asked for. -/
def probingAnswered : State := modFurl (fun u => { u with asked := [] }) probing

/-- The probes that a state holds. -/
def probesLeft (s : State) : List Nat := s.furl.probes.map (·.left)

/-- What the answer of key 1, a block in the HBM of device 71, says. -/
def heldThere : Ans := { code := 0, dev := 71, nvme := false, addr := 0, child := 0, n := 0 }

/-- The block that the probe asked for. -/
def probeAsked : Asked := { key := 1, ctx := 0, blk := 0, offer := 0, mode := 3 }

theorem probing_awaits : mhRuns probing = true ∧ activeMember 71 probing = true ∧ probing.dev.mode ≠ .quarantine ∧ rmuGone probing = false ∧
    probing.furl.asked.find? (fun a => decide (a.key = 1)) = some probeAsked := by
  and_intros <;> decide +kernel

/-- Run on a state that asks for nothing, the answer leaves the probe with both of its answers to come. -/
theorem probesLeft_unasked :
    probesLeft (settle (furlArrive 71 (.answer 1 0 71 false 0 0 0) probingAnswered)) = [2] := by decide +kernel

/-- The answer of the probe's block leaves one to come. -/
theorem probesLeft_answered : probesLeft (settle (furlSettle (answerProbe probeAsked heldThere probingAnswered))) = [1] := by decide +kernel

/-- Refutes O44: its first clause runs the answer on the state from which the lookup has been erased already, and that state has nothing to
answer. There the probe keeps both of its answers to come, and the statement says that one is left. -/
theorem not_furlRequesterAndOwnerEventsComplete : ¬ Obligations.FurlRequesterAndOwnerEventsComplete := by
  unfold Obligations.FurlRequesterAndOwnerEventsComplete
  intro h
  obtain ⟨hrun, hactive, hmode, hgone, hasked⟩ := probing_awaits
  obtain ⟨-, -, -, hprobe, -⟩ := h.1 71 1 0 71 false 0 0 0 [] probeAsked probing hrun hactive hmode hgone hasked
  have hclaim : answers (.furlAnswer 71 1 0 71 false 0 0 0 []) probingAnswered
      (settle (furlSettle (answerProbe probeAsked heldThere probingAnswered))) := hprobe rfl
  have hruns : answers (.furlAnswer 71 1 0 71 false 0 0 0 []) probingAnswered
      (settle (furlArrive 71 (.answer 1 0 71 false 0 0 0) probingAnswered)) :=
    serve_of (f := fun s => furlArrive 71 (.answer 1 0 71 false 0 0 0) (strike [] s)) rfl (by decide +kernel) rfl
  have hsame := Host.Outcome.next.inj (hruns.symm.trans hclaim)
  have hleft := congrArg probesLeft hsame
  rw [probesLeft_unasked, probesLeft_answered] at hleft
  exact absurd hleft (by decide)

end Sys2Proof.Safety
end

section
/-! PROOFS. The Frame engine's units, the end of a frame and its encoder. -/

namespace Sys2Proof.Safety

open Sys2Proof.Machine

section
variable {f n : Nat} {chunk : Option (List Byte)} {b pic : List Byte} {s : State}

/-- The pictures that the decoder of a context holds once it has taken b. -/
def historyWith (x : FrameCtx) (b : List Byte) : List (List Byte) := if Config.streamIdr x.source b then [b] else x.history ++ [b]

/-- The picture that b gives. -/
def pictureWith (x : FrameCtx) (b : List Byte) : Option (List Byte) :=
  if x.decodeFailed && !Config.streamIdr x.source b then none else Config.decodePicture x.source (historyWith x b)

/-- What a begun frame does with the bytes of its source. -/
def frameTaken (f n : Nat) (b : List Byte) (s : State) : State :=
  let x := fctxOf f s
  let t := slotOf f n s
  if x.source = 0 then
    (rawFrame x b).elim (endFrame f n 4 none s) fun r =>
      let missing := fun (py : Nat) => decide (r.lines ≤ py) || (x.pixfmt = 2 && decide (r.lines ≤ x.height + py / 2))
      let pix := fun (px py : Nat) => if missing py then fillPix x else pixelAt x.pixfmt x.width x.height r.pix px py
      let s2 := memWrite (x.base s + x.slotOff n) (patchBytes x pix x.width x.height) s
      let s3 := modFctx f (fun x => { x with prev := some r.pix, prevLines := r.lines, stray := min (2 ^ 64 - 1) (x.stray + r.stray) }) s2
      endFrame f n r.fstat none (modFslot f n (fun t => { t with captureNs := r.capture }) s3)
  else
    (pictureWith x b).elim
      (endFrame f n 4 none (modFctx f (fun x => { x with decodeFailed := true }) s)) fun yuv =>
        let s2 := memWrite (x.base s + x.slotOff n) (patchBytes x (pixelAt 2 t.width t.height yuv) t.width t.height) s
        endFrame f n 0 none (modFctx f (fun x => { x with history := historyWith (fctxOf f s) b, decodeFailed := false }) s2)

/-- The bytes that the source of a begun frame gives. -/
def FrameGives (f n : Nat) (chunk : Option (List Byte)) (b : List Byte) (s : State) : Prop :=
  let t := slotOf f n s
  (t.srcLocal = true ∧ rangeClean t.srcAddr t.len s = true ∧ b = rawRead t.srcAddr t.len s) ∨
    (t.srcLocal = false ∧ canIssue (fctxOf f s).fn s = true ∧ ∃ c, chunk = some c ∧ b = slice c 0 t.len)

theorem frameDone_of_gives (hr : frameRuns s = true) (ht : (slotOf f n s).st = .begun) (hb : FrameGives f n chunk b s) :
    frameDone f n chunk s = frameTaken f n b s := by
  rcases hb with ⟨hlocal, hclean, rfl⟩ | ⟨hlocal, hissue, c, rfl, rfl⟩
  · simp only [frameDone, frameTaken, pictureWith, historyWith, ht, hr, hlocal, memRead_of_rangeClean hclean, decide_true, Bool.not_true, Bool.or_self, Bool.false_eq_true, if_false, if_true]
    split
    · split <;> simp_all only [Option.elim]
    · split <;> simp_all only [Option.elim]
  · simp only [frameDone, frameTaken, pictureWith, historyWith, ht, hr, hlocal, readHost, hissue, decide_true, Bool.not_true, Bool.or_self, Bool.false_eq_true, if_false, if_true, Option.map]
    split
    · split <;> simp_all only [Option.elim]
    · split <;> simp_all only [Option.elim]
theorem frameDone_bad (hr : frameRuns s = true) (ht : (slotOf f n s).st = .begun) (hl : (slotOf f n s).srcLocal = true)
    (hb : (memRead (slotOf f n s).srcAddr (slotOf f n s).len s).1 = none) :
    frameDone f n chunk s = endFrame f n 4 (some 3) (memRead (slotOf f n s).srcAddr (slotOf f n s).len s).2 := by
  obtain ⟨s1, hm⟩ : ∃ s1, memRead (slotOf f n s).srcAddr (slotOf f n s).len s = (none, s1) := ⟨_, Prod.ext hb rfl⟩
  simp [frameDone, ht, hr, hl, hm]

theorem frameDone_unread (hr : frameRuns s = true) (ht : (slotOf f n s).st = .begun) (hl : (slotOf f n s).srcLocal = false)
    (hb : canIssue (fctxOf f s).fn s = false ∨ chunk = none) : frameDone f n chunk s = endFrame f n 4 (some 1) s := by
  have hread : readHost (fctxOf f s).fn (chunk.map (fun b => slice b 0 (slotOf f n s).len)) s = none := by
    rcases hb with hno | rfl
    · simp [readHost, hno]
    · simp [readHost]
  simp [frameDone, ht, hr, hl, hread]

/-! ### The encoder (R527, R529) -/

/-- Whether the ring has room for a record of pic, after the padding at its end. -/
def recordFits (x : FrameCtx) (pic : List Byte) (s : State) : Prop :=
  let len := roundUp 64 (16 + pic.length)
  let ring := x.ringLen s
  let pad := if ring < x.ringWrite % ring + len then ring - x.ringWrite % ring else 0
  x.ringWrite + pad + len ≤ fieldN (rawRead (x.base s + 0x118) 8 s) 0 8 + ring

/-- The picture of slot n of context f goes to the ring, dt ns after the one before. -/
def recordPut (f n : Nat) (x : FrameCtx) (t : FrameSlot) (pic : List Byte) (dt : Nat) (s : State) : State :=
  let idr := x.forceIdr || decide (255 ≤ x.sinceIdr)
  let qp := if idr then x.qp - 3 else x.qp
  let len := roundUp 64 (16 + pic.length)
  let ring := x.ringLen s
  let pad := if ring < x.ringWrite % ring + len then ring - x.ringWrite % ring else 0
  let s1 := if 0 < pad then ringPut x x.ringWrite (padTo (min 64 pad) (leBytes 4 0xFFFFFFFF)) s else s
  let rec_ := padTo len (leBytes 4 pic.length ++ leBytes 4 t.seq ++ leBytes 1 (if idr then 2 else 1) ++ leBytes 1 qp ++ leBytes 6 0 ++ pic)
  let s2 := memWrite (x.base s + 0x110) (leBytes 8 (x.ringWrite + pad + len)) (ringPut x (x.ringWrite + pad) rec_ s1)
  let x1 := rateStep x t.encKbps (8 * pic.length) dt
  let x2 : FrameCtx := { x1 with ringWrite := x.ringWrite + pad + len, lastCapture := some t.captureNs, forceIdr := false }
  let x3 : FrameCtx := { x2 with sinceIdr := if idr then 0 else x.sinceIdr + 1, encFrames := satInc 32 x.encFrames }
  let x4 : FrameCtx := { x3 with encTotal := min (2 ^ 64 - 1) (x.encTotal + pic.length) }
  putRecord f n (modFslot f n (fun t =>
    { t with encPend := false, encBytes := pic.length, encQp := qp, encType := if idr then 2 else 1 }) (modFctx f (fun _ => x4) s2))

/-- The picture is dropped. -/
def recordDropped (f n : Nat) (x : FrameCtx) (t : FrameSlot) (pic : List Byte) (dt : Nat) (s : State) : State :=
  let x2 : FrameCtx := { rateStep x t.encKbps (8 * pic.length) dt with
    lastCapture := some t.captureNs, forceIdr := true, encDrop := satInc 32 x.encDrop }
  raise 0x15B (putRecord f n (modFslot f n (fun t => { t with encPend := false }) (modFctx f (fun _ => x2) s)))

/-- The QPs that the encoder tells before it writes. -/
def qpsTold (f n : Nat) (s : State) : State :=
  let x := fctxOf f s
  let t := slotOf f n s
  emit (.encodeQps f t.seq (blockQps x (if x.forceIdr || decide (255 ≤ x.sinceIdr) then x.qp - 3 else x.qp) t.width t.height)) s

theorem encodeRecord_fits {dt : Nat} {u : State} (hr : frameRuns s = true) (hn : encodeNext f s = some n)
    (hd : frameDt (fctxOf f s) (slotOf f n s) (qpsTold f n s) = (dt, u)) (hfits : recordFits (fctxOf f s) pic u) :
    encodeRecord f pic s = recordPut f n (fctxOf f s) (slotOf f n s) pic dt u := by
  unfold qpsTold at hd
  unfold encodeRecord recordPut
  simp only [hn, hr, Bool.not_true, Bool.false_eq_true, if_false, hd]
  refine if_pos (decide_eq_true ?_)
  exact hfits

theorem encodeRecord_dropped {dt : Nat} {u : State} (hr : frameRuns s = true) (hn : encodeNext f s = some n)
    (hd : frameDt (fctxOf f s) (slotOf f n s) (qpsTold f n s) = (dt, u)) (hfull : ¬ recordFits (fctxOf f s) pic u) :
    encodeRecord f pic s = recordDropped f n (fctxOf f s) (slotOf f n s) pic dt u := by
  unfold qpsTold at hd
  unfold encodeRecord recordDropped
  simp only [hn, hr, Bool.not_true, Bool.false_eq_true, if_false, hd]
  refine if_neg (mt of_decide_eq_true ?_)
  exact hfull

end

/-- Settles O45: each event by what its function does in the case that the statement names. -/
theorem frameEventsComplete : Obligations.FrameEventsComplete := by
  unfold Obligations.FrameEventsComplete
  refine ⟨?take, ?done, ?encode⟩
  case take =>
    intro s i n hr able f hi hn
    refine answers_of (u := unitTake s) rfl ?_
    simp only [unitTake, hr, Bool.not_true, Bool.false_eq_true, if_false]
    have hfirst : firstIdx able 0 256 = some i := hi
    have hold : oldestQueued ((s.frame.rot + 1 + i) % 256) s = some n := hn
    simp only [able] at hfirst
    simp only [hfirst, hold, f]
  case done =>
    intro f n chunk s hh hr ht x t
    have arrive {u} (h : frameDone f n chunk s = u) : acts (.frameEnd f n chunk) s u := live_of rfl hh (by rw [if_pos hr, h])
    refine ⟨fun b hb => ?given, fun hl hb => arrive (frameDone_bad hr ht hl hb), fun hl hb => arrive (frameDone_unread hr ht hl hb)⟩
    case given =>
      have taken {u} (h : frameTaken f n b s = u) : acts (.frameEnd f n chunk) s u := arrive ((frameDone_of_gives hr ht hb).trans h)
      refine ⟨fun hraw hnone => taken ?_, fun r hraw hsome => taken ?_, fun hcoded => ⟨fun hnone => taken ?_, fun yuv hsome => taken ?_⟩⟩
      · rw [frameTaken, if_pos hraw, hnone, Option.elim]
      · rw [frameTaken, if_pos hraw, hsome, Option.elim]
        simp only [Bool.or_eq_true, Bool.and_eq_true, decide_eq_true_eq]
        rfl
      · have hnot : pictureWith (fctxOf f s) b = none := hnone
        rw [frameTaken, if_neg hcoded, hnot, Option.elim]
      · have hpicture : pictureWith (fctxOf f s) b = some yuv := hsome
        rw [frameTaken, if_neg hcoded, hpicture, Option.elim]
        rfl
  case encode =>
    intro f pic n s0 hh hr hn x t idr qp wide qps told dt s len ring pad consumed x1
    have arrive {u} (h : encodeRecord f pic s0 = u) : acts (.frameEncodeRecord f pic) s0 u := live_of rfl hh (by rw [if_pos hr, h])
    have hd : frameDt x t (qpsTold f n s0) = (dt, s) := by
      have htold : qpsTold f n s0 = told := rfl
      rw [htold, frameDt]
      cases hlast : x.lastCapture with
      | none => simp [dt, s, hlast, drawFree, told, emit]
      | some a => simp [dt, s, hlast]
    clear_value s dt
    refine ⟨fun hfits => ?_, fun hfull => ?_⟩
    · have h1 : recordFits x pic s := hfits
      exact arrive (encodeRecord_fits hr hn hd h1)
    · have h1 : ¬ recordFits x pic s := Nat.not_le.2 hfull
      exact arrive (encodeRecord_dropped hr hn hd h1)

end Sys2Proof.Safety
end

section
/-! PROOFS. The events of Reef. -/

namespace Sys2Proof.Safety

open Sys2Proof.Machine

section
variable {i src dev snap : Nat} {s : State}

theorem cutAll_iff {l : List SnapCtx} : l.all (fun g => g.cut || g.lost) = true ↔ ∀ g ∈ l, g.cut = true ∨ g.lost = true := by
  simp only [List.all_eq_true, Bool.or_eq_true]

theorem copyDone_peer {d : Nat} (hi : takingSnap s = some i) (hcut : ∀ g ∈ (snapOf i s).ctxs, g.cut = true ∨ g.lost = true)
    (ht : (snapOf i s).target = .peer d) : copyDone s = if (snapOf i s).sent then s else snapSend i d s := by
  simp only [copyDone, hi, cutAll_iff.2 hcut, if_true, ht]

theorem copyDone_nvme {n : Nat} (hi : takingSnap s = some i) (hcut : ∀ g ∈ (snapOf i s).ctxs, g.cut = true ∨ g.lost = true)
    (ht : (snapOf i s).target = .nvme n) : copyDone s = if !(snapOf i s).header then reefHeader i s
      else if clientIdle (.reef i) s then (if (reefDrives s).isEmpty then furlSettle (snapFailed i s) else snapReady i s) else s := by
  simp only [copyDone, hi, cutAll_iff.2 hcut, if_true, ht]

theorem parkMsg_parked {ok : Bool} (hi : takingSnap s = some i) (ht : (snapOf i s).target = .peer src)
    (hh : handleOf i (snapOf i s).gen = snap) :
    parkMsg src (.parked snap ok) s = if !ok then targetFail s else if (snapOf i s).sent then snapReady i s else s := by
  simp [parkMsg, hi, ht, hh]

theorem targetFail_peer {d : Nat} (hi : takingSnap s = some i) (ht : (snapOf i s).target = .peer d) :
    targetFail s = furlSettle (if s.reef.target = 2 then toNvme i (modSnap i (fun x => { x with follow := false }) s) else snapFailed i s) := by
  simp only [targetFail, hi, ht]

theorem park_room {images : List ReefImage} {rs : List ReefReplica} {p n : Nat}
    (hn : (images.foldl (fun n g => n + imageBytes g) 64 + 0x1FFFFF) / 0x200000 = n)
    (ha : activeMember src s = true) (hc : canHost s = true) (hf : parkFits n s = true) (hp : freeRun n s = some p) :
    park src snap images rs s =
      (let placed := placeReplicas rs (takePages .reef (some 0xFFFF) true p n s)
       reefSend src (.parked snap true) (modReef (fun r => { r with
         parked := r.parked ++ [{ src := src, snap := snap, page := p, pages := n, images := images, replicas := placed.1 }] }) placed.2)) := by
  simp only [park, hn, ha, hc, hf, hp, Bool.and_self, if_true]

theorem park_full {images : List ReefImage} {rs : List ReefReplica} {n : Nat}
    (hn : (images.foldl (fun n g => n + imageBytes g) 64 + 0x1FFFFF) / 0x200000 = n)
    (h : canHost s = false ∨ parkFits n s = false) : park src snap images rs s = reefSend src (.parked snap false) s := by
  have hfull : (canHost s && activeMember src s && parkFits n s) = false := by rcases h with hno | hno <;> simp [hno]
  simp only [park, hn, hfull, Bool.false_eq_true, if_false]

theorem reefLinkLost_of_inactive (h : activeMember dev s = false) : reefLinkLost dev s = true := by simp [reefLinkLost, h]

/-- A lost peer without part in a snapshot under way, and with no evacuation: its proxies and what is parked for it. -/
theorem peerLoss_bystander (ha : activeMember dev s = false)
    (hsnap : ∀ i, takingSnap (proxiesLost dev s) = some i → (snapOf i (proxiesLost dev s)).target ≠ .peer dev)
    (he : (proxiesLost dev s).reef.evac = none) :
    peerLoss dev s = dropParked (fun p => decide (p.src = dev)) (proxiesLost dev s) := by
  unfold peerLoss
  simp only [reefLinkLost_of_inactive ha, ha, Bool.not_true, Bool.false_eq_true, if_false]
  cases hi : takingSnap (proxiesLost dev s) with
  | none => simp only [he]
  | some i => simp only [if_neg (hsnap i hi), he]

/-- The rows of a Reef message from a member. -/
theorem reefFrom_of {c : Instr} {f : State → State} {u : State} (hx : exec c s = actServe (reefFrom src f) s) (hm : mhRuns s = true)
    (ha : activeMember src s = true) (h : f s = u) : acts c s (furlSettle u) :=
  serve_of hx hm ((if_pos ha).trans (congrArg furlSettle h))

end

/-- Settles O46: each event by what its function does in the case that the statement names. -/
theorem reefEventsComplete : Obligations.ReefEventsComplete := by
  unfold Obligations.ReefEventsComplete
  refine ⟨fun held s hm => serve_of rfl hm rfl, ?fire, ?write, ?copyPeer, ?copyNvme, ?parked, ?confirm, ?fail, ?park, ?evac, ?token, ?loss⟩
  case fire =>
    intro held k s s1
    refine ⟨fun hbusy => ?_, fun hs he hroom => ?_⟩
    · have hor : (decide (s1.reef.st = .snapping) || decide (s1.reef.st = .evacuating)) = true := by simpa using hbusy
      rw [fire, if_pos hor]
    · have hor : ¬ (decide (s1.reef.st = .snapping) || decide (s1.reef.st = .evacuating)) = true := by simpa using ⟨hs, he⟩
      rw [fire, if_neg hor, if_pos hroom]
  case write =>
    intro a bs s hm ha hq
    exact serve_of rfl hm ((if_pos (by simp [ha, hq])).trans (by simp only [ne_eq, decide_not]))
  case copyPeer =>
    intro i d s hm hi hcut ht
    exact serve_of (f := fun s => furlSettle (copyDone s)) rfl hm (congrArg furlSettle (copyDone_peer hi hcut ht))
  case copyNvme =>
    intro i n s hm hi hcut ht
    have arrive {u} (h : copyDone s = u) : acts .reefCopyDone s (furlSettle u) :=
      serve_of (f := fun s => furlSettle (copyDone s)) rfl hm (congrArg furlSettle h)
    refine ⟨fun hh => arrive ?_, fun hh hidle => arrive ?_⟩
    · rw [copyDone_nvme hi hcut ht, hh, Bool.not_false, if_pos rfl]
    · rw [copyDone_nvme hi hcut ht, hh, Bool.not_true, if_neg Bool.false_ne_true, if_pos hidle]
  case parked =>
    intro i src snap s hm ha hi ht hh
    exact ⟨fun hsent => reefFrom_of (f := parkMsg src _) rfl hm ha ((parkMsg_parked hi ht hh).trans (if_pos hsent)),
      reefFrom_of (f := parkMsg src _) rfl hm ha (parkMsg_parked hi ht hh)⟩
  case confirm => exact fun src m s hm ha => reefFrom_of (f := confirmMsg src m) rfl hm ha rfl
  case fail =>
    intro i d s hm hi ht
    exact serve_of (f := fun s => furlSettle (targetFail s)) rfl hm (congrArg furlSettle (targetFail_peer hi ht))
  case park =>
    intro src snap images rs s hm ha n
    refine ⟨reefFrom_of (f := parkMsg src _) rfl hm ha ?_, fun p hc hf hp => ?_, fun h => ?_⟩
    · simp only [parkMsg, ha, Bool.and_true]
    · exact reefFrom_of (f := parkMsg src _) rfl hm ha (park_room rfl ha hc hf hp)
    · exact reefFrom_of (f := parkMsg src _) rfl hm ha (park_full rfl h)
  case evac =>
    intro src h c e mapped prefill s hm ha hc he hd
    refine ⟨reefFrom_of (f := confirmMsg src _) rfl hm ha ?_, reefFrom_of (f := refuseCtx src h) rfl hm ha ?_⟩
    · simp only [confirmMsg, confirmCtx, hc, he, hd, if_true]
    · simp only [refuseCtx, hc, he, hd, if_true]
  case token =>
    intro src h tok c r s hm ha hc hr
    refine ⟨fun hi => reefFrom_of (f := tokenMsg src _) rfl hm ha ?_, fun hi => reefFrom_of (f := tokenMsg src _) rfl hm ha ?_⟩
    · simp only [tokenMsg, hc, hr, hi, Bool.not_true, Bool.false_eq_true, if_false]
    · simp only [tokenMsg, hc, hr, hi, Bool.not_false, if_true]
  case loss =>
    intro dev s hm ha s1
    have arrive {u} (h : peerLoss dev s = u) : acts (.reefPeerLoss dev) s (furlSettle u) :=
      serve_of (f := fun s => furlSettle (peerLoss dev s)) rfl hm (congrArg furlSettle h)
    refine ⟨fun i hi ht he => arrive (peerLoss_bystander ha ?_ he), fun hi he => arrive (peerLoss_bystander ha ?_ he),
      serve_of (f := fun s => furlSettle (hostedExpiry dev s)) rfl hm (congrArg furlSettle ?_)⟩
    · intro j hj
      obtain rfl : i = j := Option.some.inj (hi.symm.trans hj)
      exact ht
    · intro j hj
      exact absurd (hi.symm.trans hj) (by simp)
    · simp only [hostedExpiry, reefLinkLost_of_inactive ha, Bool.not_true, Bool.false_eq_true, if_false] <;> rfl

end Sys2Proof.Safety
end

section
/-! PROOFS. The Stay links: flits, packets and link maps. -/

namespace Sys2Proof.Safety

open Sys2Proof.Machine

section
variable {k corr badCw uncorr : Nat} {bytes : List Byte} {bad : Bool} {s : State}

/-! ### A flit on an UP link -/

theorem flitRx_badCodeword (hk : k < 12) (hup : (linkOf k s).st = .up) (hup1 : (linkOf k (fecCount k corr badCw uncorr s)).st = .up) :
    flitRx k bytes true corr badCw uncorr s = (none, sendNack k (fecCount k corr badCw uncorr s)) := by
  simp [flitRx, Nat.not_le.2 hk, hup, hup1]

theorem flitRx_badCrc (hk : k < 12) (hup : (linkOf k s).st = .up) (hup1 : (linkOf k (fecCount k corr badCw uncorr s)).st = .up)
    (hcrc : bytes.length ≠ 256 ∨ fieldN bytes 252 4 ≠ crc32 (bytes.take 252)) :
    flitRx k bytes false corr badCw uncorr s = (none, sendNack k (linkCount k .crcErr 1 (fecCount k corr badCw uncorr s))) := by
  have hbad : (false || decide (bytes.length ≠ 256) || decide (fieldN bytes 252 4 ≠ crc32 (bytes.take 252))) = true := by
    simpa only [Bool.false_or, Bool.or_eq_true, decide_eq_true_eq] using hcrc
  have hlive : (decide (12 ≤ k) || decide ((linkOf k s).st = .down) || decide ((linkOf k s).st = .disabled)) = false := by
    simp [hk, hup]
  simp only [flitRx, hlive, Bool.false_eq_true, if_false, hbad, if_true, hup1, decide_true]

/-- What a sound flit does on an UP link once its codewords are counted. -/
def flitUp (k h : Nat) (body : List Byte) (s1 : State) : Option (PktHead × List Byte) × State :=
  if bitsN h 10 2 = 3 || bitsN h 14 2 ≠ 0 then (none, startResync k (linkCount k .protoErr 1 s1))
  else
    let s2 := if bitN h 24 then ackReplay k (bitsN h 16 8) s1 else s1
    let s3 := modLink k (fun l => { l with credits := Tab.mod l.credits (bitsN h 26 2) (· + bitsN h 28 4) }) s2
    let s4 := if bitN h 25 then startReplay k s3 else s3
    if bitsN h 10 2 = 2 then (none, rxCtl k body s4)
    else if bitsN h 10 2 = 0 || !((linkOf k s4).st = .up) then (none, s4)
    else if bitsN h 0 8 ≠ (linkOf k s4).rxSeq then (none, sendNack k s4)
    else
      let s5 := linkCount k .flitsRx 1 (modLink k (fun l => { l with rxSeq := (l.rxSeq + 1) % 256, ackValid := true, nackAt := none }) s4)
      let d := dataFlit k (bitsN h 8 2) (bitN h 12) (bitN h 13) body s5
      (d.1, ackNow k d.2)

theorem flitRx_sound (hk : k < 12) (hup : (linkOf k s).st = .up) (hup1 : (linkOf k (fecCount k corr badCw uncorr s)).st = .up)
    (hlen : bytes.length = 256) (hcrc : fieldN bytes 252 4 = crc32 (bytes.take 252)) :
    flitRx k bytes false corr badCw uncorr s = flitUp k (fieldN bytes 0 4) ((bytes.drop 4).take 248) (fecCount k corr badCw uncorr s) := by
  have hgood : (false || decide (bytes.length ≠ 256) || decide (fieldN bytes 252 4 ≠ crc32 (bytes.take 252))) = false := by
    simp [hlen, hcrc]
  have hlive : (decide (12 ≤ k) || decide ((linkOf k s).st = .down) || decide ((linkOf k s).st = .disabled)) = false := by
    simp [hk, hup]
  simp only [flitRx, flitUp, hlive, Bool.false_eq_true, if_false, hgood, hup1, decide_true, Bool.not_true]

/-- The state once a sound flit's acknowledgement and credits are taken. -/
def fieldsTaken (k h : Nat) (s1 : State) : State :=
  modLink k (fun l => { l with credits := Tab.mod l.credits (bitsN h 26 2) (· + bitsN h 28 4) })
    (if bitN h 24 then ackReplay k (bitsN h 16 8) s1 else s1)

/-- The state once a DATA flit is in order. -/
def inOrder (k : Nat) (s : State) : State :=
  linkCount k .flitsRx 1 (modLink k (fun l => { l with rxSeq := (l.rxSeq + 1) % 256, ackValid := true, nackAt := none }) s)

section
variable {h : Nat} {body : List Byte}

theorem flitUp_unknown (hbad : bitsN h 10 2 = 3 ∨ bitsN h 14 2 ≠ 0) : flitUp k h body s = (none, startResync k (linkCount k .protoErr 1 s)) := by
  have hor : (decide (bitsN h 10 2 = 3) || decide (bitsN h 14 2 ≠ 0)) = true := by simpa using hbad
  unfold flitUp
  exact if_pos hor

theorem flitUp_ctl (hr : bitsN h 14 2 = 0) (hkind : bitsN h 10 2 = 2) (hn : bitN h 25 = false) :
    flitUp k h body s = (none, rxCtl k body (fieldsTaken k h s)) := by
  simp [flitUp, fieldsTaken, hr, hkind, hn]

theorem flitUp_idle (hr : bitsN h 14 2 = 0) (hkind : bitsN h 10 2 = 0) :
    flitUp k h body s = (none, if bitN h 25 then startReplay k (fieldsTaken k h s) else fieldsTaken k h s) := by
  simp [flitUp, fieldsTaken, hr, hkind]

section
variable (hr : bitsN h 14 2 = 0) (hkind : bitsN h 10 2 = 1) (hn : bitN h 25 = false) (hup : (linkOf k (fieldsTaken k h s)).st = .up)
include hr hkind hn hup

theorem flitUp_outOfOrder (hseq : bitsN h 0 8 ≠ (linkOf k (fieldsTaken k h s)).rxSeq) :
    flitUp k h body s = (none, sendNack k (fieldsTaken k h s)) := by
  unfold fieldsTaken at *
  simp [flitUp, hr, hkind, hn, hup, hseq]

theorem flitUp_data (hseq : bitsN h 0 8 = (linkOf k (fieldsTaken k h s)).rxSeq) :
    flitUp k h body s =
      ((dataFlit k (bitsN h 8 2) (bitN h 12) (bitN h 13) body (inOrder k (fieldsTaken k h s))).1,
        ackNow k (dataFlit k (bitsN h 8 2) (bitN h 12) (bitN h 13) body (inOrder k (fieldsTaken k h s))).2) := by
  unfold inOrder fieldsTaken at *
  simp [flitUp, hr, hkind, hn, hup, hseq]

end

end

/-- What a flit that arrives does, with the packet that it completes handed on. -/
def flitHanded (k : Nat) (flit : RxFlit) (corr badCw uncorr : Nat) (s : State) : State :=
  match flitRx k flit.bytes flit.bad corr badCw uncorr s with
  | (some (h, data), s1) => deliver h data s1
  | (none, s1) => s1

theorem exec_stayFlitRx {flit : RxFlit} : exec (.stayFlitRx k flit corr badCw uncorr) s = actLink k (flitHanded k flit corr badCw uncorr) s := rfl

section
variable {u : State} (hk : k < 12) (hc : s.dev.mode ≠ .cold) (hl : lclkRuns s = true)
include hk hc hl

theorem flit_taken (hf : flitRx k bytes bad corr badCw uncorr s = (none, u)) :
    acts (.stayFlitRx k ⟨bytes, bad⟩ corr badCw uncorr) s u :=
  link_of exec_stayFlitRx hk hc hl (by simp only [flitHanded, hf])

theorem flit_delivered {p : PktHead} {d : List Byte} (hf : flitRx k bytes bad corr badCw uncorr s = (some (p, d), u)) :
    acts (.stayFlitRx k ⟨bytes, bad⟩ corr badCw uncorr) s (deliver p d u) :=
  link_of exec_stayFlitRx hk hc hl (by simp only [flitHanded, hf])

end

/-! ### A DATA flit joins its packet (R369, R370) -/

section
variable {vc : Nat} {body : List Byte} {bs : List (List Byte)}

theorem dataFlit_first (hp : Tab.get (linkOf k s).part vc = none) :
    dataFlit k vc true false body s = (none, modLink k (fun l => { l with part := Tab.put l.part vc (some [body]) }) s) := by
  simp [dataFlit, hp]

theorem dataFlit_next (hp : Tab.get (linkOf k s).part vc = some bs) (hl : bs.length < 32) :
    dataFlit k vc false false body s = (none, modLink k (fun l => { l with part := Tab.put l.part vc (some (bs ++ [body])) }) s) := by
  simp [dataFlit, hp, Nat.not_le.2 hl]

theorem dataFlit_stray {eop : Bool} (hp : Tab.get (linkOf k s).part vc = none) :
    dataFlit k vc false eop body s = (none, linkCount k .pktDiscard 1
      (modLink k (fun l => { l with owed := Tab.mod l.owed vc (· + 1), part := Tab.put l.part vc none }) s)) := by
  simp [dataFlit, hp]

theorem dataFlit_whole {p : PktHead} (hp : Tab.get (linkOf k s).part vc = none) (hhead : packetHead body 1 = some p)
    (hproto : protoOk vc p.proto = true) (hd : p.dest = devNum s) (hv : vcState vc s = .ready) :
    dataFlit k vc true true body s = (some (p, (body.drop 8).take p.bytes),
      modLink k (fun l => { l with owed := Tab.mod l.owed vc (· + 1), part := Tab.put l.part vc none }) s) := by
  simp [dataFlit, packetEnd, hp, hhead, hproto, hd, hv]

end

end

/-- Settles O47: what flitRx returns in each case of the header, then what becomes of the packet that it completes. -/
theorem flitsArrive : Obligations.FlitsArrive := by
  unfold Obligations.FlitsArrive
  intro k bytes bad corr badCw uncorr s hk hc hl hup rx s1 h body acked s2 hup1
  have taken {t} (hf : flitRx k bytes bad corr badCw uncorr s = (none, t)) : rx t := flit_taken hk hc hl hf
  have delivered {p d t} (hf : flitRx k bytes bad corr badCw uncorr s = (some (p, d), t)) : rx (deliver p d t) := flit_delivered hk hc hl hf
  refine ⟨fun hbad => ?_, fun hbad hcrc _ => ?_, fun hbad hlen hcrc => ?sound⟩
  · subst hbad
    exact taken (flitRx_badCodeword hk hup hup1)
  · subst hbad
    exact taken (flitRx_badCrc hk hup hup1 hcrc)
  case sound =>
    subst hbad
    have hrx : flitRx k bytes false corr badCw uncorr s = flitUp k h body s1 := flitRx_sound hk hup hup1 hlen hcrc
    refine ⟨fun hunknown => taken (hrx.trans (flitUp_unknown hunknown)), fun hr hkind hn => ?ctl, fun hr hkind hn => ?idle,
      fun hr hkind hn => ?nack, fun hr hkind hn hup2 => ?data⟩
    case ctl =>
      have arrive {t} (hctl : rxCtl k body s2 = t) : rx t := taken (hrx.trans ((flitUp_ctl hr hkind hn).trans (congrArg (Prod.mk none) hctl)))
      refine ⟨fun h1 => arrive ?_, fun h2 => arrive ?_, fun h3 => arrive ?_, fun hno => arrive ?_⟩
      · rw [rxCtl, if_pos h1]
      · rw [rxCtl, if_neg (by omega), if_pos h2]
      · rw [rxCtl, if_neg (by omega), if_neg (by omega), if_pos h3]
      · rw [rxCtl, if_neg (by omega), if_neg (by omega), if_neg (by omega)]
    case idle => exact taken (hrx.trans ((flitUp_idle hr hkind).trans (by rw [if_neg (by simp [hn])]; rfl)))
    case nack => exact taken (hrx.trans ((flitUp_idle hr hkind).trans (by rw [if_pos hn]; rfl)))
    case data =>
      refine ⟨fun hseq => taken (hrx.trans (flitUp_outOfOrder hr hkind hn hup2 hseq)), fun hseq => ?_⟩
      intro s3 vc
      have hdata : flitRx k bytes false corr badCw uncorr s =
          ((dataFlit k vc (bitN h 12) (bitN h 13) body s3).1, ackNow k (dataFlit k vc (bitN h 12) (bitN h 13) body s3).2) :=
        hrx.trans (flitUp_data hr hkind hn hup2 hseq)
      refine ⟨fun hsop heop hpart => taken ?_, fun bs hsop heop hpart hlen => taken ?_, fun hsop hpart => taken ?_,
        fun p hsop heop hpart hhead hproto hdest hvc => ?_⟩
      · rw [hdata, hsop, heop, dataFlit_first hpart]
      · rw [hdata, hsop, heop, dataFlit_next hpart hlen]
      · rw [hdata, hsop, dataFlit_stray hpart]
      · intro s4 data
        have hwhole : flitRx k bytes false corr badCw uncorr s = (some (p, data), ackNow k s4) := by
          rw [hdata, hsop, heop, dataFlit_whole hpart hhead hproto hdest hvc]
        refine ⟨fun h1 => ?_, fun h2 => ?_, fun h3 => ?_⟩
        · have hto : deliver p data (ackNow k s4) = shrRx (.stay p.src) data (ackNow k s4) := by simp only [deliver, h1]
          exact hto ▸ delivered hwhole
        · have hto : deliver p data (ackNow k s4) = rxLinkMap p.src data (ackNow k s4) := by simp only [deliver, h2]
          exact hto ▸ delivered hwhole
        · have hto : deliver p data (ackNow k s4) = rackMsg p.src data (ackNow k s4) := by simp only [deliver, h3]
          exact hto ▸ delivered hwhole

/-! ### Packets and link maps -/

section
variable {s : State}

theorem staySend_usable {dest vc proto flow k : Nat} {data : List Byte} {sys : Bool} (hv : vcState vc s = .ready)
    (hk : (usableLinks dest vc s)[flow % (usableLinks dest vc s).length]? = some k) :
    staySend dest vc proto flow data sys s =
      offer (k + 2) (stayQueue vc sys) { vc := vc, bodies := packetBodies dest proto flow data s } s := by
  simp only [staySend, if_pos hv]
  cases hl : usableLinks dest vc s with
  | nil => simp [hl] at hk
  | cons k0 ks =>
    rw [hl] at hk
    simp only [List.getD_eq_getElem?_getD, hk, Option.getD_some]

theorem staySend_noRoute {dest vc proto flow : Nat} {data : List Byte} {sys : Bool} (h : vcState vc s ≠ .ready ∨ usableLinks dest vc s = []) :
    staySend dest vc proto flow data sys s =
      emit (.noroute vc (packetBodies dest proto flow data s).flatten) (linkCount 0 .noroute 1 s) := by
  have hnone : (if vcState vc s = .ready then usableLinks dest vc s else []) = [] := by
    rcases h with hv | hl
    · exact if_neg hv
    · rw [hl, ite_self]
  simp only [staySend, hnone, noRoute]

/-- The LINK_MAP of a device that sends one. -/
def mapSent (s : State) : List Byte :=
  leBytes 2 ((upLinks s).foldl (fun m k => m + 2 ^ k) 0) ++
    leBytes 1 (b2n (vcState 0 s = .ready) + 2 * b2n (vcState 3 s = .ready)) ++ [0, 0, 0, 0, 0]

theorem linkMapData_serving (h : s.dev.mode = .ready ∨ s.dev.mode = .degraded ∨ s.dev.mode = .quarantine) :
    linkMapData s = some (mapSent s) := by
  rcases h with hm | hm | hm <;> simp only [linkMapData, hm, mapSent]

end

/-- Settles O49. -/
theorem stayPacketsComplete : Obligations.StayPacketsComplete := by
  unfold Obligations.StayPacketsComplete
  refine ⟨?send, ?map, ?silence, ?timer, ?boot, fun s => rfl⟩
  case send =>
    intro dest vc proto flow data sys s hh hvc hproto hlen hdest
    have hgoes : (decide (vc < 4) && protoOk vc proto && decide (data.length ≤ 7928) &&
        (decide (dest < 72) || (decide (dest = 0x7F) && decide (vc = 3)))) = true := by
      simpa [hvc, hproto, hlen] using hdest
    have arrive {t} (h : staySend dest vc proto flow data sys s = t) : acts (.stayPacketSend dest vc proto flow data sys) s t :=
      live_of rfl hh ((if_pos hgoes).trans h)
    exact ⟨fun k0 hv hk => arrive (staySend_usable hv hk), fun hno => arrive (staySend_noRoute hno)⟩
  case map =>
    intro src data s hh hsrc hother hlen said
    have hgoes : ¬ (decide (72 ≤ src) || decide (src = devNum s) || decide (data.length ≠ 8)) = true := by simp [hsrc, hother, hlen]
    exact live_of rfl hh (if_neg hgoes)
  case silence =>
    intro src s hh hsrc
    exact live_of rfl hh (if_pos hsrc)
  case timer =>
    intro s hh hm mask map
    have hsaid : linkMapData s = some map := linkMapData_serving hm
    exact live_of (f := sendLinkMap) rfl hh (by simp only [sendLinkMap, hsaid])
  case boot =>
    intro s hh hm
    have hsaid : linkMapData s = none := by simp only [linkMapData, hm]
    exact live_of (f := sendLinkMap) rfl hh (by simp only [sendLinkMap, hsaid])

end Sys2Proof.Safety
end

section
/-! PROOFS. The states of a Stay link. -/

namespace Sys2Proof.Safety

open Sys2Proof.Machine

/-- A link table out of its canonical form: link 0 is listed twice, first with the default value and then in another phase. -/
def twiceListed : State :=
  { State.reset with stay := { State.reset.stay with links := [(0, {}), (0, { phase := .lock })] } }

/-- The phase that link 0 reads. -/
def phaseRead (s : State) : TrainPhase := (linkOf 0 s).phase

theorem twiceListed_trains : twiceListed.dev.mode ≠ .cold ∧ lclkRuns twiceListed = true ∧ (linkOf 0 twiceListed).st = .training ∧
    (linkOf 0 twiceListed).phase = .detect := by
  and_intros <;> decide +kernel

/-- The end of a phase writes the inverted lanes first. In this table that write removes the first listing, so that the phase then read
is the second one's. -/
theorem phaseRead_phaseDone : phaseRead (settle (phaseDone 0 0 twiceListed)) = .init := by decide +kernel

/-- One write of both fields replaces the first listing. -/
theorem phaseRead_oneWrite :
    phaseRead (settle (modLink 0 (fun l => { l with rxInv := l.rxInv ||| 0, phase := .eq }) twiceListed)) = .eq := by decide +kernel

/-- Refutes O48: the statement ranges over every state, tables out of their canonical form included. There the end of the DETECT phase
with no lane inverted, two writes of the link in the model and one in the statement, leaves another phase. -/
theorem not_linkEventsComplete : ¬ Obligations.LinkEventsComplete := by
  unfold Obligations.LinkEventsComplete
  intro h
  obtain ⟨hmode, hclock, htraining, hdetect⟩ := twiceListed_trains
  obtain ⟨-, -, -, htrains, -⟩ := h 0 twiceListed (by decide) hmode hclock
  have hclaim : answers (.stayTrainingPhaseDone ⟨0, 0⟩) twiceListed
      (settle (modLink 0 (fun l => { l with rxInv := l.rxInv ||| 0, phase := .eq }) twiceListed)) :=
    ((htrains htraining).1 0).1 hdetect
  have hruns : answers (.stayTrainingPhaseDone ⟨0, 0⟩) twiceListed (settle (phaseDone 0 0 twiceListed)) :=
    link_of (f := phaseDone 0 0) rfl (by decide) hmode hclock rfl
  have hsame := Host.Outcome.next.inj (hruns.symm.trans hclaim)
  have hphase := congrArg phaseRead hsame
  rw [phaseRead_phaseDone, phaseRead_oneWrite] at hphase
  exact absurd hphase (by decide)

end Sys2Proof.Safety
end

section
/-! PROOFS. Shroud packets as they arrive. -/

namespace Sys2Proof.Safety

open Sys2Proof.Machine

section
variable {src : ShrPeer} {packet data : List Byte} {i typ : Nat} {s : State}

/-- A packet over UDP leaves its ingress buffer; over Stay it takes none. -/
def bufferLeft (src : ShrPeer) (prio n : Nat) (t : State) : State :=
  match src with
  | .stay _ => t
  | .udp p a => ethTake p prio (n + (if isV4 a then 50 else 70)) t

theorem shrArrive_of (ht : (parsePkt packet).typ = typ) :
    shrArrive typ src packet s = bufferLeft src (if typ = 3 || typ = 4 then 3 else 6) packet.length (shrRx src packet s) := by
  have htyp : fieldN packet 1 1 = typ := ht
  simp only [shrArrive, htyp, ne_eq, not_true, if_false]
  cases src <;> rfl

/-- The same after the RTT sample that its echoed time gives. -/
def timedBy (i : Nat) (h : ShrPkt) (s : State) : State :=
  if h.tEcho = 0 then s else addSample i ((s.time.mono + 2 ^ 32 - h.tEcho) % 2 ^ 32) s

/-- A well-formed packet acts, a sequenced one of a tenant once its policer has passed it. -/
def passed (i : Nat) (packet data : List Byte) (s : State) : State :=
  let h := parsePkt packet
  let c := connOf i s
  if (h.typ = 3 || h.typ = 4) && !c.sys then
    if (police c.tenant packet.length s).1 then rxTyped i h data (police c.tenant packet.length s).2 else (police c.tenant packet.length s).2
  else rxTyped i h data s

section
variable (hh : halted s = false) (hb : s.dev.mode ≠ .boot) (hl : 80 ≤ packet.length)
include hh hb hl

theorem shrRx_unknown (hc : connFor src packet s = none) :
    shrRx src packet s = modShr (fun u => { u with malformed := satInc 32 u.malformed }) s := by
  obtain ⟨hcold, hsafe⟩ : s.dev.mode ≠ .cold ∧ s.dev.mode ≠ .safe := by simpa [halted] using hh
  simp [shrRx, hcold, hsafe, hb, Nat.not_lt.2 hl, hc]

theorem shrRx_unsealed (hc : connFor src packet s = some i) (ho : openPkt i packet s = none) :
    shrRx src packet s = raise 0x137 (connCount i .authFail s) := by
  obtain ⟨hcold, hsafe⟩ : s.dev.mode ≠ .cold ∧ s.dev.mode ≠ .safe := by simpa [halted] using hh
  simp [shrRx, hcold, hsafe, hb, Nat.not_lt.2 hl, hc, ho]

theorem shrRx_opened (hc : connFor src packet s = some i) (ho : openPkt i packet s = some data) :
    shrRx src packet s = if pktOk (parsePkt packet) data then passed i packet data s else connCount i .malformed s := by
  obtain ⟨hcold, hsafe⟩ : s.dev.mode ≠ .cold ∧ s.dev.mode ≠ .safe := by simpa [halted] using hh
  cases hok : pktOk (parsePkt packet) data with
  | false => simp [shrRx, hcold, hsafe, hb, Nat.not_lt.2 hl, hc, ho, hok]
  | true =>
    simp only [shrRx, hcold, hsafe, hb, Nat.not_lt.2 hl, hc, ho, hok, passed, decide_false, Bool.or_self, Bool.false_eq_true, if_false,
      Bool.not_true, if_true]
    split <;> rename_i hseq
    · split <;> rename_i hpol <;> simp [hpol]
    · rfl

end

/-! ### By TYPE (Table 16.6) -/

section
variable {h : ShrPkt}

theorem rxTyped_connect (ht : h.typ = 1) : rxTyped i h data s =
    if fieldN data 0 2 ≠ (connOf i (timedBy i h s)).tenant then s
    else if (connOf i (timedBy i h s)).st = .opening then sendOpening i 2 (opened i h.src (timedBy i h s))
    else if (connOf i (timedBy i h s)).st = .opened then sendOpening i 2 (timedBy i h s) else timedBy i h s :=
  if_pos ht

theorem rxTyped_accept (ht : h.typ = 2) : rxTyped i h data s =
    if (connOf i (timedBy i h s)).st = .opening then opened i h.src (timedBy i h s) else timedBy i h s := by
  unfold rxTyped timedBy
  simp only [ht, show (2 : Nat) ≠ 1 by decide, if_false, if_true]

theorem rxTyped_seq (ht : h.typ = 3 ∨ h.typ = 4) : rxTyped i h data s = rxSeq i h data (rxAck i h (timedBy i h s)) := by
  unfold rxTyped timedBy
  rcases ht with ht | ht <;> simp [ht]

theorem rxTyped_ack (ht : h.typ = 5) : rxTyped i h data s = rxAck i h (timedBy i h s) := by
  unfold rxTyped timedBy
  simp [ht]

theorem rxTyped_close (ht : h.typ = 6) : rxTyped i h data s =
    if (connOf i (timedBy i h s)).st = .opened then
      opsEnd i .unavail (sendPlain i 7 (modConn i (fun c => { c with st := .peerClosed }) (rxAck i h (timedBy i h s))))
    else rxAck i h (timedBy i h s) := by
  unfold rxTyped timedBy
  simp [ht]

theorem rxTyped_closeAck (ht : h.typ = 7) : rxTyped i h data s =
    if (connOf i (timedBy i h s)).st = .closing then connFree i (rxAck i h (timedBy i h s)) else rxAck i h (timedBy i h s) := by
  unfold rxTyped timedBy
  simp [ht]

theorem passed_unsequenced (ht : (parsePkt packet).typ = typ) (hno : typ ≠ 3 ∧ typ ≠ 4) :
    passed i packet data s = rxTyped i (parsePkt packet) data s := by
  obtain ⟨h3, h4⟩ := hno
  simp [passed, ht, h3, h4]

theorem passed_sequenced (ht : (parsePkt packet).typ = 3 ∨ (parsePkt packet).typ = 4) :
    passed i packet data s =
      if (connOf i s).sys then rxSeq i (parsePkt packet) data (rxAck i (parsePkt packet) (timedBy i (parsePkt packet) s))
      else if (police (connOf i s).tenant packet.length s).1 then
        rxSeq i (parsePkt packet) data
          (rxAck i (parsePkt packet) (timedBy i (parsePkt packet) (police (connOf i s).tenant packet.length s).2))
      else (police (connOf i s).tenant packet.length s).2 := by
  have hor : (decide ((parsePkt packet).typ = 3) || decide ((parsePkt packet).typ = 4)) = true := by simpa using ht
  simp only [passed, hor, Bool.true_and, Bool.not_eq_true', rxTyped_seq ht]
  cases (connOf i s).sys <;> simp

end

end

/-- Settles O50: a packet is looked up and opened, passes its policer, and then acts by its TYPE. -/
theorem shroudPacketsArrive : Obligations.ShroudPacketsArrive := by
  unfold Obligations.ShroudPacketsArrive
  intro src packet s hh hb hl h n left
  have hleft (prio t) : bufferLeft src prio n t = left prio t := by cases src <;> rfl
  refine ⟨fun hc ht => ?none, fun i hc => ?some⟩
  case none =>
    refine live_of (f := shrArrive 1 src packet) rfl hh ?_
    rw [shrArrive_of ht, shrRx_unknown hh hb hl hc]
    exact hleft _ _
  case some =>
    intro c clear out timed sampled st seq
    have lands {typ} (ht : h.typ = typ) (f : List Byte → State) (hf : ∀ data, passed i packet data s = f data) :
        shrArrive typ src packet s = left (if typ = 3 || typ = 4 then 3 else 6) (out f) := by
      rw [shrArrive_of ht]
      refine (hleft _ _).trans (congrArg (left _) ?_)
      have hopen : openPkt i packet s = clear := rfl
      cases hclear : clear with
      | none => simp only [out, hclear, shrRx_unsealed hh hb hl hc (hopen.trans hclear)]
      | some data => simp only [out, hclear, shrRx_opened hh hb hl hc (hopen.trans hclear), hf, h]
    refine ⟨fun ht => live_of (f := shrArrive 1 src packet) rfl hh (lands ht _ fun data => ?connect),
      fun ht => live_of (f := shrArrive 2 src packet) rfl hh (lands ht _ fun data => ?accept),
      fun ht => live_of (f := shrArrive 3 src packet) rfl hh (lands ht _ fun data => ?req),
      fun ht => live_of (f := shrArrive 4 src packet) rfl hh (lands ht _ fun data => ?resp),
      fun ht => live_of (f := shrArrive 5 src packet) rfl hh (lands ht _ fun data => ?ack),
      fun ht => live_of (f := shrArrive 6 src packet) rfl hh (lands ht _ fun data => ?close),
      fun ht => live_of (f := shrArrive 7 src packet) rfl hh (lands ht _ fun data => ?closeAck)⟩
    case connect => exact (passed_unsequenced ht (by decide)).trans (rxTyped_connect ht)
    case accept => exact (passed_unsequenced ht (by decide)).trans (rxTyped_accept ht)
    case req => exact passed_sequenced (.inl ht)
    case resp => exact passed_sequenced (.inr ht)
    case ack => exact (passed_unsequenced ht (by decide)).trans (rxTyped_ack ht)
    case close => exact (passed_unsequenced ht (by decide)).trans (rxTyped_close ht)
    case closeAck => exact (passed_unsequenced ht (by decide)).trans (rxTyped_closeAck ht)

end Sys2Proof.Safety
end

section
/-! PROOFS. The operations of Shroud at their target. -/

namespace Sys2Proof.Safety

open Sys2Proof.Machine

section
variable {i k a : Nat} {o : InOp} {os : List InOp} {s : State} {again : Bool}

/-- The state without the oldest operation that waits on a connection. -/
def opTaken (i : Nat) (os : List InOp) (s : State) : State := modConn i (fun c => { c with inq := os }) s

/-! ### The oldest operation of a connection (R400, R408) -/

section
variable (hq : (connOf i s).inq = o :: os) (hw : o.whole = true) (hk : o.opc = k)
include hq hw hk

theorem runOldest_error {e : Nat} (ht : target i o s = .error e) :
    runOldest k i s = unmapDone i o (respond i o [[]] e 0 (opTaken i os s)) := by
  simp [runOldest, hq, hw, hk, ht, opTaken]

theorem runOldest_msg (h5 : k = 5) : runOldest k i s = unmapDone i o (opEffect i o 0 (opTaken i os s)) := by
  subst h5
  have ht : target i o s = .ok (0, false) := if_pos hk
  simp [runOldest, hq, hw, hk, ht, opTaken]

section
variable (h5 : o.opc ≠ 5)
include h5

theorem runOldest_stopped (ht : target i o s = .ok (a, again)) (hr : rangeRuns a o.len s = false) : runOldest k i s = s := by
  have h5' : k ≠ 5 := hk ▸ h5
  simp [runOldest, hq, hw, hk, ht, hr, h5']

variable (hr : rangeRuns a o.len s = true)
include hr

theorem runOldest_held (ht : target i o s = .ok (a, false)) (ha : anyAbsent a o.len s = true) : runOldest k i s = s := by
  have h5' : k ≠ 5 := hk ▸ h5
  simp [runOldest, hq, hw, hk, ht, hr, ha, h5']

theorem runOldest_fault (ht : target i o s = .ok (a, true)) (ha : anyAbsent a o.len s = true) :
    runOldest k i s = unmapDone i o (respond i o [[]] 4 ((Config.freeValue s.free).toNat % 256)
      (modConn i (fun c => { c with inq := [], faultAt := some o.opsn }) { s with free := s.free + 1 })) := by
  have h5' : k ≠ 5 := hk ▸ h5
  simp [runOldest, hq, hw, hk, ht, hr, ha, h5', drawFree]

theorem runOldest_present (ht : target i o s = .ok (a, again)) (ha : anyAbsent a o.len s = false) :
    runOldest k i s = unmapDone i o (opEffect i o a (opTaken i os s)) := by
  have h5' : k ≠ 5 := hk ▸ h5
  simp [runOldest, hq, hw, hk, ht, hr, ha, h5', opTaken]

end

end

/-! ### The effect of each kind (R401 - R405) -/

theorem opEffect_read (hk : o.opc = 1) : opEffect i o a s = readOp i o a s := if_pos hk

theorem opEffect_write (hk : o.opc = 2) : opEffect i o a s = respond i o [[]] 0 0 (memWrite a (o.data.take o.len) s) := by
  simp [opEffect, hk]

theorem opEffect_writeSig (hk : o.opc = 3) :
    opEffect i o a s = respond i o [[]] 0 0 (cleatAdd true o.aux 1 (memWrite a (o.data.take o.len) s)) := by
  simp [opEffect, hk]

theorem opEffect_msg (hk : o.opc = 5) : opEffect i o a s = respond i o [[]] 0 0 (emit (.shrMsg i (o.data.take o.len)) s) := by
  simp [opEffect, hk]

theorem opEffect_faddBad (hk : o.opc = 4) (hb : (memRead a 8 s).1 = none) :
    opEffect i o a s = respond i o [[]] 3 0 (memRead a 8 s).2 := by
  have hm : memRead a 8 s = (none, (memRead a 8 s).2) := Prod.ext hb rfl
  rw [opEffect, hm]
  simp [hk]

theorem opEffect_fadd (hk : o.opc = 4) (hc : rangeClean a 8 s = true) :
    opEffect i o a s = respond i o [rawRead a 8 s] 0 0 (memWrite a (leBytes 8 (leNat (rawRead a 8 s) + fieldN o.data 0 8)) s) := by
  simp [opEffect, hk, memRead_of_rangeClean hc]

theorem readOp_clean (hc : rangeClean a o.len s = true) :
    readOp i o a s = respond i o (pieces (o.len / 4096 + 1) (rawRead a o.len s)) 0 0 (readUse a o.len s) := by
  have hnone : badWords a o.len s.mem = [] := List.isEmpty_iff.1 hc
  simp [readOp, hnone, memRead_of_rangeClean hc]

end

/-- Settles O51: the oldest operation by its checks and its pages, then the effect of its kind. -/
theorem shroudTargetsComplete : Obligations.ShroudTargetsComplete := by
  unfold Obligations.ShroudTargetsComplete
  refine ⟨fun i o os s hh hq hw => ?ops, fun p s hh => live_of (f := pagePresent p) rfl hh rfl⟩
  case ops =>
    intro pop runs
    have checked {op : Nat} {c : Instr} (hx : exec c s = actLive (runOldest op i) s) : runs op c := by
      intro hk
      refine ⟨fun e ht => live_of hx hh (runOldest_error hq hw hk ht),
        fun a g ht h5 hr => live_of hx hh (runOldest_stopped hq hw hk h5 ht hr), fun a h5 hr ha => ⟨fun ht => ?_, fun ht => ?_⟩⟩
      · exact live_of hx hh (runOldest_held hq hw hk h5 hr ht ha)
      · exact live_of hx hh (runOldest_fault hq hw hk h5 hr ht ha)
    refine ⟨checked rfl, checked rfl, checked rfl, checked rfl, fun a again ht hr ha => ?effect, fun hk => ?msg⟩
    case effect =>
      have lands {op : Nat} {c : Instr} {u : State} (hx : exec c s = actLive (runOldest op i) s) (hk : o.opc = op) (h5 : op ≠ 5)
          (hu : opEffect i o a pop = u) : acts c s (unmapDone i o u) :=
        live_of hx hh ((runOldest_present hq hw hk (hk ▸ h5) hr ht ha).trans (congrArg (unmapDone i o) hu))
      refine ⟨fun hk hc => ?_, fun hk _ => ?_, fun hk hb => ?_, fun hk => ?_, fun hk => ?_, fun hk hc => ?_⟩
      · exact lands rfl hk (by decide) ((opEffect_read hk).trans (readOp_clean hc))
      · exact lands rfl hk (by decide) (opEffect_read hk)
      · exact lands rfl hk (by decide) (opEffect_faddBad hk hb)
      · exact lands rfl hk (by decide) (opEffect_write hk)
      · exact lands rfl hk (by decide) (opEffect_writeSig hk)
      · exact lands rfl hk (by decide) (opEffect_fadd hk hc)
    case msg =>
      exact live_of (f := runOldest 5 i) rfl hh ((runOldest_msg hq hw hk rfl).trans (congrArg (unmapDone i o) (opEffect_msg hk)))

end Sys2Proof.Safety
end

section
/-! PROOFS. The operations of Shroud at their initiator, and the timers of a connection. -/

namespace Sys2Proof.Safety

open Sys2Proof.Machine

section
variable {i : Nat} {p : ShrPost} {s : State}

/-! ### A post (R393, R411, R415, R419) -/

/-- The operations of a connection that wait for their trigger. -/
def triggeredBy (c : ShrConn) : Nat := (c.ops.filter (fun o => o.post.cond.isSome && o.opsn.isNone)).length

/-- The condition of a post that its connection's CHAIN refuses. -/
def condRefused (p : ShrPost) (c : ShrConn) : Bool := p.cond.isSome && (c.chain = 0 || (c.chain = 2 && 256 ≤ triggeredBy c))

section
variable (hfree : (connOf i s).st ≠ .free) (hopening : (connOf i s).st ≠ .opening) (hnew : ∀ o ∈ (connOf i s).ops, o.post.id ≠ p.id)
include hfree hopening hnew

/-- A post under a new number on a connection that is there goes through the checks in their order. -/
theorem opPost_of : opPost i p s =
    (let c := connOf i s
     let s1 := connCount i .posted s
     let o : ShrOp := { post := p, client := .outside, tmo := c.timeout }
     if !postOk p || condRefused p c then opEnd i o .inval 0 s1
     else if c.st = .broken then opEnd i o .broken 0 s1
     else if !(c.st = .opened) || !shrRuns s then opEnd i o .unavail 0 s1
     else if s.dev.mode = .quarantine && c.onStay then opEnd i o .noRoute 0 s1
     else release i (modConn i (fun c => { c with ops := c.ops ++ [o] }) s1)) := by
  have hgoes : (decide ((connOf i s).st = .free) || decide ((connOf i s).st = .opening) ||
      (connOf i s).ops.any (fun o => decide (o.post.id = p.id))) = false := by
    simpa [hfree, hopening] using hnew
  unfold opPost opPostAs condRefused triggeredBy
  exact if_neg (by rw [hgoes]; decide)

end

theorem condRefused_eq_false {c : ShrConn} (h : p.cond = none ∨ c.chain = 1 ∨ (c.chain = 2 ∧ triggeredBy c < 256)) :
    condRefused p c = false := by
  rcases h with h | h | ⟨h, hlt⟩
  · simp [condRefused, h]
  · simp [condRefused, h]
  · simp [condRefused, h, hlt]

theorem condRefused_eq_true {c : ShrConn} (hp : p.cond.isSome = true) (h : c.chain = 0 ∨ (c.chain = 2 ∧ 256 ≤ triggeredBy c)) :
    condRefused p c = true := by
  simpa [condRefused, hp] using h

/-! ### Sending -/

theorem release_opened (h : (connOf i s).st = .opened) :
    release i s = closeStep i ((mayLeave (connOf i s) s).foldl (fun s o => opLeave i o s) s) := by
  simp [release, h]

theorem sends_of (h : (connOf i s).st = .opened ∨ (connOf i s).st = .closing) :
    (decide ((connOf i s).st = .opened) || decide ((connOf i s).st = .closing)) = true := by simpa using h

section
variable {g : ShrSeg} {gs : List ShrSeg}

theorem pacedSend_sent (h : (connOf i s).st = .opened ∨ (connOf i s).st = .closing) (hq : (connOf i s).outq = g :: gs)
    (hl : (connOf i s).unacked.length < 1024) :
    pacedSend i s = sendPkt i (if g.resp then 4 else 3) { g with psn := (connOf i s).psn }
      (modConn i (fun c => { c with outq := gs, psn := (c.psn + 1) % 2 ^ 32, unacked := c.unacked ++ [{ g with psn := (connOf i s).psn }] }) s) := by
  simp only [pacedSend, hq, sends_of h, hl, decide_true, Bool.and_self, if_true]

theorem pacedSend_full (hq : (connOf i s).outq = g :: gs) (hl : 1024 ≤ (connOf i s).unacked.length) : pacedSend i s = s := by
  simp [pacedSend, hq, Nat.not_lt.2 hl]

end

theorem opTimeout_found {id : Nat} {o : ShrOp}
    (h : (connOf i s).ops.find? (fun o => o.post.id = id && (o.opsn.isSome || o.post.cond.isNone)) = some o) :
    opTimeout i id s = closeStep i (opEnd i o .timedOut 0 s) := by
  simp only [opTimeout, h]

/-! ### The operations that a FAULT sends again (R410) -/

theorem resendDelay_none (h : (connOf i s).ops.all (fun o => !o.resend) = true) : resendDelay i s = s := by
  have hnone : ((connOf i s).ops.filter (fun o => o.opsn.isSome)).find? (fun o => o.resend) = none := by
    rw [List.find?_eq_none]
    intro o ho
    simpa using List.all_eq_true.1 h o (List.mem_of_mem_filter ho)
  simp only [resendDelay, hnone]

/-- The data of an operation that goes again joins the connection's queue, or the operation ends where a word cannot be read. -/
def sendAgain (i : Nat) (r : Bool × State) (o : ShrOp) : Bool × State :=
  match opData o.post r.2 with
  | (some d, s2) => (false, modConn i (fun c => { c with outq := c.outq ++ reqSegs o.post (o.opsn.getD 0) r.1 d }) s2)
  | (none, s2) => (r.1, opEnd i o (.ostat 3) 0 s2)

theorem resendDelay_some {f : ShrOp} (h : ((connOf i s).ops.filter (fun o => o.opsn.isSome)).find? (fun o => o.resend) = some f) :
    resendDelay i s =
      (let c := connOf i s
       let n := f.opsn.getD 0
       let again := ((c.ops.filter (fun o => o.opsn.isSome)).filter (fun o => o.after n < 2 ^ 31)).foldl (fun l o => insertOp n o l) []
       let ns := again.filterMap (fun o => o.opsn)
       let s1 := modConn i (fun c => { c with outq := c.outq.filter (fun g => g.resp || !ns.contains g.opsn)
                                              ops := c.ops.map (fun o => { o with resend := false }) }) s
       (again.foldl (sendAgain i) (true, s1)).2) := by
  simp only [resendDelay, h] <;> rfl

/-! ### The timers of a connection (R391, R397 - R399) -/

theorem retransmit_of {psn : Nat} {g : ShrSeg} (h : (connOf i s).st = .opened ∨ (connOf i s).st = .closing)
    (hf : (connOf i s).unacked.find? (fun g => g.psn = psn && !g.sacked) = some g) :
    retransmit i psn s = raise 0x134 (connCount i .retx (sendPkt i (if g.resp then 4 else 3) g
      (modConn i (fun c => { c with unacked := c.unacked.map (fun x => if x.psn = psn then { x with tries := x.tries + 1 } else x) }) s))) := by
  have hst : (decide ((connOf i s).st = .opened) || decide ((connOf i s).st = .closing)) = true := sends_of h
  simp only [retransmit, hf, hst, if_true]

theorem ackTimer_due (h : (connOf i s).st = .opened ∨ (connOf i s).st = .closing) (hd : 0 < (connOf i s).ackDue) :
    ackTimer i s = sendPkt i 5 {} s := by
  have hst : (decide ((connOf i s).st = .opened) || decide ((connOf i s).st = .closing)) = true := sends_of h
  simp only [ackTimer, hd, hst, decide_true, Bool.and_self, if_true, sendPlain]

theorem brokenTimeout_broken (h : (connOf i s).st = .opened) (hu : ∃ g ∈ (connOf i s).unacked, g.sacked = false) :
    brokenTimeout i s = raise 0x136 (opsEnd i .broken (modConn i (fun c => { c with st := .broken }) s)) := by
  have hany : (connOf i s).unacked.any (fun g => !g.sacked) = true := by simpa using hu
  simp only [brokenTimeout, h, hany, decide_true, Bool.and_self, if_true]

theorem brokenTimeout_acked (hu : ∀ g ∈ (connOf i s).unacked, g.sacked = true) : brokenTimeout i s = s := by
  have hany : (connOf i s).unacked.any (fun g => !g.sacked) = false := by simpa using hu
  simp only [brokenTimeout, hany, Bool.and_false, Bool.false_eq_true, if_false]

theorem closeRetry_of (h : (connOf i s).st = .closing) (ho : (connOf i s).ops = []) :
    closeRetry i s = if 100 ≤ (connOf i s).closes then connFree i s
      else sendPkt i 6 {} (modConn i (fun c => { c with closes := c.closes + 1 }) s) := by
  simp only [closeRetry, h, ho, List.isEmpty_nil, decide_true, Bool.and_self, if_true, sendPlain]

/-! ### The rate of a connection (R417, R418) -/

theorem ccPeriod_of {v : Nat} {r : Nat × Nat} {pinned : Bool} (hv : (connOf i s).sample = some v)
    (hr : ccStep s.shr (lineRate (connOf i s)) (shaperRate (connOf i s) s) (v - baseRtt (connOf i s)) (connOf i s).rcc = (r, pinned)) :
    ccPeriod i s = if pinned then connCount i .pinned (modConn i (fun c => { c with rcc := r, sample := none }) s)
      else modConn i (fun c => { c with rcc := r, sample := none }) s := by
  simp only [ccPeriod, hv, hr]

section
variable {u : Shroud} {line rate delay : Nat} {r : Nat × Nat}

theorem ccStep_cut (hd : u.target < delay)
    (h : u.minRate * (r.2 * (65536 * delay)) ≤ r.1 * (65536 * delay - u.md * (delay - u.target))) :
    ccStep u line rate delay r = ((r.1 * (65536 * delay - u.md * (delay - u.target)), r.2 * (65536 * delay)), false) := by
  simp only [ccStep, if_pos hd, if_neg (Nat.not_lt.2 h)]

theorem ccStep_floor (hd : u.target < delay)
    (h : r.1 * (65536 * delay - u.md * (delay - u.target)) < u.minRate * (r.2 * (65536 * delay))) :
    ccStep u line rate delay r = ((u.minRate, 1), true) := by
  simp only [ccStep, if_pos hd, if_pos h]

theorem ccStep_pinned (hd : delay ≤ u.target) (h : rate * r.2 < r.1) : ccStep u line rate delay r = (r, true) := by
  simp only [ccStep, if_neg (Nat.not_lt.2 hd), if_pos h]

theorem ccStep_up (hd : delay ≤ u.target) (h : r.1 ≤ rate * r.2) (hl : r.1 + u.ai * r.2 ≤ line * r.2) :
    ccStep u line rate delay r = ((r.1 + u.ai * r.2, r.2), false) := by
  simp only [ccStep, if_neg (Nat.not_lt.2 hd), if_neg (Nat.not_lt.2 h), if_neg (Nat.not_lt.2 hl)]

theorem ccStep_line (hd : delay ≤ u.target) (h : r.1 ≤ rate * r.2) (hl : line * r.2 < r.1 + u.ai * r.2) :
    ccStep u line rate delay r = ((line, 1), true) := by
  simp only [ccStep, if_neg (Nat.not_lt.2 hd), if_neg (Nat.not_lt.2 h), if_pos hl]

end

end

/-- Settles O52. -/
theorem shroudInitiatorsComplete : Obligations.ShroudInitiatorsComplete := by
  unfold Obligations.ShroudInitiatorsComplete
  refine ⟨?post, ?gate, ?paced, ?timeout, ?still, ?again, fun n o p ps => ⟨rfl, rfl⟩⟩
  case post =>
    intro i p s hh hfree hopening hnew c o triggered s1 refused fit
    have hpost := opPost_of hfree hopening hnew
    have arrive {t} (h : opPost i p s = t) : acts (.shrOperationPost i p) s t := live_of rfl hh h
    have hfit (hf : fit) : ¬ (!postOk p || condRefused p c) = true := by
      obtain ⟨hok, hcond⟩ := hf
      rw [hok, condRefused_eq_false hcond]
      decide
    have hbroken (hst : c.st = .opened) : ¬ c.st = .broken := by rw [hst]; decide
    refine ⟨fun hbad => ?_, fun hc hchain => ?_, fun hf hst => ?_, fun hf hst => ?_, fun hf hst hr => ?_, fun hf hst hr hm hs => ?_,
      fun hf hst hr hm => ?_⟩
    · refine arrive (hpost.trans (if_pos ?_))
      rw [hbad]
      rfl
    · refine arrive (hpost.trans (if_pos ?_))
      rw [condRefused_eq_true hc hchain, Bool.or_true]
    · exact arrive (hpost.trans ((if_neg (hfit hf)).trans (if_pos hst)))
    · have hbroken : ¬ c.st = .broken := by rcases hst with hst | hst <;> simp [hst]
      have hclosed : (!decide (c.st = .opened) || !shrRuns s) = true := by rcases hst with hst | hst <;> simp [hst]
      exact arrive (hpost.trans ((if_neg (hfit hf)).trans ((if_neg hbroken).trans (if_pos hclosed))))
    · have hclosed : (!decide (c.st = .opened) || !shrRuns s) = true := by simp [hr]
      exact arrive (hpost.trans ((if_neg (hfit hf)).trans ((if_neg (hbroken hst)).trans (if_pos hclosed))))
    · have hopen : ¬ (!decide (c.st = .opened) || !shrRuns s) = true := by simp [hst, hr]
      have hquarantine : (decide (s.dev.mode = .quarantine) && c.onStay) = true := by simp [hm, hs]
      exact arrive (hpost.trans ((if_neg (hfit hf)).trans ((if_neg (hbroken hst)).trans ((if_neg hopen).trans (if_pos hquarantine)))))
    · have hopen : ¬ (!decide (c.st = .opened) || !shrRuns s) = true := by simp [hst, hr]
      have hserves : ¬ (decide (s.dev.mode = .quarantine) && c.onStay) = true := by simp [hm]
      exact arrive (hpost.trans ((if_neg (hfit hf)).trans ((if_neg (hbroken hst)).trans ((if_neg hopen).trans (if_neg hserves)))))
  case gate => exact fun i s hh hst => live_of (f := release i) rfl hh (release_opened hst)
  case paced =>
    intro i g gs s hh hst hq g1
    exact ⟨fun hl => live_of (f := pacedSend i) rfl hh (pacedSend_sent hst hq hl), fun hl => live_of (f := pacedSend i) rfl hh (pacedSend_full hq hl)⟩
  case timeout => exact fun i id o s hh hf => live_of (f := opTimeout i id) rfl hh (opTimeout_found hf)
  case still => exact fun i s hh hno => live_of (f := resendDelay i) rfl hh (resendDelay_none hno)
  case again => exact fun i f s hh hf => live_of (f := resendDelay i) rfl hh (resendDelay_some hf)

/-- Settles O53. -/
theorem shroudTimersComplete : Obligations.ShroudTimersComplete := by
  unfold Obligations.ShroudTimersComplete
  refine ⟨?retransmit, ?ack, ?broken, ?connect, ?close, ?rate⟩
  case retransmit => exact fun i psn g s hh hst hf => live_of (f := retransmit i psn) rfl hh (retransmit_of hst hf)
  case ack => exact fun i s hh hst hd => live_of (f := ackTimer i) rfl hh (ackTimer_due hst hd)
  case broken =>
    exact fun i s hh hst => ⟨fun hu => live_of (f := brokenTimeout i) rfl hh (brokenTimeout_broken hst hu),
      fun hu => live_of (f := brokenTimeout i) rfl hh (brokenTimeout_acked hu)⟩
  case connect => exact fun i s hh hst => live_of (f := connectRetry i) rfl hh (if_pos hst)
  case close =>
    exact fun i s hh hst ho => ⟨fun hc => live_of (f := closeRetry i) rfl hh ((closeRetry_of hst ho).trans (if_pos hc)),
      fun hc => live_of (f := closeRetry i) rfl hh ((closeRetry_of hst ho).trans (if_neg (Nat.not_le.2 hc)))⟩
  case rate =>
    intro i v s hh hv c delay r set cut up pace
    have paced {q : Nat × Nat} (h : ccStep s.shr (lineRate c) (shaperRate c s) delay r = (q, false)) : pace (set q) :=
      live_of (f := ccPeriod i) rfl hh (ccPeriod_of hv h)
    have pinned {q : Nat × Nat} (h : ccStep s.shr (lineRate c) (shaperRate c s) delay r = (q, true)) : pace (connCount i .pinned (set q)) :=
      live_of (f := ccPeriod i) rfl hh (ccPeriod_of hv h)
    refine ⟨fun hd h => paced ?_, fun hd h => pinned ?_, fun hd h => pinned ?_, fun hd h hl => paced ?_, fun hd h hl => pinned ?_⟩
    · exact ccStep_cut hd h
    · exact ccStep_floor hd h
    · exact ccStep_pinned hd h
    · exact ccStep_up hd h hl
    · exact ccStep_line hd h hl

end Sys2Proof.Safety
end

section
/-! PROOFS. Trim's selection. -/

namespace Sys2Proof.Safety

open Sys2Proof.Machine

/-- A port table out of its canonical form: Ethernet port 0 is listed twice. The first listing is the default but for the turn of queue
0; the second one has no strict queue. The port is up, Trim runs, and a frame waits in queue 7. -/
def portTwiceListed : State :=
  let s := State.reset
  { s with
    host := { s.host with fns := [(4, .running)] }
    eth := [(0, { up := true })]
    trim := { s.trim with ports := [(0, { turn := 0, inTurn := true }), (0, { nStrict := 0 })], qs := [(7, { pkts := [{ frame := [0] }] })] } }

theorem portTwiceListed_selects : portTakes 0 portTwiceListed = true ∧ trimRuns portTwiceListed = true ∧
    maySend 0 7 (turnCheck 0 portTwiceListed) = true ∧ 8 ≤ 7 + strictOf (Tab.get portTwiceListed.trim.ports 0) := by
  and_intros <;> decide +kernel

/-- As the turn of queue 0 ends, the first listing is the default and is removed: the second one then answers, and no queue is strict. -/
theorem portTwiceListed_weighted : (trimSelect 0 portTwiceListed).1 = none := by decide +kernel

/-- Refutes O54: the statement ranges over every state, tables out of their canonical form included. In such a table the end of a turn can
change how many queues of a port are strict, and the strict queue that the statement names is not the one selected. -/
theorem not_trimAndEthernetEventsComplete : ¬ Obligations.TrimAndEthernetEventsComplete := by
  unfold Obligations.TrimAndEthernetEventsComplete
  intro h
  obtain ⟨htakes, hruns, hsends, hstrict⟩ := portTwiceListed_selects
  obtain ⟨-, -, -, -, -, hselect, -⟩ := h
  have hseven : trimSelect 0 portTwiceListed = (some 7, turnCheck 0 portTwiceListed) :=
    hselect 0 7 portTwiceListed htakes hruns (fun j h7 h8 => absurd h8 (by omega)) (by decide) hsends hstrict
  have hqueue := congrArg Prod.fst hseven
  rw [portTwiceListed_weighted] at hqueue
  exact absurd hqueue (by decide)

end Sys2Proof.Safety
end

section
/-! PROOFS. The states of a drive, and its commands. -/

namespace Sys2Proof.Safety

open Sys2Proof.Machine

section
variable {d : Nat} {s : State}

theorem driveOf_modDrive (f : Drive → Drive) : driveOf d (modDrive d f s) = f (driveOf d s) := by
  by_cases h : d = 0 <;> simp [driveOf, modDrive, h]

theorem modDrive_congr {f g : Drive → Drive} (h : f (driveOf d s) = g (driveOf d s)) : modDrive d f s = modDrive d g s := by
  by_cases h0 : d = 0 <;> simp_all [driveOf, modDrive]

/-! ### The states of a drive (R460 - R463, R470) -/

theorem driveWired_of (hh : halted s = false) (hd : d = 0 ∨ (d = 1 ∧ s.nvme.wiredMode = 1)) (hp : s.pins.nvmePerstN.getLsbD d = true)
    (hc : domainLost 8 s = false) : driveWired d s = true := by
  obtain ⟨-, hsafe⟩ : s.dev.mode ≠ .cold ∧ s.dev.mode ≠ .safe := by simpa [halted] using hh
  rcases hd with rfl | ⟨rfl, hw⟩
  · simp [driveWired, hp, hc, hsafe]
  · simp [driveWired, hw, hp, hc, hsafe]

theorem driveUpEv_trains {w r : Nat} {inv : BitVec 8} {rev : Bool} (hw : driveWired d s = true) (hst : (driveOf d s).st = .absent)
    (hr : r = 2 ∨ r = 5 ∨ r = 8 ∨ r = 16 ∨ r = 32) (h0 : 0 < w) (hl : w ≤ (if s.nvme.wiredMode = 1 then 4 else 8)) :
    driveUpEv d w r inv rev s = modDrive d (fun u => { u with st := .init, width := w, rate := r, rxInv := inv, reversed := rev }) s := by
  have hrate : [2, 5, 8, 16, 32].contains r = true := by simpa using hr
  have htrains : driveTrains w r s = true := by
    unfold driveTrains
    rw [hrate, decide_eq_true h0, decide_eq_true hl]
    rfl
  simp only [driveUpEv, hw, htrains, hst, decide_true, Bool.and_self, if_true]

theorem driveUpEv_tooWide {w r : Nat} {inv : BitVec 8} {rev : Bool} (hl : (if s.nvme.wiredMode = 1 then 4 else 8) < w) :
    driveUpEv d w r inv rev s = s := by
  have htrains : driveTrains w r s = false := by
    unfold driveTrains
    rw [decide_eq_false (Nat.not_le.2 hl), Bool.and_false]
  simp only [driveUpEv, htrains, Bool.and_false, Bool.false_and, Bool.false_eq_true, if_false]

theorem driveRdy_meets {i : DriveInfo} (hst : (driveOf d s).st = .init) (hi : driveMeets i = true) :
    driveRdy d true i s = layDrive d i.label (driveQueues d (modDrive d (fun u => { u with
      st := .ready, nsze := i.nsze, maxBytes := if i.mdts = 0 then 262144 else min 262144 i.mdts,
      pairs := min s.nvme.ioq i.granted, entries := min 1024 (i.mqes + 1) }) (driveIdentify d s))) := by
  simp only [driveRdy, hst, hi, decide_true, Bool.and_self, if_true]

theorem driveRdy_rejected {i : DriveInfo} (hst : (driveOf d s).st = .init) (hi : driveMeets i = false) :
    driveRdy d true i s = driveBad d .rejected (driveIdentify d s) := by
  simp only [driveRdy, hst, hi, decide_true, Bool.and_self, if_true, Bool.false_eq_true, if_false]

/-- The resets of a drive within ten minutes, with the one that has just ended. -/
def resetsWith (d : Nat) (s : State) : List Nat :=
  (driveOf d s).resetAt.filter (fun t => decide (s.time.mono < t + 600000000000)) ++ [s.time.mono]

theorem driveRdy_reset {i : DriveInfo} (hst : (driveOf d s).st = .resetting) : driveRdy d false i s =
    (let s1 := modDrive d (fun u => { u with resetAt := resetsWith d s, resets := sat32 u.resets 1 }) s
     if 3 ≤ (resetsWith d s).length then driveBad d .failed s1 else modDrive d (fun u => { u with st := .init }) s1) := by
  have hset : ¬ (false && decide ((driveOf d s).st = .init)) = true := by simp
  have hreset : (!false && decide ((driveOf d s).st = .resetting)) = true := by simp [hst]
  unfold driveRdy
  exact (if_neg hset).trans (if_pos hreset)

theorem driveQueues_of {pairs entries : Nat} {f : Drive → Drive} (hp : (f (driveOf d s)).pairs = pairs) (he : (f (driveOf d s)).entries = entries) :
    driveQueues d (modDrive d f s) =
      (((List.range pairs).flatMap (fun q => [NvAdmin.createCq (q + 1) entries, NvAdmin.createSq (q + 1) entries])) ++
        List.replicate 4 NvAdmin.asyncEvent).foldl (fun s a => emit (.nvAdmin d a) s) (modDrive d f s) := by
  simp only [driveQueues, driveOf_modDrive, hp, he]

end

/-- Settles O55. -/
theorem driveStatesComplete : Obligations.DriveStatesComplete := by
  unfold Obligations.DriveStatesComplete
  refine ⟨fun d w r inv rev s hh hd hp hc hst => ⟨fun hr h0 hl => ?up, fun hl => ?wide⟩, fun d s hd hh => ?states⟩
  case up => exact live_of (f := driveUpEv d w r _ rev) rfl hh (driveUpEv_trains (driveWired_of hh hd hp hc) hst hr h0 hl)
  case wide => exact live_of (f := driveUpEv d w r _ rev) rfl hh (driveUpEv_tooWide hl)
  case states =>
    intro bad reset asked
    have ready {set i u} (h : driveRdy d set i s = u) : acts (.nvmeCstsRdy d set i) s (furlSettle u) :=
      drive_of (f := driveRdy d set i) rfl hd hh (congrArg furlSettle h)
    have late {u} (h : driveLate d s = u) : acts (.nvmeCapToExpiry d) s (furlSettle u) :=
      drive_of (f := driveLate d) rfl hd hh (congrArg furlSettle h)
    have fatal {u} (h : driveFatal d s = u) : acts (.nvmeControllerFatal d) s (furlSettle u) :=
      drive_of (f := driveFatal d) rfl hd hh (congrArg furlSettle h)
    have down {u} (h : driveDown d s = u) : acts (.nvmeLinkDown d) s (furlSettle u) :=
      drive_of (f := driveDown d) rfl hd hh (congrArg furlSettle h)
    refine ⟨fun hst => ⟨fun i hi => ?_, fun i hi => ready (driveRdy_rejected hst hi), late (by simp only [driveLate, hst]; rfl)⟩,
      fun hst => ?resetting, fun hst => fatal (if_pos hst), fun hst => fatal (if_neg hst), fun hst => down (if_neg hst),
      fun hst => down (if_pos hst), fun smart => ?async⟩
    · intro up pairs queued
      exact ready ((driveRdy_meets hst hi).trans (congrArg (layDrive d i.label) (driveQueues_of rfl rfl)))
    case resetting =>
      intro ts s1
      refine ⟨fun i hl => ready ((driveRdy_reset hst).trans (if_neg (Nat.not_le.2 hl))), fun i hl => ready ((driveRdy_reset hst).trans (if_pos hl)),
        late (by simp only [driveLate, hst]; rfl)⟩
    case async =>
      refine drive_of (f := driveAsync d smart) rfl hd hh (congrArg furlSettle ?_)
      unfold driveAsync
      split <;> rename_i h0 <;> simp only [h0]

end Sys2Proof.Safety
end

section
/-! PROOFS. The commands of a drive. -/

namespace Sys2Proof.Safety

open Sys2Proof.Machine

section
variable {d cid : Nat} {c : NvCmd} {s : State}

/-- The bytes of a completed command are counted. -/
def bytesCounted (c : NvCmd) (u : Drive) : Drive :=
  match c.kind with
  | .read => { u with readBytes := min (2 ^ 64 - 1) (u.readBytes + 4096 * c.nlb) }
  | .write => { u with writeBytes := min (2 ^ 64 - 1) (u.writeBytes + 4096 * c.nlb) }
  | _ => u

/-- The data of a READ that restores a block comes to memory. -/
def dataLanded (d : Nat) (c : NvCmd) (data : List Byte) (s : State) : State :=
  match c.kind, c.client with
  | .read, .restore _ => memWrite c.loc (mediaRead d c data s) s
  | _, _ => s

/-! ### A completion (R469, R471) -/

section
variable (hc : (driveOf d s).cmds.find? (fun c => c.cid = cid && !c.waiting) = some c)
include hc

theorem nvComplete_late {r : NvResult} (ha : c.aborted = true) :
    nvComplete d cid r s = cmdDone d cid (modDrive d (fun u => { u with lateCpl := sat32 u.lateCpl 1 }) s) := by
  simp only [nvComplete, hc, ha, if_true]

section
variable (ha : c.aborted = false)
include ha

/-- A transfer whose media key is not held fails to its client. -/
theorem nvComplete_keyless {data : List Byte} (hk : c.kind = .read ∨ c.kind = .write) (hn : ¬ (c.lba = 0 ∨ mediaHeld d s = true)) :
    nvComplete d cid (.ok data) s = clientFail d c.client (cmdDone d cid s) := by
  obtain ⟨hlba, hheld⟩ := not_or.1 hn
  have hfails : ((decide (c.kind = .read) || decide (c.kind = .write)) && decide (c.lba ≠ 0) && !mediaHeld d s) = true := by
    simpa [hlba, hheld] using hk
  simp only [nvComplete, hc, ha, Bool.false_eq_true, if_false, hfails, if_true]

/-- Any other command counts its bytes and, where it brings a restored block back, its data. -/
theorem nvComplete_ok {data : List Byte} (hk : (c.kind ≠ .read ∧ c.kind ≠ .write) ∨ c.lba = 0 ∨ mediaHeld d s = true) :
    nvComplete d cid (.ok data) s =
      (let s1 := cmdDone d cid (modDrive d (bytesCounted c) s)
       let s2 := dataLanded d c data s1
       if c.client = .none || !clientIdle c.client s2 then s2 else clientEnd c.client true s2) := by
  have hgoes : ¬ ((decide (c.kind = .read) || decide (c.kind = .write)) && decide (c.lba ≠ 0) && !mediaHeld d s) = true := by
    rcases hk with ⟨hr, hw⟩ | h0 | hheld
    · simp [hr, hw]
    · simp [h0]
    · simp [hheld]
  unfold nvComplete
  rw [hc]
  exact (if_neg (by rw [ha]; decide)).trans (if_neg hgoes)

/-- The client whose last command this was learns its end. -/
theorem nvComplete_told {data : List Byte} {u : State} (hk : (c.kind ≠ .read ∧ c.kind ≠ .write) ∨ c.lba = 0 ∨ mediaHeld d s = true)
    (hland : dataLanded d c data (cmdDone d cid (modDrive d (bytesCounted c) s)) = u) (hcl : c.client ≠ .none)
    (hidle : clientIdle c.client u = true) : nvComplete d cid (.ok data) s = clientEnd c.client true u := by
  subst hland
  refine (nvComplete_ok hc ha hk).trans (if_neg ?_)
  rw [decide_eq_false hcl, hidle]
  decide

theorem nvComplete_retries (hr : c.retried = false) :
    nvComplete d cid (.err false) s = modDrive d (fun u => { u with cmds := u.cmds.map (fun x => if x.cid = cid then { x with waiting := true } else x) })
      (modDrive d (fun u => { u with errors := sat32 u.errors 1 }) s) := by
  simp only [nvComplete, hc, ha, hr, Bool.false_eq_true, if_false, Bool.not_false, Bool.and_self, if_true]

theorem nvComplete_fails {dnr : Bool} (hr : dnr = true ∨ c.retried = true) :
    nvComplete d cid (.err dnr) s = clientFail d c.client (cmdDone d cid (modDrive d (fun u => { u with errors := sat32 u.errors 1 }) s)) := by
  have hno : (!dnr && !c.retried) = false := by rcases hr with h | h <;> simp [h]
  simp only [nvComplete, hc, ha, hno, Bool.false_eq_true, if_false]

end

end

/-! ### Timeouts and transfers (R464, R465, R468) -/

theorem nvTimeout_first (hc : (driveOf d s).cmds.find? (fun c => c.cid = cid) = some c) (ha : c.aborted = false) :
    nvTimeout d cid s = clientFail d c.client (raise (0x142 + d) (emit (.nvAdmin d (.abort cid)) (modDrive d (fun u => { u with
      timeouts := sat32 u.timeouts 1
      cmds := u.cmds.map (fun x => if x.cid = cid then { x with aborted := true, client := .none } else x) }) s))) := by
  simp only [nvTimeout, hc, ha, Bool.false_eq_true, if_false]

theorem nvTimeout_second (hc : (driveOf d s).cmds.find? (fun c => c.cid = cid) = some c) (ha : c.aborted = true) :
    nvTimeout d cid s = driveReset d s := by
  simp only [nvTimeout, hc, ha, if_true]

/-- The buffer of a read or write command holds a range. -/
def bufferHolds (a n : Nat) (c : NvCmd) : Bool :=
  (c.kind = .read || c.kind = .write) && decide (c.loc ≤ a) && decide (a + n ≤ c.loc + 4096 * c.nlb)

section
variable {a n : Nat}

theorem driveDma_read (hc : (driveOf d s).cmds.find? (bufferHolds a n) = some c) (hk : c.kind = .read) : driveDma d a n s = s := by
  unfold bufferHolds at hc
  simp [driveDma, hc, hk]

theorem driveDma_write (hc : (driveOf d s).cmds.find? (bufferHolds a n) = some c) (hk : c.kind = .write) :
    driveDma d a n s =
      (let s1 := match c.client with | .reef _ => readQueue s | _ => s
       emit (.nvData d a (slice (mediaWrite d c s1) (a - c.loc) n)) s1) := by
  unfold bufferHolds at hc
  cases hcl : c.client <;> simp [driveDma, hc, hk, hcl]

theorem driveDma_elsewhere (hc : ∀ c ∈ (driveOf d s).cmds, bufferHolds a n c = false) :
    driveDma d a n s = if Config.nvmeQueue d a n then s
      else emit (.nvReject d a) (modDrive d (fun u => { u with dmaReject := sat32 u.dmaReject 1 }) s) := by
  have hnone : (driveOf d s).cmds.find? (bufferHolds a n) = none := List.find?_eq_none.2 fun c h => by simp [hc c h]
  unfold bufferHolds at hnone
  simp only [driveDma, hnone]

end

/-- A lone write command that waits goes again. -/
theorem nvRetry_lone (hl : (driveOf d s).cmds = [c]) (hcid : c.cid = cid) (hw : c.waiting = true) (hk : c.kind = .write) :
    nvRetry d cid s = modDrive d (fun u => { u with
      readCmds := sat32 u.readCmds 0, writeCmds := sat32 u.writeCmds 1, deallocCmds := sat32 u.deallocCmds 0,
      cmds := [{ c with waiting := false, retried := true }] }) s :=
  modDrive_congr (by simp [hl, hcid, hw, hk])

end

/-- Settles O56. -/
theorem driveCommandsComplete : Obligations.DriveCommandsComplete := by
  unfold Obligations.DriveCommandsComplete
  intro d cid c s hd hh counted keyed block plain
  have completes {r u} (h : nvComplete d cid r s = u) : acts (.nvmeCommandCompletion d cid r) s (furlSettle u) :=
    drive_of (f := nvComplete d cid r) rfl hd hh (congrArg furlSettle h)
  have times {u} (h : nvTimeout d cid s = u) : acts (.nvmeCommandTimeout d cid) s (furlSettle u) :=
    drive_of (f := nvTimeout d cid) rfl hd hh (congrArg furlSettle h)
  refine ⟨fun hc => ?completion, fun hl hcid hw hk => ?retry, fun hc => ⟨fun ha => times (nvTimeout_first hc ha), fun ha => times (nvTimeout_second hc ha)⟩,
    fun a n => ?dma⟩
  case completion =>
    refine ⟨fun ha r => completes (nvComplete_late hc ha), fun ha hk hn data => completes (nvComplete_keyless hc ha hk hn),
      fun ha hcl hk data => completes ((nvComplete_ok hc ha hk).trans ?_), fun ha hk k data hcl hkind hidle => completes ?_,
      fun ha hk k data hcl hkind hidle => completes ?_,
      fun ha hr => completes (nvComplete_retries hc ha hr), fun dnr ha hr => completes (nvComplete_fails hc ha hr)⟩
    · have hland : dataLanded d c data (cmdDone d cid counted) = cmdDone d cid counted := by
        cases hk : c.kind <;> simp only [dataLanded, hk, hcl]
      refine Eq.trans (if_pos ?_) hland
      rw [decide_eq_true hcl, Bool.true_or]
    · have hland : dataLanded d c data (cmdDone d cid counted) = memWrite c.loc (plain data) (cmdDone d cid counted) := by
        simp only [dataLanded, hkind, hcl]
        rfl
      have hend := nvComplete_told hc ha (.inr hk) hland (by simp [hcl]) (hcl ▸ hidle)
      rw [hend, hcl, clientEnd]
    · have hland : dataLanded d c data (cmdDone d cid counted) = cmdDone d cid counted := by simp only [dataLanded, hkind]
      have hend := nvComplete_told hc ha (.inr hk) hland (by simp [hcl]) (hcl ▸ hidle)
      rw [hend, hcl, clientEnd]
  case retry => exact drive_of (f := nvRetry d cid) rfl hd hh (congrArg furlSettle (nvRetry_lone hl hcid hw hk))
  case dma =>
    have serves {u} (h : driveDma d a n s = u) : acts (.nvmeDmaRequest d a n) s (furlSettle u) :=
      drive_of (f := driveDma d a n) rfl hd hh (congrArg furlSettle h)
    refine ⟨fun hc hk => serves (driveDma_read hc hk), fun hc hk => serves (driveDma_write hc hk), fun hc => ⟨fun hq => ?_, fun hq => ?_⟩⟩
    · exact serves ((driveDma_elsewhere hc).trans (if_pos hq))
    · exact serves ((driveDma_elsewhere hc).trans (if_neg (by rw [hq]; decide)))

end Sys2Proof.Safety
end

section
/-! PROOFS. The Bowsprit as arbiter and as target, and its interrupt lines. -/

namespace Sys2Proof.Safety

open Sys2Proof.Machine

section
variable {s : State}

/-! ### The arbiter (Table 19.4, R478) -/

section
variable {req cyc : Nat} {idle two : Bool} {by_ : Option Nat}

/-- The state that the arbiter steps from: two responses in one cycle are a fault, and the tenure has run on. -/
def tenureRun (two : Bool) (cyc : Nat) (s : State) : State :=
  modBow (fun b => { b with tenure := b.tenure + cyc }) (if two then raise 0x14D s else s)

/-- An address phase of a master that is not granted is a fault. -/
def intruded (n : Nat) (by_ : Option Nat) (s : State) : State := if by_.any (fun m => m ≠ n) then raise 0x14D s else s

theorem otherRequests_iff {n : Nat} : (List.range 5).any (fun m => m ≠ n && requests req s m) = true ↔ ∃ m, m < 5 ∧ m ≠ n ∧ requests req s m = true := by
  simp [List.any_eq_true]

variable (hrole : plbRole s = 0) (hclk : pclkRuns s = true)
include hrole hclk

theorem arbitrate_runs : ¬ (decide (plbRole s ≠ 0) || !pclkRuns s) = true := by simp [hrole, hclk]

theorem arbitrate_idle (ha : (tenureRun two cyc s).bow.arb = .idle) :
    arbitrate req idle by_ two cyc s =
      (let s2 := if by_.isSome then raise 0x14D (tenureRun two cyc s) else tenureRun two cyc s
       if idle then (nextGrant req s2).elim s2 (fun n => modBow (fun b => { b with arb := .granted n, tenure := 0, lastGrant := n }) s2)
       else s2) := by
  unfold arbitrate
  refine (if_neg (arbitrate_runs hrole hclk)).trans ?_
  unfold tenureRun at *
  simp only [ha]
  cases idle
  · rfl
  · simp only [if_true]
    split <;> rename_i hn <;> rw [hn] <;> rfl

theorem arbitrate_granted {n : Nat} (ha : (tenureRun two cyc s).bow.arb = .granted n) :
    arbitrate req idle by_ two cyc s =
      (let s2 := intruded n by_ (tenureRun two cyc s)
       if !requests req s2 n && idle then modBow (fun b => { b with arb := .idle }) s2
       else if (List.range 5).any (fun m => m ≠ n && requests req s2 m) && s2.bow.maxTenure ≤ s2.bow.tenure then
         modBow (fun b => { b with arb := .ending n }) s2
       else s2) := by
  unfold arbitrate
  refine (if_neg (arbitrate_runs hrole hclk)).trans ?_
  unfold tenureRun intruded at *
  simp only [ha]

theorem arbitrate_ending {n : Nat} (ha : (tenureRun two cyc s).bow.arb = .ending n) :
    arbitrate req idle by_ two cyc s =
      (let s2 := intruded n by_ (tenureRun two cyc s)
       if idle then modBow (fun b => { b with arb := .idle }) s2 else s2) := by
  unfold arbitrate
  refine (if_neg (arbitrate_runs hrole hclk)).trans ?_
  unfold tenureRun intruded at *
  simp only [ha]

end

/-! ### Inbound reads (R490, R491, Table 19.7) -/

section
variable {addr be beats i k : Nat} {burst : Bool} {owner : Option Nat}

/-- Entry k of the delayed reads is one of the same cycle. -/
def sameRead (addr be : Nat) (burst : Bool) (own : Option Nat) (s : State) (k : Nat) : Bool :=
  let d := Tab.get s.bow.dreads k
  !(d.st = .free) && d.addr = addr && d.be = be && d.burst = burst && d.owner = own

/-- The master of a cycle, which only the arbiter knows. -/
def knownOwner (owner : Option Nat) (s : State) : Option Nat := if plbRole s = 0 then owner else none

section
variable (hclk : pclkRuns s = true) (hi : inboundWin addr s = some i)
include hclk hi

theorem inboundRead_early (hs : plbServed s = false) : inboundRead addr be burst beats owner s = plbReply .retry s := by
  simp [inboundRead, hclk, hi, hs]

variable (hs : plbServed s = true)
include hs

theorem inboundRead_masthead (h0 : i = 0) :
    inboundRead addr be burst beats owner s =
      plbReply (.ready (pmbRead (Tab.get s.bow.inw i) addr be (if burst then beats else 1) s)) s := by
  simp [inboundRead, hclk, hi, hs, h0]

variable (h0 : i ≠ 0)
include h0

theorem inboundRead_stopped (hr : bowRuns s = false) : inboundRead addr be burst beats owner s = plbReply .retry s := by
  simp [inboundRead, hclk, hi, hs, h0, hr]

variable (hr : bowRuns s = true)
include hr

section
variable (hk : firstIdx (sameRead addr be burst (knownOwner owner s) s) 0 4 = some k)
include hk

theorem inboundRead_complete (hd : (Tab.get s.bow.dreads k).st = .complete) :
    inboundRead addr be burst beats owner s =
      plbReply (if (if burst then beats else 1) ≤ (Tab.get s.bow.dreads k).words.length
          then .ready ((Tab.get s.bow.dreads k).words.take (if burst then beats else 1)) else .err (Tab.get s.bow.dreads k).words)
        (modDread k (fun _ => {}) s) := by
  unfold sameRead knownOwner at hk
  simp only [inboundRead, hclk, hi, hs, h0, hr, hk, hd, Bool.not_true, Bool.false_eq_true, if_false]

theorem inboundRead_failed (hd : (Tab.get s.bow.dreads k).st = .failed) :
    inboundRead addr be burst beats owner s = plbReply (.err []) (modDread k (fun _ => {}) s) := by
  unfold sameRead knownOwner at hk
  simp only [inboundRead, hclk, hi, hs, h0, hr, hk, hd, Bool.not_true, Bool.false_eq_true, if_false]

theorem inboundRead_pending (hd : (Tab.get s.bow.dreads k).st = .pending) :
    inboundRead addr be burst beats owner s = plbReply .retry s := by
  unfold sameRead knownOwner at hk
  simp only [inboundRead, hclk, hi, hs, h0, hr, hk, hd, Bool.not_true, Bool.false_eq_true, if_false]

end

section
variable (hno : firstIdx (sameRead addr be burst (knownOwner owner s) s) 0 4 = none)
include hno

theorem inboundRead_new (hk : firstIdx (fun k => (Tab.get s.bow.dreads k).st = .free) 0 4 = some k) :
    inboundRead addr be burst beats owner s = plbReply .retry (modDread k (fun _ =>
      { st := .pending, addr := addr, be := be, burst := burst, owner := knownOwner owner s, win := i, after := s.bow.nextPost }) s) := by
  unfold sameRead knownOwner at *
  simp only [inboundRead, hclk, hi, hs, h0, hr, hno, hk, Bool.not_true, Bool.false_eq_true, if_false]

theorem inboundRead_full (hk : firstIdx (fun k => (Tab.get s.bow.dreads k).st = .free) 0 4 = none) :
    inboundRead addr be burst beats owner s = plbReply .retry s := by
  unfold sameRead knownOwner at *
  simp only [inboundRead, hclk, hi, hs, h0, hr, hno, hk, Bool.not_true, Bool.false_eq_true, if_false]

end

end

end

/-! ### Inbound writes (R492) -/

section
variable {addr be i : Nat} {burst : Bool} {words : List Nat} {rd : Reads}

/-- The bytes that an inbound write cycle carries into window i. -/
def bytesIn (addr be : Nat) (burst : Bool) (words : List Nat) (i : Nat) (s : State) : List (Nat × Byte) :=
  let ws := if burst then words else words.take 1
  (List.range ws.length).flatMap (fun k =>
    (inboundBytes (Tab.get s.bow.inw i).width addr be k).map (fun c => (c.2, laneByte (ws.getD k 0) c.1)))

theorem plbWrite_of {u : State} (h : inboundWrite addr be burst words rd.done s = (false, u)) : plbWrite addr be burst words rd s = u := by
  simp only [plbWrite, h, Bool.false_eq_true, if_false]

variable (hclk : pclkRuns s = true)
include hclk

theorem plbWrite_outside (hi : inboundWin addr s = none) : plbWrite addr be burst words rd s = s :=
  plbWrite_of (by simp [inboundWrite, hclk, hi])

variable (hi : inboundWin addr s = some i)
include hi

theorem plbWrite_early (hs : plbServed s = false) : plbWrite addr be burst words rd s = plbReply .retry s :=
  plbWrite_of (by simp [inboundWrite, hclk, hi, hs])

variable (hs : plbServed s = true)
include hs

/-- A write of the Masthead window that leaves the byte of GO alone. -/
theorem plbWrite_masthead (h0 : i = 0) (hgo : ∀ c ∈ bytesIn addr be burst words i s, c.1 - (Tab.get s.bow.inw i).base ≠ 0x400) :
    plbWrite addr be burst words rd s = plbReply (.ready [])
      ((bytesIn addr be burst words i s).foldl (fun t c => pmbWriteByte rd.done (c.1 - (Tab.get s.bow.inw i).base) c.2 t) s) := by
  refine plbWrite_of ?_
  have hno : (bytesIn addr be burst words i s).any (fun c => decide (c.1 - (Tab.get s.bow.inw i).base = 0x400) && c.2.getLsbD 0) = false := by
    rw [List.any_eq_false]
    intro c hc
    simp [hgo c hc]
  unfold bytesIn at *
  simp only [inboundWrite, hclk, hi, hs, h0, Bool.not_true, Bool.false_eq_true, if_false, if_true] at hno ⊢
  rw [hno]

variable (h0 : i ≠ 0)
include h0

theorem plbWrite_posted (hr : bowRuns s = true) (hw : s.bow.wbuf.length < 8) (hd : s.bow.dreads = []) :
    plbWrite addr be burst words rd s = plbReply (.ready []) (modBow (fun b => { b with
      wbuf := b.wbuf ++ [{ serial := b.nextPost
                           bytes := (bytesIn addr be burst words i s).map (fun c => ((Tab.get s.bow.inw i).toLocal c.1, c.2)) }]
      nextPost := b.nextPost + 1, dreads := [] }) s) := by
  refine plbWrite_of ?_
  have hroom : (!bowRuns s || decide (8 ≤ s.bow.wbuf.length)) = false := by simp [hr, hw]
  unfold bytesIn
  simp only [inboundWrite, hclk, hi, hs, h0, hroom, modBow, hd, List.filter_nil, Bool.not_true, Bool.false_eq_true, if_false]

theorem plbWrite_full (hr : bowRuns s = false ∨ 8 ≤ s.bow.wbuf.length) : plbWrite addr be burst words rd s = plbReply .retry s := by
  refine plbWrite_of ?_
  have hfull : (!bowRuns s || decide (8 ≤ s.bow.wbuf.length)) = true := by simpa using hr
  simp only [inboundWrite, hclk, hi, hs, h0, hfull, Bool.not_true, Bool.false_eq_true, if_false, if_true]

end

/-! ### Delayed reads and interrupt lines (R491, R494, R502) -/

section
variable {i : Nat}

theorem fetchDone_gone (hi : i < 4) (hd : (Tab.get s.bow.dreads i).st = .pending) :
    fetchDone i false s = modDread i (fun d => { d with st := .failed }) (landBefore (Tab.get s.bow.dreads i).after s) := by
  simp [fetchDone, Nat.not_le.2 hi, hd]

/-- Where the fetch of a delayed read lies, on the state in which the writes before it have landed. -/
def fetchAt (d : DelayedRead) (w : PlbWin) : Nat := w.toLocal (d.addr / lanesOf w.width * lanesOf w.width)

/-- The bytes that it asks for. -/
def fetchLen (d : DelayedRead) (w : PlbWin) : Nat := if d.burst then 4 * fetchBeats d else lanesOf w.width

theorem fetchDone_complete {d : DelayedRead} {w : PlbWin} {s1 : State} (hi : i < 4) (hget : Tab.get s.bow.dreads i = d)
    (hland : landBefore d.after s = s1) (hwin : Tab.get s1.bow.inw d.win = w) (hd : d.st = .pending)
    (hr : plbRegion (fetchAt d w) (fetchLen d w) s1 = true) (hc : rangeClean (fetchAt d w) (fetchLen d w) s1 = true) :
    fetchDone i true s =
      (let word := fun k => laneWord ((inboundBytes w.width d.addr d.be k).map (fun c =>
         (c.1, (rawRead (fetchAt d w) (fetchLen d w) s1).getD (w.toLocal c.2 - fetchAt d w) 0)))
       modDread i (fun x => { x with st := .complete, words := (List.range (if x.burst then fetchBeats x else 1)).map word }) s1) := by
  have hgoes : (decide (4 ≤ i) || !decide (d.st = .pending)) = false := by simp [hi, hd]
  unfold fetchDone fetchAt fetchLen at *
  simp only [hget, hland, hwin, hgoes, hr, memRead_of_rangeClean hc, Bool.not_true, Bool.or_self, Bool.false_eq_true, if_false]

theorem dreadDiscard_held (hi : i < 4) (hd : (Tab.get s.bow.dreads i).st = .complete ∨ (Tab.get s.bow.dreads i).st = .failed) :
    dreadDiscard i s = raise 0x14E (modDread i (fun _ => {}) s) := by
  have hor : (decide (i < 4) && (decide ((Tab.get s.bow.dreads i).st = .complete) || decide ((Tab.get s.bow.dreads i).st = .failed))) = true := by
    simpa [hi] using hd
  exact if_pos hor

end

section
variable {n : Nat} (hn : n < 8)
include hn

theorem irqAssert_falls (hs : plbServed s = true) (hr : plbRole s < 2) (hl : s.bow.low.getLsbD n = false) :
    irqAssert n s = lineAct n (modBow (fun b => { b with low := setBit b.low n true }) s) := by
  simp only [irqAssert, Nat.not_le.2 hn, hs, hr, hl, decide_false, decide_true, Bool.not_true, Bool.or_self, Bool.false_eq_true, if_false]

theorem irqRepeat_low (hs : plbServed s = true) (hr : plbRole s < 2) (hl : s.bow.low.getLsbD n = true)
    (hlevel : (Tab.get s.bow.routes n).level = true) : irqRepeat n s = lineAct n s := by
  simp only [irqRepeat, hn, hs, hr, hl, hlevel, decide_true, Bool.and_self, if_true]

end

end

/-- Settles O57. -/
theorem bowspritTargetEventsComplete : Obligations.BowspritTargetEventsComplete := by
  unfold Obligations.BowspritTargetEventsComplete
  refine ⟨?arbiter, ?read, ?write, ?delayed, ?lines⟩
  case arbiter =>
    intro req idle two cyc s hrole hclk ran s1 arb
    have steps {by_ t} (h : arbitrate req idle by_ two cyc s = t) : arb by_ t := acts_of (f := arbitrate req idle by_ two cyc) rfl h
    refine ⟨fun ha => ⟨fun n hidle hn => steps ?_, fun hidle => ⟨steps ?_, fun m => steps ?_⟩, fun hidle hn => steps ?_⟩, fun n by_ ha => ?granted,
      fun n by_ ha => steps (arbitrate_ending hrole hclk ha)⟩
    · refine (arbitrate_idle hrole hclk ha).trans ((if_pos hidle).trans ?_)
      exact congrArg (fun o => Option.elim o _ _) hn
    · exact (arbitrate_idle hrole hclk ha).trans (if_neg (by simp [hidle]))
    · exact (arbitrate_idle hrole hclk ha).trans (if_neg (by simp [hidle]))
    · refine (arbitrate_idle hrole hclk ha).trans ((if_pos hidle).trans ?_)
      exact congrArg (fun o => Option.elim o _ _) hn
    case granted =>
      intro s2 other
      have hg := arbitrate_granted (req := req) (idle := idle) (by_ := by_) hrole hclk ha
      have hbusy (hq : requests req s2 n = true ∨ idle = false) : ¬ (!requests req s2 n && idle) = true := by
        rcases hq with hq | hq <;> simp [hq]
      refine ⟨fun hq hidle => steps (hg.trans (if_pos ?_)), fun hq hother hl => steps (hg.trans ((if_neg (hbusy hq)).trans (if_pos ?_))),
        fun hq hstays => steps (hg.trans ((if_neg (hbusy hq)).trans (if_neg ?_)))⟩
      · rw [show requests req (intruded n by_ (tenureRun two cyc s)) n = false from hq, hidle]
        rfl
      · rw [show (List.range 5).any (fun m => m ≠ n && requests req (intruded n by_ (tenureRun two cyc s)) m) = true from otherRequests_iff.2 hother]
        exact decide_eq_true hl
      · rcases hstays with hno | hl
        · rw [show (List.range 5).any (fun m => m ≠ n && requests req (intruded n by_ (tenureRun two cyc s)) m) = false from
            Bool.eq_false_iff.2 (mt otherRequests_iff.1 hno)]
          simp
        · rw [show decide ((intruded n by_ (tenureRun two cyc s)).bow.maxTenure ≤ (intruded n by_ (tenureRun two cyc s)).bow.tenure) = false from
            decide_eq_false (Nat.not_le.2 hl), Bool.and_false]
          decide
  case read =>
    intro addr be burst beats owner i s hclk hi own n same freeAt read open_
    have reads {t} (h : inboundRead addr be burst beats owner s = t) : read t := acts_of (f := inboundRead addr be burst beats owner) rfl h
    refine ⟨fun hs => reads (inboundRead_early hclk hi hs), fun hs h0 => reads (inboundRead_masthead hclk hi hs h0),
      fun hs h0 hr => reads (inboundRead_stopped hclk hi hs h0 hr), fun k ho hk => ?known, fun k ho hno hk => ?new, fun ho hno hk => ?full⟩
    all_goals obtain ⟨hs, h0, hr⟩ := ho
    case known =>
      intro d
      refine ⟨fun hd hl => reads ?_, fun hd hl => reads ?_, fun hd => reads (inboundRead_failed hclk hi hs h0 hr hk hd),
        fun hd => reads (inboundRead_pending hclk hi hs h0 hr hk hd)⟩
      · rw [inboundRead_complete hclk hi hs h0 hr hk hd]
        exact congrArg (fun p => plbReply p _) (if_pos hl)
      · rw [inboundRead_complete hclk hi hs h0 hr hk hd]
        exact congrArg (fun p => plbReply p _) (if_neg (Nat.not_le.2 hl))
    case new => exact reads (inboundRead_new hclk hi hs h0 hr hno hk)
    case full => exact reads (inboundRead_full hclk hi hs h0 hr hno hk)
  case write =>
    intro addr be burst words rd s hclk w ws bytes
    have writes {t} (h : plbWrite addr be burst words rd s = t) : acts (.plbInboundWrite addr be burst words rd) s t :=
      acts_of (f := plbWrite addr be burst words rd) rfl h
    exact ⟨fun hi => writes (plbWrite_outside hclk hi), fun i hi hs => writes (plbWrite_early hclk hi hs),
      fun hi hs hgo => writes (plbWrite_masthead hclk hi hs rfl hgo), fun i hi h0 hs hr hw hd => writes (plbWrite_posted hclk hi hs h0 hr hw hd),
      fun i hi h0 hs hfull => writes (plbWrite_full hclk hi hs h0 hfull)⟩
  case delayed =>
    intro i s hh hi d
    exact ⟨fun hd => live_of (f := fetchDone i false) rfl hh (fetchDone_gone hi hd),
      fun hd hr hc => live_of (f := fetchDone i true) rfl hh (fetchDone_complete hi rfl rfl rfl hd hr hc),
      fun hd => live_of (f := dreadDiscard i) rfl hh (dreadDiscard_held hi hd)⟩
  case lines =>
    intro n s hn r acted
    have falls {t} (h : irqAssert n s = t) : acts (.plbIrqAssert n) s t := acts_of (f := irqAssert n) rfl h
    have repeats {t} (h : irqRepeat n s = t) : acts (.plbIrqLevelRepeat n) s t := acts_of (f := irqRepeat n) rfl h
    refine ⟨fun hs hr hl => falls (irqAssert_falls hn hs hr hl), fun hs hr hl hlevel => repeats (irqRepeat_low hn hs hr hl hlevel),
      fun hlevel => repeats (if_neg ?_), fun hr => ⟨falls (if_pos ?_), repeats (if_neg ?_)⟩, acts_of (f := irqDeassert n) rfl (if_pos hn)⟩
    · rw [show (Tab.get s.bow.routes n).level = false from hlevel, Bool.and_false]
      decide
    · simp [Nat.not_lt.2 hr]
    · simp [Nat.not_lt.2 hr]

end Sys2Proof.Safety
end

section
/-! PROOFS. The Bowsprit as master. -/

namespace Sys2Proof.Safety

open Sys2Proof.Machine

section
variable {s : State}

/-! ### An access is queued (R484) -/

section
variable {f : PlbFw} {idle : Bool}

/-- Bytes of a firmware access. -/
def fwBytes (f : PlbFw) : Nat :=
  match f.data with
  | some d => d.length
  | none => f.n

/-- A firmware access that its window does not take. -/
def fwRefused (f : PlbFw) (s : State) : Bool :=
  let w := Tab.get s.bow.outw f.win
  8 ≤ f.win || !w.enable || w.size < f.off + fwBytes f || fwBytes f = 0 || !(bowRuns s || (bootPlb s && f.win = 0 && f.data.isNone))

theorem fwRefused_eq_false (hw : f.win < 8) (he : (Tab.get s.bow.outw f.win).enable = true) (hs : f.off + fwBytes f ≤ (Tab.get s.bow.outw f.win).size)
    (h0 : 0 < fwBytes f) (hr : bowRuns s = true ∨ (bootPlb s = true ∧ f.win = 0 ∧ f.data = none)) : fwRefused f s = false := by
  have hruns : (bowRuns s || (bootPlb s && decide (f.win = 0) && f.data.isNone)) = true := by
    rcases hr with hr | ⟨hb, hw0, hd⟩
    · rw [hr, Bool.true_or]
    · simp [hb, hw0, hd]
  simp only [fwRefused, decide_eq_false (Nat.not_le.2 hw), he, decide_eq_false (Nat.not_lt.2 hs), decide_eq_false (Nat.ne_of_gt h0), hruns,
    Bool.not_true, Bool.or_self]

theorem fwRefused_eq_true (h : 8 ≤ f.win ∨ (Tab.get s.bow.outw f.win).enable = false ∨ (Tab.get s.bow.outw f.win).size < f.off + fwBytes f) :
    fwRefused f s = true := by
  rcases h with h | h | h <;> simp [fwRefused, h]

theorem fwAccess_refused (h : fwRefused f s = true) :
    fwAccess f s = if f.data.isNone then emit (.plbRead (List.replicate f.n 0xFF)) s else s := by
  unfold fwRefused fwBytes at h
  refine (if_pos h).trans ?_
  cases f.data <;> rfl

theorem fwAccess_queued (h : fwRefused f s = false) :
    fwAccess f s =
      (let w := Tab.get s.bow.outw f.win
       queueAcc { read := f.data.isNone, n := fwBytes f, cycles := accCycles w.width w.burstOk (w.base + f.off) (fwBytes f) f.data } s) := by
  unfold fwRefused fwBytes at *
  exact if_neg (Bool.eq_false_iff.1 h)

/-- The access starts no cycle at once: the own grant is what starts one, and only at the arbiter. -/
theorem outboundAccess_waits {s1 : State} (h : fwAccess f s = s1) (hno : plbRole s1 ≠ 0 ∨ s1.bow.arb ≠ .granted 4) :
    outboundAccess (some f) idle s = s1 := by
  have hwaits : (decide (s1.bow.mst = .requesting) && decide (plbRole s1 = 0) && mayStart (decide (s1.bow.arb = .granted 4)) idle s1) = false := by
    rcases hno with hr | ha
    · simp [hr]
    · simp [mayStart, ha]
  simp only [outboundAccess, h, hwaits, Bool.false_eq_true, if_false]

end

/-! ### A cycle starts and ends (R480, R496) -/

section
variable {x : PlbAcc} {xs : List PlbAcc}

theorem startCycle_of {c : PlbCycle} {cs : List PlbCycle} (ha : s.bow.accs = x :: xs) (hc : x.cycles = c :: cs) :
    startCycle s = emit (.plbCycle c.addr c.be x.read c.burst c.words)
      (modBow (fun b => { b with mst := .active, reqLow := b.reqLow && !(xs.isEmpty && cs.isEmpty) }) s) := by
  simp only [startCycle, ha, hc]

/-- The state once the head access has left the queue. -/
def accLeft (xs : List PlbAcc) (s : State) : State :=
  modBow (fun b => { b with accs := xs, mst := if xs.isEmpty then .idle else .requesting
                            retries := 0, reqLow := !xs.isEmpty && decide (plbRole s = 1) }) s

/-- How an access that has failed is told. -/
def accFailed (x : PlbAcc) (xs : List PlbAcc) (detail : Nat) (s : State) : State :=
  match x.ref with
  | some r => finish r .fault detail [] (raise 0x14A (accLeft xs s))
  | none => if x.read then emit (.plbRead (List.replicate x.n 0xFF)) (raise 0x14A (accLeft xs s)) else raise 0x14A (accLeft xs s)

variable (ha : s.bow.accs = x :: xs)
include ha

theorem accEnd_failed {detail : Nat} : accEnd (some detail) s = accFailed x xs detail s := by
  cases hr : x.ref with
  | none =>
    simp only [accEnd, accFailed, ha, hr]
    rfl
  | some r =>
    simp only [accEnd, accFailed, ha, hr]
    rfl

theorem accEnd_done {r : Nat × Nat} (hr : x.ref = some r) (hx : x.read = true) :
    accEnd none s = finish r .ok 0 (leBytes 4 (beNat (Tab.getList x.got 0 x.n))) (accLeft xs s) := by
  simp only [accEnd, ha, hr, hx, if_true]
  rfl

theorem cycleDone_next {ws : List Nat} {c c2 : PlbCycle} {cs : List PlbCycle} (hc : x.cycles = c :: c2 :: cs) :
    cycleDone ws s = modBow (fun b => { b with mst := .requesting })
      (modBow (fun b => { b with accs := { takeBeats x c ws with cycles := c2 :: cs } :: xs, retries := 0 }) s) := by
  simp [cycleDone, ha, hc]

theorem cycleDone_last {ws : List Nat} {c : PlbCycle} {r : Nat × Nat} (hc : x.cycles = [c]) (hr : x.ref = some r) (hx : x.read = true) :
    cycleDone ws s = finish r .ok 0 (leBytes 4 (beNat (Tab.getList (takeBeats x c ws).got 0 x.n))) (accLeft xs s) := by
  have hend : cycleDone ws s =
      accEnd none (modBow (fun b => { b with accs := { takeBeats x c ws with cycles := [] } :: xs, retries := 0 }) s) := by
    simp [cycleDone, ha, hc]
  rw [hend]
  exact accEnd_done (x := { takeBeats x c ws with cycles := [] }) (xs := xs) rfl hr hx

end

end

/-- Settles O58. -/
theorem bowspritMasterEventsComplete : Obligations.BowspritMasterEventsComplete := by
  unfold Obligations.BowspritMasterEventsComplete
  refine ⟨?access, ?start, ?ends⟩
  case access =>
    intro f idle s hh hno w n
    have hn : fwBytes f = n := rfl
    have arrive {t} (h : fwAccess f s = t) (ht : plbRole t ≠ 0 ∨ t.bow.arb ≠ .granted 4) : acts (.plbOutboundAccess (some f) idle) s t :=
      live_of (f := outboundAccess (some f) idle) rfl hh (outboundAccess_waits h ht)
    refine ⟨fun hwin he hsize h0 hruns => ?queued, fun hbad => ?refused⟩
    case queued =>
      exact arrive (fwAccess_queued (fwRefused_eq_false hwin he hsize h0 hruns)) hno
    case refused =>
      have hrefused : fwRefused f s = true := fwRefused_eq_true hbad
      refine ⟨fun hd => arrive ((fwAccess_refused hrefused).trans (if_pos ?_)) hno, fun hd => arrive ((fwAccess_refused hrefused).trans (if_neg ?_)) hno⟩
      · rw [hd]
        rfl
      · simpa using hd
  case start =>
    intro x xs c cs s hh hm hclk hserves ha hc started
    have hstart : startCycle s = started := startCycle_of ha hc
    have hgoes : (plbServed s || bootPlb s) = true := by simpa using hserves
    have received {idle t} (h : grantReceived idle s = t) : acts (.plbGrantReceived idle) s t := live_of (f := grantReceived idle) rfl hh h
    have granted {t} (h : outboundAccess none true s = t) : acts (.plbOutboundAccess none true) s t :=
      live_of (f := outboundAccess none true) rfl hh h
    refine ⟨fun hr => ⟨received ((if_pos ?_).trans hstart), received (if_neg ?_)⟩, fun hr hg => granted ((if_pos ?_).trans hstart),
      fun hr hg => granted (if_neg ?_)⟩
    · simp [mayStart, hm, hr, hclk, hgoes]
    · simp [mayStart]
    · simp [mayStart, hm, hr, hg, hclk, hgoes]
    · simp [mayStart, hg]
  case ends =>
    intro x xs s ha left failed
    have hfailed (detail) : accEnd (some detail) s = failed detail := (accEnd_failed ha).trans rfl
    refine ⟨fun hm => ?active, fun hm hh => ?grant, fun hm hh => ?wait⟩
    case active =>
      have hactive : ¬ (!decide (s.bow.mst = .active)) = true := by simp [hm]
      have responds {r t} (h : targetResponse r s = t) : acts (.plbTargetResponse r) s t := acts_of (f := targetResponse r) rfl h
      refine ⟨fun ws => responds ((if_neg hactive).trans (hfailed 1)), acts_of (f := noResponse) rfl ((if_pos hm).trans (hfailed 1)),
        fun hl => responds ((if_neg hactive).trans ((if_pos hl).trans (hfailed 2))), fun hl => responds ((if_neg hactive).trans (if_neg (Nat.not_le.2 hl))),
        fun ws c c2 cs hc => responds ((if_neg hactive).trans (cycleDone_next ha hc)),
        fun ws c r hc hr hx => responds ((if_neg hactive).trans (cycleDone_last ha hc hr hx))⟩
    case grant => exact live_of (f := grantTimeout) rfl hh ((if_pos hm).trans (hfailed 3))
    case wait => exact live_of (f := retryWait) rfl hh (if_pos hm)

end Sys2Proof.Safety
end

section
/-! PROOFS. The Ratline, the persistent store, and the messages and timers of the rack. -/

namespace Sys2Proof.Safety

open Sys2Proof.Machine

section
variable {s : State}

/-! ### The Ratline (R649 - R651) -/

section
variable {f : List Byte} {temp : Int} {w : RlSweep}

theorem rlForward_sweep : (rlForward f s).rl.sweep = s.rl.sweep := by
  unfold rlForward
  dsimp only
  split <;> rfl

theorem rlCheckDone_none (h : s.rl.sweep = none) : rlCheckDone s = s := by simp only [rlCheckDone, h]

/-- The guard of an entry that this device takes. -/
theorem rlRxEntry_runs (hr : rlRuns s = true) (hv : rlValid f = true) (ht : fieldN f 0 1 = 0xA5) :
    (rlRuns s && rlValid f && decide (fieldN f 0 1 = 0xA5)) = true := by simp [hr, hv, ht]

/-- The view with the entry of another position. -/
def entrySeen (f : List Byte) (s : State) : State :=
  { s with rl := { s.rl with view := Tab.put s.rl.view (fieldN f 1 1) (some { bytes := slice f 3 8, at_ := s.time.mono }) } }

section
variable (hr : rlRuns s = true) (hv : rlValid f = true)
include hr hv

theorem rlRxEntry_own (ht : fieldN f 0 1 = 0xA5) (ho : fieldN f 3 1 = devNum s) : rlRxEntry f s =
    { s with rl := { s.rl with ringSize := some (fieldN f 1 1), orphaned := if fieldN f 2 1 = 0 then false else s.rl.orphaned } } := by
  unfold rlRxEntry
  exact (if_pos (rlRxEntry_runs hr hv ht)).trans (if_pos ho)

theorem rlRxEntry_other (ht : fieldN f 0 1 = 0xA5) (ho : fieldN f 3 1 ≠ devNum s) (hs : s.rl.sweep = none) :
    rlRxEntry f s = rlForward f (entrySeen f s) := by
  have hsweep : (rlForward f (entrySeen f s)).rl.sweep = none := rlForward_sweep.trans hs
  unfold rlRxEntry
  refine (if_pos (rlRxEntry_runs hr hv ht)).trans ((if_neg ho).trans ?_)
  rw [hs]
  refine Eq.trans ?_ (rlCheckDone_none hsweep)
  unfold entrySeen
  dsimp only
  rw [hs]
  rfl

theorem rlRxSweep_runs (ht : fieldN f 0 1 = 0x5A) : (rlRuns s && rlValid f && decide (fieldN f 0 1 = 0x5A)) = true := by simp [hr, hv, ht]

theorem rlRxSweep_other (ht : fieldN f 0 1 = 0x5A) (ho : fieldN f 3 1 ≠ devNum s) :
    rlRxSweep f temp s = rlSendEntry (fieldN f 2 1) temp (rlForward f s) := by
  unfold rlRxSweep
  exact (if_pos (rlRxSweep_runs hr hv ht)).trans (if_neg ho)

/-- The sweep that waits, with the size of the ring known. -/
def ringKnown (f : List Byte) (w : RlSweep) (s : State) : State :=
  { s with rl := { s.rl with ringSize := some (fieldN f 1 1), sweep := some { w with ring := some (fieldN f 1 1) } } }

theorem rlRxSweep_own (ht : fieldN f 0 1 = 0x5A) (ho : fieldN f 3 1 = devNum s) (hw : s.rl.sweep = some w) (hq : w.seq = fieldN f 2 1) :
    rlRxSweep f temp s =
      (let held := ringKnown f w s
       if (List.range (fieldN f 1 1 - 1)).all (fun i => w.fresh.contains (i + 1)) then
         finish w.cmd .ok 0 (rlResult false { w with ring := some (fieldN f 1 1) } held) { held with rl := { held.rl with sweep := none } }
       else held) := by
  unfold rlRxSweep
  refine (if_pos (rlRxSweep_runs hr hv ht)).trans ((if_pos ho).trans ?_)
  rw [hw, Option.map_some, if_pos hq]
  rfl

end

theorem rlRxEntry_invalid (hv : rlValid f = false) : rlRxEntry f s = s := by simp [rlRxEntry, hv]

theorem rlRxSweep_invalid (hv : rlValid f = false) : rlRxSweep f temp s = s := by simp [rlRxSweep, hv]

theorem rlSweepTimeout_of (hw : s.rl.sweep = some w) : rlSweepTimeout s =
    raise 0x184 (finish w.cmd .fault 1 (rlResult true w s) { s with rl := { s.rl with sweep := none } }) := by
  simp only [rlSweepTimeout, hw]

end

/-! ### The persistent store (R653 - R658) -/

section
variable {w : PsWrite}

/-- The slot once the flash operation of a write has taken effect. -/
def slotWritten (w : PsWrite) (s : State) : State :=
  { s with ps := { s.ps with slots := Tab.mod s.ps.slots (2 * w.record + b2n w.slotB) (psApply w) } }

theorem psStepNext_eq_none : psStepNext w = none ↔ w.step = .commit := by
  cases h : w.step <;> simp only [psStepNext, h, reduceCtorEq]
  split <;> simp

theorem psFlashDone_failed (hw : s.ps.writing = some w) : psFlashDone false s = raise 0x185 (psEnd .fault 4 s) := by
  simp only [psFlashDone, hw, Bool.not_false, if_true]

theorem psFlashDone_commit (hw : s.ps.writing = some w) (hc : w.step = .commit) : psFlashDone true s = psEnd .ok 0 (slotWritten w s) := by
  simp only [psFlashDone, slotWritten, hw, psStepNext_eq_none.2 hc, Bool.not_true, Bool.false_eq_true, if_false]

theorem psFlashDone_step {n : PsStep} (hw : s.ps.writing = some w) (hn : psStepNext w = some n) :
    psFlashDone true s = if s.pins.pwrFallen then psEnd .again 0 (slotWritten w s)
      else { slotWritten w s with ps := { (slotWritten w s).ps with writing := some { w with step := n } } } := by
  simp only [psFlashDone, slotWritten, hw, hn, Bool.not_true, Bool.false_eq_true, if_false]

end

/-! ### The rack (R667 - R677) -/

section
variable {src mtype : Nat} {b : List Byte}

theorem rackArrive_of (ht : fieldN b 0 1 = mtype) (hs : src < 72) : rackArrive mtype src b s = rackMsg src b s := by
  simp only [rackArrive, ht, hs, decide_true, Bool.and_self, if_true]

variable (hp : speaks s = true)
include hp

theorem rackMsg_malformed (h : b.length < 4 ∨ fieldN b 1 1 ≠ 1 ∨ fieldN b 2 2 ≠ b.length) : rackMsg src b s = rackDiscard s := by
  have hbad : (decide (b.length < 4) || decide (fieldN b 1 1 ≠ 1) || decide (fieldN b 2 2 ≠ b.length)) = true := by
    simpa only [Bool.or_eq_true, decide_eq_true_eq, or_assoc] using h
  simp only [rackMsg, hp, hbad, Bool.not_true, Bool.false_eq_true, if_false, if_true]

theorem rackMsg_announce (ht : fieldN b 0 1 = 1) (hv : fieldN b 1 1 = 1) (hl : fieldN b 2 2 = 340) (hn : b.length = 340) (he : fieldN b 4 1 < 72) :
    rackMsg src b s =
      if Config.ecdsaVerify (slice b 148 96) (sha384 (b.take 244)) (slice b 244 96) then rxAnnounce b s else rackDiscard s := by
  simp [rackMsg, hp, ht, hv, hl, hn, he]

theorem rackMsg_leave (ht : fieldN b 0 1 = 2) (hv : fieldN b 1 1 = 1) (hl : fieldN b 2 2 = 8) (hn : b.length = 8) :
    rackMsg src b s = modPeer src (fun p => { p with left := true }) s := by
  simp [rackMsg, hp, ht, hv, hl, hn]

end

theorem sysExpiry_inactive {e i : Nat} (ha : activeMember e s = false) (hc : (peerOf e s).sysConn = some i) :
    sysExpiry e s = connClose i true none (modPeer e (fun p => { p with sysConn := none }) s) := by
  simp only [sysExpiry, ha, hc, Bool.false_eq_true, if_false]

end

/-- Settles O60. -/
theorem ratlinePstoreAndRackEventsComplete : Obligations.RatlinePstoreAndRackEventsComplete := by
  unfold Obligations.RatlinePstoreAndRackEventsComplete
  refine ⟨?periodic, ?entry, ?sweep, ?invalid, ?timeout, ?orphan, ?pstore, ?messages, ?announced, ?announce, ?grace, ?expiry⟩
  case periodic => exact fun temp s hr => acts_of (f := rlPeriodic temp) rfl (if_pos hr)
  case entry =>
    intro f s hr hv ht
    have taken {t} (h : rlRxEntry f s = t) : acts (.ratlineEntry f) s t := acts_of (f := rlRxEntry f) rfl h
    refine ⟨fun ho => taken (rlRxEntry_own hr hv ht ho), fun ho hs => ⟨fun hh => taken ?_, fun hh => taken ?_⟩⟩
    · exact (rlRxEntry_other hr hv ht ho hs).trans (if_pos hh)
    · exact (rlRxEntry_other hr hv ht ho hs).trans (if_neg (by omega))
  case sweep =>
    intro f temp s hr hv ht
    have taken {t} (h : rlRxSweep f temp s = t) : acts (.ratlineSweepFrame f temp) s t := acts_of (f := rlRxSweep f temp) rfl h
    refine ⟨fun ho => taken (rlRxSweep_other hr hv ht ho), fun w ho hw hq => ⟨fun hall => taken ?_, fun hall => taken ?_⟩⟩
    · exact (rlRxSweep_own hr hv ht ho hw hq).trans (if_pos hall)
    · exact (rlRxSweep_own hr hv ht ho hw hq).trans (if_neg (Bool.eq_false_iff.1 hall))
  case invalid =>
    exact fun f temp s hv => ⟨acts_of (f := rlRxEntry f) rfl (rlRxEntry_invalid hv), acts_of (f := rlRxSweep f temp) rfl (rlRxSweep_invalid hv)⟩
  case timeout => exact fun w s hh hw => live_of (f := rlSweepTimeout) rfl hh (rlSweepTimeout_of hw)
  case orphan =>
    intro s hr ho
    exact acts_of (f := rlOrphan) rfl (if_pos (by rw [hr, ho]; rfl))
  case pstore =>
    intro w s hm hw s1
    have done {ok t} (h : psFlashDone ok s = t) : acts (.pstoreFlashOpDone ok) s t :=
      answers_of (u := if s.dev.mode = .safe then psLastOp ok s else settle (psFlashDone ok s)) rfl (by rw [if_neg hm, h])
    refine ⟨done (psFlashDone_failed hw), fun hc => done (psFlashDone_commit hw hc), fun hc hf => ?_, fun n hn hf => done ?_⟩
    · obtain ⟨n, hn⟩ := Option.ne_none_iff_exists'.1 (mt psStepNext_eq_none.1 hc)
      exact done ((psFlashDone_step hw hn).trans (if_pos hf))
    · exact (psFlashDone_step hw hn).trans (if_neg (Bool.eq_false_iff.1 hf))
  case messages =>
    intro src b s hm hp hs
    have announces {t} (ht : fieldN b 0 1 = 1) (h : rackMsg src b s = t) : acts (.announce src b) s t :=
      serve_of (f := rackArrive 1 src b) rfl hm ((rackArrive_of ht hs).trans h)
    have leaves {t} (ht : fieldN b 0 1 = 2) (h : rackMsg src b s = t) : acts (.leave src b) s t :=
      serve_of (f := rackArrive 2 src b) rfl hm ((rackArrive_of ht hs).trans h)
    exact ⟨fun hbad => ⟨fun ht => announces ht (rackMsg_malformed hp hbad), fun ht => leaves ht (rackMsg_malformed hp hbad)⟩,
      fun ht hv hl hn he => announces ht (rackMsg_announce hp ht hv hl hn he), fun ht hv hl hn => leaves ht (rackMsg_leave hp ht hv hl hn)⟩
  case announced => exact fun b s he => if_neg he
  case announce => exact fun s hm hp => serve_of (f := announce) rfl hm (if_pos hp)
  case grace =>
    exact fun s hm => ⟨fun hg => serve_of (f := graceExpiry) rfl hm (if_pos hg), fun hg => serve_of (f := graceExpiry) rfl hm (if_neg hg),
      serve_of (f := rmuTimeout) rfl hm rfl, serve_of (f := oldEpochExpiry) rfl hm rfl⟩
  case expiry =>
    intro e s hm he
    have expires {t} (h : sysExpiry e s = t) : acts (.systemConnExpiry e) s t :=
      serve_of (f := fun s => if e < 72 then sysExpiry e s else s) rfl hm ((if_pos he).trans h)
    exact ⟨serve_of (f := fun s => if e < 72 then annExpiry e s else s) rfl hm (if_pos he), fun ha => expires (if_pos ha),
      fun i ha hc => expires (sysExpiry_inactive ha hc)⟩

end Sys2Proof.Safety
end
